-- ==== Sys2Proof/Word.lean ====
section
/-! DEFINITION. The word types of the Zufen block: the 64-bit register and record word, and the byte. -/

namespace Sys2Proof

/-- A 64-bit register, packet, record or memory word. -/
abbrev Word := BitVec 64

/-- One byte of a memory beat, a frame or an image. -/
abbrev Byte := BitVec 8

end Sys2Proof
end

