-- ==== Sys2Proof/Syntax.lean ====
section
/-! DEFINITION. The commands of the block: one constructor of `Instr` for each row of the table of
operations and events, with the values that the outside world supplies to that step.
A value that the silicon or the host fixes (a time stamp, a measured delay, the outcome of an error
check, raw entropy) is an operand of the step that meets it. -/

namespace Sys2Proof

/-- What the protection of a memory word shows when the step reads it (R13). -/
inductive Ecc where
  | ok
  | corrected
  | uncorrectable
  deriving DecidableEq, Repr

/-- What the checks of a track show at the end of a pass: its residues and the accumulators' parity
(R184, Table 09-7), and the sequencer's descriptor store. -/
inductive PassCheck where
  | ok
  | residue
  | parity
  | store
  | actCorrected
  | actUncorrectable
  deriving DecidableEq, Repr

/-- One snoop beat on the probe port (Table 02-1). -/
structure SnoopIn where
  addr : BitVec 48
  attr : BitVec 8
  data : BitVec 512
  deriving DecidableEq, Repr

/-- The probe inputs that a station samples at one rising edge of STN_CLK (R30). -/
structure StnInputs where
  ev    : BitVec 448
  occ   : List (BitVec 12)
  snoop : Option SnoopIn
  tag   : Option (BitVec 16)
  acc   : Option (BitVec 1024)
  deriving DecidableEq, Repr

/-- One failing word of the start-up self-test outside the tracks (Table 20-2): the subsystem whose
memory it is (1 stations, 4 Ledger, 5 Marshalling Yard, 6 Sidings), the engine, the word or index,
and whether two or more bits fail. -/
structure BistWord where
  subsystem : Nat
  engine    : Nat
  word      : Nat
  multi     : Bool
  deriving DecidableEq, Repr

/-- What the start-up self-test finds (Table 20-2, Table 20-10). -/
structure BistResult where
  sbxOk       : Bool
  conductorOk : BitVec 2
  words       : List BistWord
  arrayFail   : BitVec 4
  decryptFail : BitVec 4
  entropyRaw  : BitVec 1024
  deriving DecidableEq, Repr

/-- What the checks of two words read at one instant show: the word named first, and its partner (R130, R142). -/
structure PairEcc where
  ecc   : Ecc
  eccHi : Ecc
  deriving DecidableEq, Repr

/-- A command of a window that reads a protected word: the window, and what the check of the word shows. -/
structure CheckedCommand where
  w   : Nat
  ecc : Ecc
  deriving DecidableEq, Repr

/-- A token-line frame as the instance receives it (Table 19-1). -/
structure TklFrame where
  ver       : BitVec 3
  bcast     : Bool
  dst       : BitVec 5
  op        : BitVec 6
  seq       : BitVec 8
  arg       : BitVec 24
  wdata     : BitVec 64
  crcQ      : BitVec 32
  rspSeq    : BitVec 8
  rspStatus : BitVec 8
  rdata     : BitVec 64
  crcR      : BitVec 32
  deriving DecidableEq, Repr

/-- A READ on the token line, and what the check of the word shows (R354). -/
structure CheckedFrame where
  frame : TklFrame
  ecc   : Ecc
  deriving DecidableEq, Repr

/-- The commands. `w` is a command window, 0-15 for the tenants and 16 for Root; `n` a station;
`t` a track; `p` a partition; `sid` a siding; `be` the byte enables of a register write. -/
inductive Instr where
  -- resets, supplies and start-up
  | porstAssert
  | porstRelease
  | fuseWordSample (data : BitVec 32)
  | meterReady
  | firmwareBootComplete
  | startupSelftestComplete (r : BistResult)
  | stationEnumTokenReturn (count : BitVec 7)
  | blkRstAssert
  | blkRstRelease
  | mtrRstAssert
  | mtrRstRelease
  | stnRstAssert (n : Nat)
  | stnRstRelease (n : Nat)
  | vioStnOff (n : Nat)
  | vioStnOn (n : Nat)
  | vqOff
  | vqOn
  | wrapperInstructionUpdate (code : BitVec 8)
  -- time and epochs
  | timeAdvance (timeNs : BitVec 64) (valid : Bool)
  | timeValidFall
  | holdoverExpire
  | ppsEdge
  | fsyncEdge (stream : Nat)
  | syntheticMasterEdge
  | internalMasterEdge
  | upperTimeMessage
  | epochBoundary
  | epochStatusClose
  | governorRefill
  | rateMonitorMeasure (rate : BitVec 8) (vqMv : Nat) (tjC : Int)
  -- stations
  | stationDelayMeasured (n : Nat) (delay : BitVec 16)
  | stationEdge (n : Nat) (stamp : Nat) (inp : StnInputs)
  | deltaBankTimer (n : Nat)
  | deltaBankHandoverEnd (n : Nat) (badParity : List Nat)
  | stationRecordHandover (n : Nat) (ecc : Ecc)
  | lineClearToken (n : Nat)
  | stationPark (n : Nat)
  | stationUnpark (n : Nat) (stamp : Nat)
  | stationFail (n : Nat)
  | stnViewSelRead (n : Nat)
  -- Junction, Marshalling Yard
  | operandBeatDeliver (n : Nat) (ecc : Ecc)
  | junctionRelease
  | internalRecordOverdue (src : Nat)
  | mydRecordDeliver (ecc : Ecc)
  | payloadClose (stream : Nat)
  -- Ledger and meter tap
  | ledgerDeltaApply (n : Nat) (ecc : PairEcc)
  | ledgerPatrol (index : Nat) (ecc : Ecc)
  | sweepTraverseStart
  | sweepWordVisit (ecc : Ecc)
  | snapshotTimeout (slot : Nat)
  | tallyDeltaAdd (n : Nat) (ecc : Ecc)
  | tallyLatch
  -- Sidings
  | sidingWordWrite (sid : Nat)
  | sidingItemClose (sid : Nat)
  | sdgPop (page : Nat) (slot : Nat) (corrected lost : List Nat)
  | drainItemWrite (sid : Nat) (corrected lost : List Nat)
  | sdgFlushComplete (sid : Nat)
  -- memory port
  | memCmdIssue (job : Nat)
  | memWriteBeat
  | memReadBeat (id : BitVec 8) (data : BitVec 1024) (last : Bool) (err : Bool)
  | memWriteResponse (id : BitVec 8) (err : Bool)
  | memTimeout (id : BitVec 8)
  | portClockStall (port : Nat)
  -- export port
  | exportFrameStart (lane : Nat) (corrected lost : List Nat)
  | exportBeatAccept (lane : Nat)
  | exportEofAccept (lane : Nat)
  | exportAbortAccept (lane : Nat)
  | sessionEndClock (owner : Nat)
  -- checking
  | epochPreparation
  | frameWindowOpen (slot : Nat)
  | frameWindowClose (slot : Nat)
  | workItemStart (t : Nat)
  | chunkDecryptComplete (t : Nat) (ecc : Ecc)
  | trackPassEnd (t : Nat) (check : PassCheck)
  | knownAnswerTileEnd (t : Nat) (ok : Bool)
  | sequencerWatchdog (t : Nat)
  | sampleSetCommit (t : Nat) (ecc : Ecc)
  | verdictDeadline
  -- Pilot and Weighbridge
  | pilotReadyTime (stream : Nat)
  | pilotFrameStart (t : Nat)
  | pilotFrameJudge (stream : Nat)
  | pilotOverrun (stream : Nat)
  | statisticsClose
  -- command windows
  | commandWindowWrite (w : Nat) (word : BitVec 64) (be : BitVec 8)
  | packetDiscardTimeout (w : Nat)
  | packetAbandon (w : Nat)
  | unknownOp (w : Nat)
  | nop (w : Nat)
  | readVersion (w : Nat)
  | commit (w : Nat)
  | commitHeldResume
  | govSet (w : Nat)
  | epochSet (w : Nat)
  | partCreate (w : Nat)
  | partDetach (w : Nat)
  | detachScrubStart (p : Nat)
  | detachComplete (p : Nat)
  | windowSet (w : Nat)
  | grant (w : Nat)
  | stnConfig (w : Nat)
  | stnTagmap (w : Nat)
  | stnThresh (w : Nat)
  | stnSnoopwin (w : Nat)
  | ldgRead (w : Nat) (ecc : Ecc)
  | ldgReadPair (w : Nat) (ecc : PairEcc)
  | ldgChain (w : Nat)
  | ldgSnapcfg (w : Nat)
  | ldgClear (w : Nat)
  | ldgUreadData (p : Nat) (ecc : Ecc)
  | ldgUreadPairLo (p : Nat) (ecc : PairEcc)
  | sdgCreate (w : Nat)
  | sdgMark (w : Nat)
  | sdgRewind (w : Nat)
  | sdgRelease (w : Nat)
  | sdgFlush (w : Nat)
  | sdgLevel (w : Nat)
  | sdgWatermark (w : Nat)
  | planLoad (w : Nat)
  | planArm (w : Nat)
  | planDisarm (w : Nat)
  | coverSet (w : Nat)
  | pltLoad (w : Nat)
  | pltZones (w : Nat)
  | pltArm (w : Nat)
  | wbrConfig (w : Nat)
  | sessionOpen (w : Nat)
  | sessionClose (w : Nat)
  | bundleUnwrap (w : Nat)
  | sbxConfig (w : Nat)
  | sbxReadrec (w : Nat)
  | sbxClear (w : Nat)
  | reactSet (w : Nat)
  | mtrRead (c : CheckedCommand)
  | mtrEvidence (c : CheckedCommand)
  | mtrMap (w : Nat)
  | ttbSet (w : Nat)
  | inject (w : Nat)
  | selftest (w : Nat)
  | selftestDone (hashOk : Bool) (decryptOk : BitVec 4) (entropyRaw : BitVec 1024)
  | qWriteApply (k : Nat)
  -- register reads with an effect, entropy
  | ilkPintRc (p : Nat)
  | ilkRintRc
  | entropyBlock (raw : BitVec 1024)
  -- Signal Box
  | sbxOccurrenceReceive
  | quietPeriodExpire (slot : Nat)
  | cQuietExpire
  | heartbeatToggle
  | faultClassIntermediateEnd
  | conductorWatchdogExpire (pair : Nat)
  | lockstepMiscompare (pair : Nat)
  | sbxSelfCheckMiscompare
  -- Sealed Meter
  | sealOpen
  | sealClose
  | meterClosingRetry
  | meterCoreStall
  | mtrMapWrite (t : Nat) (word : BitVec 64) (be : BitVec 8)
  | ttbCfgWrite (word : BitVec 64) (be : BitVec 8)
  | mtrImgCtlBegin (word : BitVec 64) (be : BitVec 8)
  | mtrImgDataWrite (word : BitVec 64) (be : BitVec 8)
  | registerWriteOther (addr : BitVec 22) (word : BitVec 64) (be : BitVec 8)
  -- token line
  | tklFrameForward (f : TklFrame)
  | tklNop (f : TklFrame)
  | tklEnum (f : TklFrame) (tokenIn : Bool)
  | tklRead (c : CheckedFrame)
  | tklReadCnt (f : TklFrame) (ecc : PairEcc)
  | tklReadCntHi (f : TklFrame)
  | tklWrite (f : TklFrame)
  | tklWritePartCreate (f : TklFrame)
  | tklWritePartDetach (f : TklFrame)
  | tklWriteMirror (f : TklFrame)
  | tklWriteWindow (f : TklFrame)
  | tklWriteSdgCreate (f : TklFrame)
  | tklWriteSdgFree (f : TklFrame)
  | tklWriteStnViewSel (f : TklFrame)
  | tklTake (f : TklFrame)
  | tklGive (f : TklFrame)
  | tklForce (f : TklFrame)
  | tklRelease (f : TklFrame)
  | tklCommit (f : TklFrame)
  | tklClearRec (f : TklFrame)
  | tklSetver (f : TklFrame)
  | takeoverLeaseExpire
  deriving DecidableEq, Repr

end Sys2Proof
end

