-- ==== Sys2Proof/Decode.lean ====
section
/-! DEFINITION. The commands that a word spells by the bits of the table of operations and events: no row
of that table gives any bits, so no word spells a command. -/

namespace Sys2Proof

/-- The command that the `nbits` bits `w` spell: none, since the table gives no row any bits. A command
packet is data that COMMAND_WINDOW_WRITE carries (R254). -/
def decodeTableWord (_nbits _w : Nat) : Option Instr := none

end Sys2Proof
end

