-- ==== Sys2Proof/Machine/State.lean ====
section
/-! DEFINITION. The state of the Zufen block: everything the spec gives it, subsystem by subsystem, as
plain data, the queue of waiting commands, and the state after reset.

Owners are numbers: 0-15 a tenant partition, 16 Root. Times are ns of block time (R73). Configuration
registers are whole 64-bit words in their clamped form; counters of status registers are numbers. -/

namespace Sys2Proof.Machine

/-- Reasons for which a step could stop the block. The spec gives every command of the table an
effect, and an event whose condition does not hold has none, so there is no such reason: nothing
raises a fault, which is safe. -/
inductive Fault where
  deriving DecidableEq, Repr

/-- Commands the model has no meaning for. -/
inductive Refusal where
  /-- Raised by an arm of exec that has no meaning yet. Safe: the run stops there. -/
  | notModelled (mnemonic : String)
  deriving DecidableEq, Repr

/-! ## Instance parameters -/

/-- Wrapper parameters of one instance (R27, R37, R340, R365). No command changes them. -/
structure Params where
  nStn          : Nat
  accTapEn      : BitVec 64
  expMaxPayload : Nat
  bootBase      : Nat
  deriving DecidableEq, Repr

/-! ## Occurrences and records -/

/-- What the event of a verdict, or of a Pilot frame, carries (R218, R238). -/
inductive OutcomeEvent where
  | verdict (code : Nat) (differs : Bool) (stream slot owner station layer epoch : Nat)
  | pilot (result implausible stream station owner : Nat)
  deriving DecidableEq, Repr

/-- One occurrence handed to the Signal Box (R300): its cause, its own class (0 for an outcome), its
detail and detection time, the reaction rows that an outcome selects, and its owner (R302). -/
structure Occurrence where
  sub       : Nat
  cause     : Nat
  engine    : Nat
  cls       : Nat
  detail    : Nat
  time      : Nat
  rows      : List Nat
  outcome   : Bool
  injected  : Bool
  forced    : Bool
  owner     : Nat
  ctxs      : List Nat
  event     : Option OutcomeEvent
  /-- subsystem and engine of the fault in whose containment it arose (R305) -/
  arises    : Option (Nat × Nat)
  deriving DecidableEq, Repr

/-- Where one copy of a released record goes: its stream, the siding in full form, the export session,
the compact form and the trailer, as configured at the record's position (R116, R123, Table 06-15). -/
structure Dest where
  stream  : Nat
  siding  : Option Nat
  exp     : Bool
  comp    : Bool
  trailer : Bool
  deriving DecidableEq, Repr

/-- A trace record before the Marshalling Yard forms its copies (R119, R120). `body` holds words 2 up;
`own` is the epoch that R69 assigns by the record's own field; `owner` the partition an internal record
belongs to; `ctx` the context of a station record or of the engine at detection, and `ctxs` the contexts
that the station of a LOSS record used (R122). `key` orders the internal records of one source that have
one timestamp. The release fills `timing` and `dests`. -/
structure Rec where
  type     : Nat
  ts       : Nat
  key      : Nat
  src      : Nat
  seq      : Nat
  station  : Nat
  specific : Nat
  body     : List Word
  trailer  : Option Word
  injected : Bool
  timing   : Bool
  ctx      : Nat
  owner    : Nat
  ctxs     : List Nat
  own      : Option Nat
  dests    : List Dest
  deriving DecidableEq, Repr

/-! ## Timetable -/

/-- Time states (Table 04-1). -/
inductive TimeState where
  | freerun
  | locked
  | slewing
  | holdover
  deriving DecidableEq, Repr

/-- Kind of the edge that opens an epoch (Table 04-7). -/
inductive EdgeKind where
  | real
  | internal
  | synthetic
  | restart
  deriving DecidableEq, Repr

/-- A boundary announced to the stations (R83): its time, the stamp of its edge, the edge's kind, and whether
a forward step is announced with it (R75). -/
structure Boundary where
  t    : Nat
  edge : Nat
  kind : EdgeKind
  step : Bool
  deriving DecidableEq, Repr

/-- Status of one epoch for R69, R70 and R219. -/
structure EpochStat where
  epoch     : Nat
  openedAt  : Nat
  closedAt  : Option Nat
  loss      : Bool
  late      : Bool
  fault     : Bool
  emitted   : Bool
  final     : Bool
  told      : Bool
  lastDue   : Nat
  planned   : Nat
  received  : Nat
  firstGen  : Nat
  lastGen   : Nat
  switchKey : Option (Nat × Nat × Nat)
  awaitKey  : Bool
  fp        : Nat
  /-- time_state, stepped and boundary_kind of its EPO record (Table 06-14 W5 [63:59]) -/
  quality   : Nat
  deriving DecidableEq, Repr

structure Timetable where
  time          : Nat
  acc           : Nat
  state         : TimeState
  timeValid     : Bool
  timeNs        : Nat
  ppsAt         : Option Nat
  freqCorr      : Int
  offset        : Int
  cfg           : Word
  stepCount     : Nat
  ppsErr        : Nat
  early         : Nat
  synth         : Nat
  stepWait      : Bool
  /-- a valid time has been seen since PORST_N (R74) -/
  everValid     : Bool
  holdoverAt    : Nat
  /-- phase error still to be slewed out in HOLDOVER, in units of 1/(tclk_mhz x 10^9) ns (R77) -/
  ppsPhase      : Int
  /-- a first epoch boundary has passed since PORST_N (R74) -/
  anyBoundary   : Bool
  epoch         : Nat
  /-- an epoch number has been issued since PORST_N (R84) -/
  anyEpoch      : Bool
  running       : Bool
  /-- epoch_en has applied and the first boundary is still to come (R364) -/
  armed         : Bool
  /-- TTB_EPOCH_CFG of the generation in force, and the settings by which master edges are judged (R84) -/
  epochCfg      : Word
  eff           : Word
  epochT        : Nat
  /-- block time right after the last forward step (R75) -/
  stepTo        : Nat
  /-- T and number of the first boundary since epochs last started -/
  startT        : Nat
  startEpoch    : Nat
  openedKind    : EdgeKind
  openedStepped : Bool
  worst         : TimeState
  synthRun      : Nat
  /-- base of the timeout of R82 -/
  prevMaster    : Option Nat
  /-- previous accepted or synthetic master edge (R81) -/
  lastAccepted  : Option Nat
  /-- previous real master edge with no synthetic edge and no step since (R82, R75) -/
  lastReal      : Option Nat
  interval      : Option Nat
  edgeCount     : Nat
  announced     : Option Boundary
  lastEdge      : Nat
  frameNext     : List Nat
  frameStamp    : List (Option Nat)
  upper         : Nat
  upperAt       : Nat
  stats         : List EpochStat
  deriving DecidableEq, Repr

/-! ## Probe stations -/

structure SnoopWin where
  base  : Word
  limit : Word
  ctl   : Word
  row   : Word
  col   : Word
  deriving DecidableEq, Repr

/-- One delta, or an end-of-epoch mark (`mark`), on its way from a bank to the meter tap and the Ledger.
`lost` carries a count-lost marking instead of a count (R133). -/
structure Delta where
  ctx   : Nat
  ev    : Nat
  count : Nat
  epoch : Nat
  mark  : Bool
  lost  : Bool
  deriving DecidableEq, Repr

/-- A delta bank (R89): its labels, when it became active, its non-zero deltas, and whether it carries
the end-of-epoch mark (R131). -/
structure Bank where
  ctx    : Nat
  epoch  : Nat
  since  : Nat
  deltas : List (Nat × Nat)
  mark   : Bool
  /-- count-lost markings that follow its deltas (R92, R131) -/
  lost   : List Delta
  deriving DecidableEq, Repr

/-- Station states (Table 05-11). -/
inductive StnState where
  | notEnum
  | running
  | parked
  | failed
  deriving DecidableEq, Repr

/-- The drops of a station not yet reported by a LOSS record (R101, R102). -/
structure Drops where
  trace      : Nat
  operand    : Nat
  firstSeq   : Nat
  firstStamp : Nat
  lastStamp  : Nat
  deriving DecidableEq, Repr

/-- A dropped beat of a gap marker (R101): its offset or beat index, its stamp, the row_pitch of its window at its
edge, and the tap runs begun, as an accumulator beat carries them. -/
structure GapBeat where
  offset : Nat
  stamp  : Nat
  pitch  : Nat
  starts : List (Nat × Nat)
  deriving DecidableEq, Repr

/-- An item of the operand region (R98, R99, R101): a snoop beat with the row_pitch of its window at its edge
(R97), an accumulator beat with the tap runs begun since the item before (ctx and stamp of each beat of index 0,
masked ones among them: R99, R202), or a gap marker that names a window and the dropped beats. -/
inductive OpItem where
  | snoop (stamp ctx win : Nat) (addr : BitVec 48) (offset pitch : Nat) (attr : BitVec 8) (data : BitVec 512)
      (checker wbr pilot : Bool)
  | acc (stamp ctx index : Nat) (starts : List (Nat × Nat)) (data : BitVec 1024)
  | gap (ctx win : Nat) (beats : List GapBeat) (checker wbr pilot : Bool)
  deriving DecidableEq, Repr

structure Station where
  cfg        : Word
  evselLo    : Word
  evselHi    : Word
  accFilt    : Word
  tagmap     : List Word
  thresh     : List Word
  win        : List SnoopWin
  addressed  : Bool
  st         : StnState
  inReset    : Bool
  vioOff     : Bool
  /-- measuring edges left and the events noted at them (R88) -/
  measuring  : Option (Nat × BitVec 512)
  pathDelay  : Nat
  flushInc   : Bool
  curCtx     : Nat
  curTag     : Nat
  /-- contexts used in the current epoch (R122) -/
  used       : List Nat
  tagTaken   : Bool
  lostTrace  : Nat
  lostOp     : Nat
  ctxOverrun : Nat
  eccCorr    : Nat
  eccUncorr  : Nat
  parkCount  : Nat
  seq        : Nat
  lastStamp  : Nat
  prevEv     : BitVec 512
  accIndex   : Nat
  /-- tap runs begun that no item of the operand region has carried yet: ctx and stamp (R202) -/
  accStarts  : List (Nat × Nat)
  active     : Bank
  vacated    : List Bank
  /-- a context change that waits for an empty bank (R92) -/
  lateCtx    : Option Nat
  /-- deltas, losses and end-of-epoch marks handed over and on the link -/
  link       : List Delta
  trace      : List Rec
  op         : List OpItem
  dropTrace  : Bool
  dropOp     : Bool
  drops      : Option Drops
  tLc        : Nat
  tokenDue   : Bool
  lastHand   : Nat
  /-- when the Junction last took the last record of its input from the station (R105) -/
  clearAt    : Nat
  lastEdge   : Nat
  quiet      : Nat
  /-- the station has left the parked state or reset and still owes the discards of R102 -/
  resumes    : Bool
  deriving DecidableEq, Repr

/-! ## Junction and Marshalling Yard -/

/-- A record that an internal source owes (R113): its source, due time, a key that names it, and
whether it has been counted as held past its due time. -/
structure Owed where
  src     : Nat
  due     : Nat
  key     : Nat
  counted : Bool
  deriving DecidableEq, Repr

structure Junction where
  cfg        : Word
  stnIn      : List (List Rec)
  intIn      : List (List Rec)
  intSeq     : List Nat
  owed       : List Owed
  overrun    : Nat
  released   : Nat
  /-- the next released record's key goes into ILK_SWITCH (R278) -/
  switchWait : Bool
  /-- tracks at which each station's checker beats arrive (R118) -/
  route      : List Nat
  deriving DecidableEq, Repr

/-- An open payload of a stream (R340). -/
structure Payload where
  bytes   : List Byte
  firstTs : Nat
  lastTs  : Nat
  count   : Nat
  openAt  : Nat
  deriving DecidableEq, Repr

structure Stream where
  cfg     : Word
  /-- deterministic records since the stream's last EPO (Table 06-14 W9) -/
  count   : Nat
  payload : Option Payload
  deriving DecidableEq, Repr

structure Yard where
  inq     : List Rec
  streams : List Stream
  deriving DecidableEq, Repr

/-! ## Ledger -/

/-- A Ledger word (Table 07-2) but for its swept bit, which the sweep gives. -/
structure LWord where
  count : BitVec 48
  lost  : Bool
  ovf   : Bool
  chain : Bool
  owner : BitVec 4
  deriving DecidableEq, Repr

/-- Ledger configuration of an epoch (R132): the chain map and the snapshot slots. -/
structure LCfg where
  chain : List Word
  addr  : List Word
  ctl   : List Word
  deriving DecidableEq, Repr

/-- One snapshot in progress (R137, R139, R140). `entries` are the written entries by index. -/
structure Snap where
  slot    : Nat
  owner   : Nat
  epoch   : Nat
  t       : Nat
  base    : Nat
  mask    : BitVec 32
  entries : List (Nat × Word)
  lost    : Bool
  ovf     : Bool
  issued  : Bool
  pending : Nat
  done    : Bool
  withdrawn : Bool
  sent    : Bool
  deriving DecidableEq, Repr

/-- The sweep at a boundary (R137): what is cleared, the chain map before it, the words taken early by
updates, and how far the traverse has come. -/
structure Sweep where
  t        : Nat
  epoch    : Nat
  clear    : BitVec 32
  oldChain : List Word
  taken    : List Nat
  started  : Bool
  pos      : Nat
  owners   : List Nat
  deriving DecidableEq, Repr

structure Ledger where
  words      : List (Nat × LWord)
  ctx        : List Word
  cfg        : LCfg
  eff        : LCfg
  clearReq   : BitVec 32
  phase      : Bool
  sweep      : Option Sweep
  snaps      : List Snap
  withdrawn  : Nat
  lastEpoch  : Nat
  eccCorr    : Nat
  eccUncorr  : Nat
  lateDelta  : Nat
  lastBank   : Nat
  inq        : List (List Delta)
  marks      : BitVec 64
  userSel    : List Word
  userHi     : List Word
  deriving DecidableEq, Repr

/-! ## Sidings -/

/-- Kinds of items (Table 08-2). -/
inductive ItemKind where
  | record
  | completion
  | payload
  | filler
  deriving DecidableEq, Repr

/-- An item that a producer delivers to a siding: the fields of its length word and its content. -/
structure ProdItem where
  kind  : ItemKind
  src   : Nat
  seq   : Nat
  words : List Word
  deriving DecidableEq, Repr

/-- What a sender is told: window, sequence, opcode, reply bit, and whether it is a final completion.
`tkl` marks a request of the token line, which gets no completion record (R356). -/
structure Ticket where
  w      : Nat
  seq    : Nat
  op     : Nat
  reply  : Bool
  later  : Bool
  tkl    : Bool
  deriving DecidableEq, Repr

/-- A flush that has not completed (R157): its flush point, the words from rel_ptr to it, and the words
released or discarded since the command. A second flush waits unapplied. -/
structure Flush where
  ticket  : Ticket
  discard : Bool
  point   : Nat
  left    : Nat
  moved   : Nat
  applied : Bool
  deriving DecidableEq, Repr

structure Siding where
  /-- 0 free, 1 live, 2 faulted, 3 scrubbing (Table 08-7) -/
  state     : Nat
  consumer  : Nat
  producer  : Nat
  autoRel   : Bool
  owner     : Nat
  sizeCode  : Nat
  slot      : Nat
  base      : Nat
  itemOpen  : Bool
  itemStart : Nat
  wr        : Nat
  markValid : Bool
  markLost  : Bool
  mark      : Nat
  rd        : Nat
  rel       : Nat
  intEn     : Bool
  intLevel  : Nat
  wmEn      : Bool
  hi        : Nat
  lo        : Nat
  xoff      : Bool
  eccCorr   : Nat
  eccUncorr : Nat
  withdrawn : Nat
  framing   : Nat
  underrun  : Nat
  faultDisc : Nat
  memBase   : Nat
  memSize   : Nat
  memWr     : Nat
  memRd     : Nat
  /-- items that the producer is delivering, the first one in progress -/
  prodq     : List ProdItem
  /-- content words of the open item already stored -/
  stored    : Nat
  /-- the open item was closed by a flush; its remaining words are discarded (R158) -/
  abandoned : Bool
  flushes   : List Flush
  /-- words of a replacement still to be delivered on the read path (R160) -/
  replay    : List Word
  /-- content words between rel_ptr and the next length word -/
  relLeft   : Nat
  /-- a drain or export transfer is in flight -/
  inFlight  : Bool
  /-- the stream whose records it received last (Table 08-4) -/
  stream    : Nat
  drainEnd  : Nat
  lastRecTs : Nat
  deriving DecidableEq, Repr

structure Sidings where
  desc : List Siding
  pool : List (Nat × Word)
  deriving DecidableEq, Repr

/-! ## Tracks and Tensor Checker -/

/-- A lane-map entry (Table 10-4). -/
structure LaneMap where
  station   : Nat
  transpose : Bool
  nLanes    : Nat
  nCols     : Nat
  aY        : Nat
  aX        : Nat
  lOff      : Nat
  bC        : Nat
  cOff      : Nat
  deriving DecidableEq, Repr

/-- A tensor descriptor (Table 10-6). -/
structure Desc where
  window   : Nat
  ordinal  : Nat
  rowPitch : Nat
  addr     : Nat
  deriving DecidableEq, Repr

/-- A layer entry (Table 10-5), clamped. -/
structure Layer where
  layer      : Nat
  kind       : Nat
  skipReason : Nat
  station    : Nat
  ctx        : Nat
  lanemap    : Nat
  kernel     : Nat
  stride     : Nat
  pad        : Nat
  opTypes    : Nat
  accMode    : Nat
  rndMode    : Nat
  outType    : Nat
  hOut       : Nat
  wOut       : Nat
  cIn        : Nat
  cOut       : Nat
  zpA        : Int
  zpW        : Int
  zpB        : Int
  padValue   : Int
  zpOut      : Int
  clampLo    : Int
  clampHi    : Int
  mA         : Int
  mB         : Int
  wChunk     : Nat
  wChunks    : Nat
  tapBias    : Bool
  tChunk     : Nat
  descA      : Desc
  descB      : Desc
  descO      : Desc
  deriving DecidableEq, Repr

/-- A checked plan (Table 10-3). -/
structure Plan where
  planId   : Nat
  stream   : Nat
  lagUs    : Nat
  bundle   : Nat
  totalLen : Nat
  lanemaps : List LaneMap
  layers   : List Layer
  digest   : List Byte
  deriving DecidableEq, Repr

structure PlanSlot where
  /-- 0 empty, 1 loaded, 2 armed (Table 10-10) -/
  state    : Nat
  deferred : Bool
  /-- a PLAN_LOAD that has issued and not completed -/
  loading  : Bool
  owner    : Nat
  plan     : Option Plan
  deriving DecidableEq, Repr

/-- One sample set of a layer (R196, R206): its number and its output position (raster index). `lost` is
the reason why an operand is missing: 0 none, 1 gap marker, 2 not arrived, 3 track lost, 4 no station,
5 activation SRAM full (Table 11-7). `held` is its record while its due time is not yet known. -/
structure Sample where
  num      : Nat
  pos      : Nat
  done     : Bool
  lost     : Nat
  held     : Option Rec
  deriving DecidableEq, Repr

/-- A beat that a track holds for a work item: descriptor role (0 a, 1 b, 2 o), beat offset, data. -/
structure HeldBeat where
  role   : Nat
  offset : Nat
  stamp  : Nat
  data   : BitVec 512
  deriving DecidableEq, Repr

/-- A tap beat of a kind 0x05 run (R202). -/
structure TapBeat where
  index : Nat
  stamp : Nat
  data  : BitVec 1024
  deriving DecidableEq, Repr

/-- A work item (R206): the sample sets of one armed layer in one frame window on one track. -/
structure WorkItem where
  id       : Nat
  slot     : Nat
  layerIx  : Nat
  layer    : Layer
  plan     : Nat
  owner    : Nat
  stream   : Nat
  bundle   : Nat
  window   : Nat
  nf       : Nat
  epoch    : Nat
  track    : Nat
  samples  : List Sample
  /-- kind 0x05: the positions of the tap run that acc_mask delivers whole (R202) -/
  run      : List Nat
  /-- beat offsets of element (0, 0, 0) of the tensors a, b, o within their windows -/
  org      : List Nat
  need     : List (Nat × Nat)
  beats    : List HeldBeat
  /-- needed beats that will not come: role, offset, reason -/
  gone     : List (Nat × Nat × Nat)
  taps     : List TapBeat
  /-- the tap run that belongs to the layer has begun, and has ended -/
  tapOn    : Bool
  tapEnd   : Bool
  due      : Option Nat
  obs      : Nat
  /-- 0 gathering, 1 ready, 2 fetching chunks, 3 running -/
  phase    : Nat
  /-- its chunks have been requested, or taken over from an item of its layer (R210) -/
  asked    : Bool
  chunks   : List (Nat × List Byte)
  /-- chunks read and not yet decrypted -/
  raw      : List (Nat × List Byte)
  fetch    : List Nat
  passes   : Nat
  deriving DecidableEq, Repr

/-- A frame window (R195). `counts` are arrivals by (station, window, ctx, offset). -/
structure FrameWin where
  id     : Nat
  slot   : Nat
  stream : Nat
  nf     : Nat
  epoch  : Nat
  /-- frame_lag of its plan, in ns -/
  lag    : Nat
  openAt : Nat
  closeAt : Option Nat
  opened : Bool
  closed : Bool
  counts : List ((Nat × Nat × Nat × Nat) × Nat)
  runs   : List ((Nat × Nat) × Nat)
  deriving DecidableEq, Repr

/-- The sampling decision of one epoch (R196-R200, R209). -/
structure EpochPlan where
  epoch    : Nat
  seed     : BitVec 64
  frac     : List Nat
  short    : List Bool
  inTracks : List Nat
  /-- per plan slot: the plan, whether armed, and per layer its quota and positions in draw order -/
  layers   : List (Nat × Nat × Nat × List Nat)
  skips    : List (Nat × Nat)
  reserve  : List Nat
  /-- filter masks that the epoch needs: station, window, rows, columns -/
  masks    : List (Nat × Nat × Nat × Nat)
  budget   : Nat
  share    : Nat
  /-- the coverage floor of its planning -/
  floor    : Nat
  /-- slot and place of every armed checkable layer, for the coverage result (R201) -/
  armed    : List (Nat × Nat)
  /-- space that beats of stations remapped in the epoch may take beside the reservation (R217) -/
  extra    : List Nat
  /-- the armed plans, for the coverage result -/
  plans    : List (Nat × Plan)
  /-- the coverage result has been written -/
  told     : Bool
  deriving DecidableEq, Repr

/-- A covered position: lane map owner slot, layer index, and output position or channel range. -/
structure Covered where
  epoch   : Nat
  slot    : Nat
  layerIx : Nat
  pos     : Nat
  deriving DecidableEq, Repr

structure Checker where
  cover     : Word
  slots     : List PlanSlot
  prep      : Option EpochPlan
  cur       : Option EpochPlan
  /-- sampling decisions of earlier epochs, newest first -/
  old       : List EpochPlan
  frac      : Word
  windows   : List FrameWin
  items     : List WorkItem
  /-- committed VRD records that wait for room in the store, with their keys (R220) -/
  waiting   : List (Nat × Rec)
  /-- layers that lost a chunk: epoch, slot, place (R183) -/
  badLayers : List (Nat × Nat × Nat)
  covered   : List Covered
  cov       : List Word
  nextId    : Nat
  passCnt   : Nat
  mismCnt   : Nat
  incCnt    : Nat
  lateCnt   : Nat
  skipCnt   : Nat
  wdrCnt    : Nat
  dropped   : Nat
  notArr    : Nat
  trackLost : Nat
  noStn     : Nat
  actFull   : Nat
  lastMm    : Word
  shortEp   : Nat
  shortCnt  : Nat
  deriving DecidableEq, Repr

structure Track where
  /-- 0 not started, 1 in service, 2 withdrawn, 3 in self-test (Table 09-9) -/
  state     : Nat
  cause     : Nat
  wdEpoch   : Nat
  actCorr   : Nat
  actUncorr : Nat
  wstCorr   : Nat
  wstUncorr : Nat
  retry     : Nat
  katEpoch  : Nat
  katDue    : Bool
  /-- steps of the known-answer tile still to run (R185) -/
  katLeft   : Nat
  clipLow   : Nat
  clipHigh  : Nat
  tagFail   : Nat
  slotValid : BitVec 8
  tokens    : Nat
  refills   : Nat
  busy      : Nat
  /-- the check that failed, while a pass of the work item, or of the Pilot frame, runs again (R184) -/
  retrying  : Option PassCheck
  frameRetry : Option PassCheck
  reread    : List Nat
  running   : Option Nat
  pilot     : Option Nat
  progress  : Nat
  /-- array steps of the present pass still to run (R64) -/
  left      : Nat
  deriving DecidableEq, Repr

/-! ## Pilot -/

/-- A Pilot layer entry (Table 12-3). -/
structure PLayer where
  op      : Nat
  srcA    : Nat
  srcB    : Nat
  kernel  : Nat
  stride  : Nat
  pad     : Nat
  zpOut   : Int
  hOut    : Nat
  wOut    : Nat
  cIn     : Nat
  cOut    : Nat
  clampLo : Int
  clampHi : Int
  wChunk  : Nat
  wChunks : Nat
  tChunk  : Nat
  deriving DecidableEq, Repr

structure PModel where
  bundle   : Nat
  inW      : Nat
  inH      : Nat
  inZp     : Nat
  headK    : Nat
  headS    : Nat
  actBytes : Nat
  thr      : List Int
  layers   : List PLayer
  steps    : Nat
  digest   : List Byte
  deriving DecidableEq, Repr

structure PSlot where
  deferred : Bool
  loading  : Bool
  owner    : Nat
  model    : Option PModel
  deriving DecidableEq, Repr

/-- One zone (Table 12-5). -/
structure Zone where
  verts   : List (Nat × Nat)
  classes : Nat
  mode    : Nat
  persist : Nat
  deriving DecidableEq, Repr

structure ZoneTab where
  zones  : List Zone
  digest : List Byte
  deriving DecidableEq, Repr

structure PStream where
  word    : Word
  owner   : Nat
  zones   : Option ZoneTab
  runs    : List Nat
  frame   : Nat
  deriving DecidableEq, Repr

/-- A Pilot frame (R228, R229): admitted or already known to be skipped. -/
structure PFrame where
  id      : Nat
  stream  : Nat
  frame   : Nat
  epoch   : Nat
  tf      : Nat
  tr      : Nat
  td      : Nat
  word    : Word
  owner   : Nat
  slot    : Nat
  track   : Option Nat
  start   : Nat
  finish  : Nat
  /-- the scheduler has decided it (R229) -/
  decided : Bool
  /-- the partition that loaded its bundle -/
  loader  : Nat
  need    : Nat
  beats   : List (Nat × BitVec 512)
  gone    : Bool
  ready   : Bool
  running : Bool
  finished : Bool
  chunks  : List (Nat × List Byte)
  raw     : List (Nat × List Byte)
  fetch   : List Nat
  host    : Option (Nat × Nat)
  steps   : Nat
  /-- its record has been formed; until its planned finish the frame still holds its place (R230) -/
  judged  : Bool
  /-- the model that it runs -/
  model   : Option PModel
  deriving DecidableEq, Repr

structure Pilot where
  models   : List PSlot
  streams  : List PStream
  frames   : List PFrame
  nextId   : Nat
  free     : List Nat
  judged   : Nat
  implaus  : Nat
  skBudget : Nat
  skSram   : Nat
  skInput  : Nat
  skOther  : Nat
  noHost   : Nat
  overrun  : Nat
  deriving DecidableEq, Repr

/-! ## Weighbridge -/

/-- Measures of one entry and epoch (R245, R246). -/
structure Meas where
  entry   : Nat
  epoch   : Nat
  samples : Nat
  missing : Nat
  nLow    : Nat
  nHigh   : Nat
  nZero   : Nat
  absMax  : Nat
  hist    : List Nat
  deriving DecidableEq, Repr

/-- Sampled accumulator range of a station, window and ctx (as `selPlace` numbers them) from frame windows opened
in an epoch (R246). -/
structure AccRange where
  place : Nat
  epoch : Nat
  lo    : Int
  hi    : Int
  deriving DecidableEq, Repr

/-- An STS record whose sampled range is still open (R246): its due epoch, its entry, its words so far. -/
structure OwedSts where
  epoch    : Nat
  entry    : Nat
  place    : Nat
  station  : Nat
  due      : Nat
  ctx      : Nat
  specific : Nat
  body     : List Word
  deriving DecidableEq, Repr

/-- The statistics of an ended epoch until they close (R247): the entries and the ctx owners as they were
at T(e+1). -/
structure StatsEnd where
  epoch   : Nat
  closeAt : Nat
  owners  : List Nat
  sel     : List Word
  q       : List Word
  deriving DecidableEq, Repr

structure Weigh where
  sel       : List Word
  q         : List Word
  meas      : List Meas
  ranges    : List AccRange
  runSat    : List Nat
  runUnder  : List Nat
  sat       : BitVec 64
  under     : BitVec 64
  lateElems : Nat
  satEv     : Nat
  underEv   : Nat
  toClose   : List StatsEnd
  owedSts   : List OwedSts
  deriving DecidableEq, Repr

/-! ## Interlocking -/

/-- Its contexts, key slots, session and completion siding stand with their owners: the Ledger, the decrypt
stages, the export engine and the Dispatcher. -/
structure Part where
  /-- 0 free, 1 live, 2 detaching, 3 scrubbing (Table 15-1) -/
  state    : Nat
  mirror   : Bool
  pint     : BitVec 3
  deriving DecidableEq, Repr

/-- A detach in progress (Table 15-7). -/
structure Detach where
  p        : Nat
  ticket   : Ticket
  /-- block time of step 2, once its switch-over point has come -/
  at_      : Option Nat
  tdDone   : Bool
  /-- T_d, once it has passed -/
  td       : Option Nat
  snapOk   : Option Bool
  mask     : BitVec 32
  scrub    : Bool
  scrubEnd : Bool
  failed   : Bool
  deriving DecidableEq, Repr

/-- A change of the partition table (R278). -/
inductive TableChange where
  | create (p mask compl : Nat)
  | mirror (p : Nat) (on : Bool)
  | detach (p : Nat)
  | scrub (p : Nat)
  | free (p : Nat)
  deriving DecidableEq, Repr

structure Window where
  base : Word
  size : Word
  deriving DecidableEq, Repr

/-- A key slot of the decrypt stages (R182): the bundle, its key and its owner. -/
structure KeySlot where
  bundle : Nat
  key    : List Byte
  owner  : Nat
  deriving DecidableEq, Repr

/-- The device identity (R286). -/
structure Identity where
  d        : Nat
  qx       : Nat
  qy       : Nat
  deviceId : List Byte
  deriving DecidableEq, Repr

structure Interlock where
  parts      : List Part
  win        : List (List Window)
  refused    : List Nat
  lastAddr   : List Nat
  rint       : BitVec 4
  unobs      : BitVec 64
  serial     : Nat
  switchTs   : Nat
  switchSrc  : Nat
  switchSeq  : Nat
  detaches   : List Detach
  /-- table changes that wait for a switch-over point of their own (R278) -/
  changes    : List TableChange
  scrubActive : Bool
  scrubPart  : Nat
  scrubFail  : Nat
  trng       : Nat
  rctFails   : Nat
  aptFails   : Nat
  blocks     : Nat
  /-- output that no unit has drawn yet -/
  entropy    : List Byte
  /-- the last raw bit and the length of its run, for the repetition count test -/
  rctRun     : Option (Bool × Nat)
  identity   : Option Identity
  fuses      : List (BitVec 32)
  rootKey    : List Byte
  testState  : Bool
  /-- contexts fresh from Root (R277) -/
  fresh      : BitVec 32
  keys       : List (Option KeySlot)
  deriving DecidableEq, Repr

/-! ## Dispatcher -/

/-- A packet (R257). -/
structure Packet where
  words : List Word
  deriving DecidableEq, Repr

/-- The packet that a window is assembling, or the refused packet it is discarding (R255). -/
structure Assembly where
  need  : Nat
  words : List Word
  t0    : Nat
  drop  : Bool
  deriving DecidableEq, Repr

structure CmdWin where
  isOpen    : Bool
  compl     : Nat
  refused   : Nat
  lostRep   : Nat
  abandoned : Nat
  ready     : List Packet
  asm       : Option Assembly
  /-- completions that the window still owes: long commands and DEFERRED writes (R264) -/
  owes      : Nat
  /-- the long commands among them (R262) -/
  longs     : Nat
  deriving DecidableEq, Repr

/-- A held Q-class write (R267): who sent it and the packet that is applied. -/
structure HeldQ where
  ticket : Ticket
  words  : List Word
  unit   : Nat
  deriving DecidableEq, Repr

/-- An E-class write (R266). Each carries the whole register words it writes. -/
inductive EWrite where
  | epochCfg (w : Word)
  | govBudget (rate : Nat)
  | stnCfg (n : Nat) (cfg evLo evHi acc : Word)
  | stnReg (n : Nat) (off : Nat) (w : Word)
  | ldgChain (i : Nat) (set clr : Word)
  | ldgSnap (slot : Nat) (addr ctl : Word)
  | ldgClear (mask : BitVec 32)
  | planArm (slot : Nat)
  | planDisarm (slot : Nat)
  | cover (w : Word)
  | zones (stream : Nat) (z : ZoneTab)
  | pltStream (stream : Nat) (w : Word) (owner : Nat)
  | pltDue (ms : Nat)
  | wbrSel (i : Nat) (w : Word)
  | wbrQ (i : Nat) (w : Word)
  | myd (s : Nat) (mask val : Word)
  deriving DecidableEq, Repr

/-- What follows when the firmware image of a slot has been read (R365). -/
structure Boot where
  /-- 0 in ROM, 1 firmware runs, 2 failed (Table 20-10) -/
  state   : Nat
  slot    : Nat
  failA   : Nat
  failB   : Nat
  bootUs  : Nat
  started : Nat
  header  : List Byte
  code    : List Byte
  /-- 0 no image read in progress, 1 header, 2 code, 3 read, 4 read failed -/
  phase   : Nat
  deriving DecidableEq, Repr

structure Bist where
  done      : Bool
  blocking  : Bool
  words     : Nat
  sbxOk     : Bool
  trngOk    : Bool
  condOk    : BitVec 2
  decFail   : BitVec 4
  arrFail   : BitVec 4
  deriving DecidableEq, Repr

structure Dispatcher where
  wins       : List CmdWin
  /-- where the round of R260 stands: 0 Root, 1-16 P0-P15 -/
  round      : Nat
  activeGen  : Nat
  pending    : List EWrite
  frozen     : List EWrite
  fp         : List Byte
  takeover   : Bool
  commitHeld : Option Ticket
  heldQ      : List HeldQ
  fwVersion  : Nat
  fwHash     : List Byte
  selftests  : List (Ticket × Nat)
  boot       : Boot
  bist       : Bist
  enumCount  : Nat
  enumSent   : Bool
  coresRun   : Bool
  /-- block time of each Conductor pair's last kick of its watchdog (R304) -/
  kickAt     : List Nat
  halted     : Bool
  view       : Nat
  deriving DecidableEq, Repr

/-! ## Signal Box -/

/-- A fault record (Table 16-1). -/
structure FRec where
  valid      : Bool
  inForce    : Bool
  injected   : Bool
  forced     : Bool
  overflow   : Bool
  latched    : Bool
  outcome    : Bool
  safe       : Bool
  row        : Nat
  repeats    : Nat
  cls        : Nat
  sub        : Nat
  cause      : Nat
  engine     : Nat
  coincident : Bool
  detect     : Nat
  detail     : Nat
  epoch      : Nat
  merges     : Nat
  degrade    : BitVec 16
  second     : Nat
  lastTime   : Nat
  exitTime   : Nat
  secDetail  : Nat
  /-- block time until which the record is in handling (R305) -/
  handling   : Nat
  realCls    : Nat
  realSafe   : Bool
  realDegr   : BitVec 16
  realLatch  : Bool
  deriving DecidableEq, Repr

/-- What an occurrence's rows ask for (Table 16-4). -/
structure Reaction where
  cls     : Nat
  safe    : Bool
  degrade : BitVec 16
  latch   : Bool
  deriving DecidableEq, Repr

structure SignalBox where
  cfg        : Word
  recs       : List FRec
  react      : List Word
  inbox      : List Occurrence
  /-- subsystem and engine of the fault whose containment is under way (R305) -/
  arising    : Option (Nat × Nat)
  ccount     : List Nat
  cepoch     : List Nat
  /-- pairs of subsystem and cause whose first C occurrence of an epoch had its FLT record -/
  cPairs     : List (Nat × Nat × Nat)
  cAt        : Option Nat
  recovery   : Nat
  overwritten : Nat
  mergeTotal : Nat
  escTimes   : List Nat
  escSlots   : List Nat
  injected   : Nat
  coincident : Nat
  /-- 0 not taken over, 1 healthy, 3 fatal (Table 16-10) -/
  state      : Nat
  /-- the outputs have been taken over since the reset (R367) -/
  taken      : Bool
  forced     : Bool
  safeReq    : Bool
  faultClass : Nat
  fcTarget   : Nat
  fcMid      : Bool
  /-- block time of the last change of FAULT_CLASS (R49) -/
  fcAt       : Option Nat
  heartbeat  : Bool
  hbLast     : Nat
  degrade    : BitVec 16
  govCfg     : Word
  naturalRate : Nat
  vtBand     : Nat
  busy       : List Nat
  govHint    : BitVec 64
  /-- block time of the last refill of the step tokens -/
  refillAt   : Nat
  deriving DecidableEq, Repr

/-! ## Sealed Meter -/

/-- An audit record (R329). -/
structure Audit where
  kind   : Nat
  seals  : Nat
  seq    : Nat
  time   : Nat
  detail : Nat
  chain  : List Byte
  deriving DecidableEq, Repr

structure Tally where
  count : Nat
  lost  : Bool
  sat   : Bool
  deriving DecidableEq, Repr

structure Meter where
  /-- 0 void, 1 open, 2 closing, 3 sealed (Table 17-1) -/
  state     : Nat
  inReset   : Bool
  sealOpen  : Bool
  ready     : Bool
  key       : Option (Nat × Nat × Nat)
  seals     : Nat
  fp        : List Byte
  audit     : List Audit
  audSeq    : Nat
  chain     : List Byte
  evSeq     : Nat
  map       : List Word
  tally     : List Tally
  latched   : List Tally
  latchT    : Nat
  latchEp   : Nat
  /-- a latch is due for this T and epoch (R326) -/
  latchDue  : Option (Nat × Nat)
  /-- a boundary has been latched since the meter entered sealed -/
  latchedIn : Bool
  version   : Nat
  romImage  : Bool
  img       : List Byte
  imgValid  : Bool
  imgFail   : Bool
  imgHash   : List Byte
  /-- cause 0x14 has been raised for this closing, and the block time of its last attempt (R322) -/
  closeTold : Bool
  tryAt     : Nat
  marks     : BitVec 64
  /-- the tallies as of the T that is to be latched -/
  forming   : List Tally
  /-- faults detected while the core does not run (R332) -/
  queue     : List Occurrence
  deriving DecidableEq, Repr

/-! ## Memory and export ports -/

/-- Why a memory access is made (Table 15-3). -/
inductive Purpose where
  | boot (slot : Nat) (code : Bool)
  | plan (ticket : Ticket) (slot : Nat) (body : Bool)
  | model (ticket : Ticket) (slot : Nat) (body : Bool)
  | zones (ticket : Ticket) (stream : Nat)
  | binding (ticket : Ticket) (slot : Nat) (head : List Byte)
  | chunk (track : Nat) (item : Nat) (pilot : Bool) (index : Nat) (body : Bool)
  | snap (slot t : Nat)
  | drain (sid : Nat)
  | session (ticket : Ticket)
  | readrec (ticket : Ticket) (result result2 : Word)
  | evidence (ticket : Ticket) (bytes seq : Nat)
  | scrub (p window : Nat)
  deriving DecidableEq, Repr

/-- A piece of work for the memory port: what to read, or the bytes to write from `addr` on. -/
structure Job where
  id      : Nat
  cls     : Nat
  owner   : Nat
  write   : Bool
  addr    : Nat
  len     : Nat
  bytes   : List Byte
  purpose : Purpose
  issued  : Nat
  open_   : Nat
  got     : List (Nat × List Byte)
  /-- 0 none, 1 error response, read error or timeout, 2 refused by a window check; and where it was -/
  err     : Nat
  bad     : Nat
  deriving DecidableEq, Repr

/-- An outstanding transaction (R335). -/
structure Txn where
  id     : Nat
  job    : Nat
  cls    : Nat
  write  : Bool
  addr   : Nat
  beats  : Nat
  got    : Nat
  at_    : Nat
  dead   : Bool
  bad    : Bool
  part   : Nat
  deriving DecidableEq, Repr

/-- A write beat waiting for the port: data, byte enables, last. -/
structure WBeat where
  data : BitVec 1024
  strb : BitVec 128
  last : Bool
  deriving DecidableEq, Repr

structure MemPort where
  jobs      : List Job
  nextJob   : Nat
  txns      : List Txn
  wbeats    : List WBeat
  shared    : Nat
  rdErr     : Nat
  rspErr    : Nat
  timeouts  : Nat
  proto     : Nat
  /-- the command last driven: op, address, beats − 1, identity, partition -/
  cmd       : Option (Nat × Nat × Nat × Nat × Nat)
  wd        : Option WBeat
  deriving DecidableEq, Repr

/-- An export session (R290). -/
structure Session where
  isOpen   : Bool
  enc      : Bool
  lanes    : Nat
  ended    : Bool
  cause    : Nat
  siding   : Nat
  id       : Nat
  key      : List Byte
  salt     : List Byte
  mask     : BitVec 33
  comp     : Bool
  trailer  : Bool
  seq      : Nat
  frames   : Nat
  opening  : Bool
  closing  : Option Ticket
  /-- the last frame of a closing session has been started -/
  lastSent : Bool
  lastTs   : Nat
  deriving DecidableEq, Repr

/-- A frame in transmission or next on a lane (R345): its bytes left, its owner and its item. -/
structure Frame where
  owner  : Nat
  sid    : Nat
  itemEnd : Nat
  bytes  : List Byte
  sent   : Nat
  last   : Bool
  hasItem : Bool
  deriving DecidableEq, Repr

structure Lane where
  cur    : Option Frame
  next   : Option Frame
  frames : Nat
  /-- the abort beat is presented and not yet accepted (R43) -/
  abort  : Bool
  /-- BLK_RST_N fell: the lane takes its reset values after the abort beat -/
  resets : Bool
  deriving DecidableEq, Repr

structure Export where
  sess      : List Session
  lanes     : List Lane
  rr        : Nat
  discarded : Nat
  /-- EXP_CLK fault began at (cause 0x01 of subsystem 0, engine 1) -/
  stallAt   : Option Nat
  /-- items taken from sidings whose frames have not released them: siding, end pointer, and whether the
  frame's end was accepted (R342) -/
  flight    : List (Nat × Nat × Bool)
  /-- SESSION_OPEN commands that wait for the entropy source -/
  opens     : List (Ticket × List Word)
  deriving DecidableEq, Repr

/-! ## Token line, pins -/

/-- The reply of the previous accepted request (R352). `busy` holds a request still running. -/
structure TklReply where
  seq    : Nat
  status : Nat
  rdata  : Word
  deriving DecidableEq, Repr

structure TokenLine where
  addrValid : Bool
  addr      : Nat
  verOp     : Nat
  auto      : Bool
  clash     : Bool
  crcErr    : Nat
  verRej    : Nat
  cfg       : Word
  reply     : Option TklReply
  /-- a request still running: TAKE (false) or COMMIT (true), and its seq -/
  busy      : Option (Bool × Nat)
  oddWord   : Word
  lastAt    : Nat
  view      : Nat
  out       : Option TklFrame
  deriving DecidableEq, Repr

/-- Levels at the pins that are no register's, and the wrapper (R55). -/
structure Pins where
  porstN   : Bool
  blkRstN  : Bool
  mtrRstN  : Bool
  vqOn     : Bool
  fuseReq  : Bool
  fuseAddr : Nat
  regData  : Word
  wir      : BitVec 8
  deriving DecidableEq, Repr

/-- The whole block and the queue of waiting commands, first in, first out. `free` counts the free
values drawn (the model's own field; see the log on free values). -/
structure State where
  params  : Params
  ttb     : Timetable
  stn     : List Station
  jct     : Junction
  myd     : Yard
  ldg     : Ledger
  sdg     : Sidings
  trk     : List Track
  wtp     : Checker
  plt     : Pilot
  wbr     : Weigh
  ilk     : Interlock
  dsp     : Dispatcher
  sbx     : SignalBox
  mtr     : Meter
  mem     : MemPort
  exp     : Export
  tkl     : TokenLine
  pins    : Pins
  free    : Nat
  pending : List Instr
  deriving DecidableEq, Repr

/-! ## Reset values -/

def Params.reset : Params :=
  { nStn := 64, accTapEn := BitVec.allOnes 64, expMaxPayload := 8192, bootBase := 0 }

/-- TTB_CFG after PORST_N (Table 04-2). -/
def ttbCfgReset : Word := 0x03C3_2003_E80A_CA64#64

/-- TTB_EPOCH_CFG after reset (Table 04-5). -/
def epochCfgReset : Word := 0x0823_5FFF_F396_0010#64

def Timetable.reset : Timetable :=
  { time := 0, acc := 0, state := .freerun, timeValid := false, timeNs := 0, ppsAt := none,
    freqCorr := 0, offset := 0, cfg := ttbCfgReset, stepCount := 0, ppsErr := 0, early := 0,
    synth := 0, stepWait := false, everValid := false, holdoverAt := 0, ppsPhase := 0, anyBoundary := false, epoch := 0,
    anyEpoch := false, running := false, armed := false, epochCfg := epochCfgReset, eff := epochCfgReset,
    epochT := 0, stepTo := 0, startT := 0, startEpoch := 0,
    openedKind := .restart, openedStepped := false, worst := .freerun, synthRun := 0,
    prevMaster := none, lastAccepted := none, lastReal := none, interval := none, edgeCount := 0,
    announced := none, lastEdge := 0, frameNext := List.replicate 16 0,
    frameStamp := List.replicate 16 none, upper := 0, upperAt := 0, stats := [] }

def SnoopWin.reset : SnoopWin :=
  { base := 0, limit := 0, ctl := 1, row := BitVec.allOnes 64, col := BitVec.allOnes 64 }

def Bank.reset : Bank := { ctx := 0, epoch := 0, since := 0, deltas := [], mark := false, lost := [] }

/-- STN_CFG after reset (Table 05-3). -/
def stnCfgReset : Word := 0x0000_00A0_00F0_C081#64

/-- A station macro after PORST_N, before it is enumerated (Tables 05-3 to 05-11). -/
def Station.reset : Station :=
  { cfg := stnCfgReset, evselLo := 0, evselHi := 0, accFilt := BitVec.allOnes 64,
    tagmap := List.replicate 32 0xFFFF_0000#64, thresh := List.replicate 16 0xFFFF_FFFF_FFFF#64,
    win := List.replicate 8 SnoopWin.reset, addressed := false, st := .notEnum, inReset := false,
    vioOff := false, measuring := none, pathDelay := 0, flushInc := false, curCtx := 0, curTag := 0,
    used := [0],
    tagTaken := false, lostTrace := 0, lostOp := 0, ctxOverrun := 0, eccCorr := 0, eccUncorr := 0,
    parkCount := 0, seq := 0, lastStamp := 0, prevEv := 0, accIndex := 0, accStarts := [], active := Bank.reset,
    vacated := [], lateCtx := none, link := [], trace := [],
    op := [], dropTrace := false, dropOp := false, drops := none, tLc := 0,
    tokenDue := false, lastHand := 0, clearAt := 0, lastEdge := 0, quiet := 0, resumes := false }

def Junction.reset : Junction :=
  { cfg := 20, stnIn := List.replicate 64 [], intIn := List.replicate 6 [],
    intSeq := List.replicate 6 0, owed := [], overrun := 0, released := 0,
    switchWait := false, route := (List.range 64).map (· / 16) }

/-- MYD_STREAM_CFG after reset: comp_en is 1 (Table 06-15). -/
def Stream.reset : Stream := { cfg := 0x20_0000_0000#64, count := 0, payload := none }

def Yard.reset : Yard := { inq := [], streams := List.replicate 33 Stream.reset }

def LCfg.reset : LCfg :=
  { chain := List.replicate 256 0, addr := List.replicate 17 0, ctl := List.replicate 17 0x100#64 }

def Ledger.reset : Ledger :=
  { words := [], ctx := List.replicate 32 0x1F00#64, cfg := LCfg.reset, eff := LCfg.reset,
    clearReq := 0, phase := false, sweep := none, snaps := [], withdrawn := 0, lastEpoch := 0,
    eccCorr := 0, eccUncorr := 0, lateDelta := 0, lastBank := 0, inq := List.replicate 64 [],
    marks := 0, userSel := List.replicate 16 0, userHi := List.replicate 16 0 }

def Siding.reset : Siding :=
  { state := 0, consumer := 0, producer := 0, autoRel := true, owner := 16, sizeCode := 0,
    slot := 0, base := 0, itemOpen := false, itemStart := 0, wr := 0, markValid := false,
    markLost := false, mark := 0, rd := 0, rel := 0, intEn := false, intLevel := 1, wmEn := false,
    hi := 240, lo := 192, xoff := false, eccCorr := 0, eccUncorr := 0, withdrawn := 0, framing := 0,
    underrun := 0, faultDisc := 0, memBase := 0, memSize := 0, memWr := 0, memRd := 0, prodq := [],
    stored := 0, abandoned := false, flushes := [], replay := [], relLeft := 0, inFlight := false, stream := 16, drainEnd := 0,
    lastRecTs := 0 }

def Sidings.reset : Sidings := { desc := List.replicate 256 Siding.reset, pool := [] }

def PlanSlot.reset : PlanSlot :=
  { state := 0, deferred := false, loading := false, owner := 0, plan := none }

/-- WTP_COVER after reset (Table 10-9). -/
def coverReset : Word := 0x8000_0020_0004_0055#64

def Checker.reset : Checker :=
  { cover := coverReset, slots := List.replicate 16 PlanSlot.reset, prep := none,
    cur := none, old := [], frac := 0, windows := [], items := [], waiting := [], badLayers := [],
    covered := [], cov := List.replicate 64 0, nextId := 0, passCnt := 0, mismCnt := 0,
    incCnt := 0, lateCnt := 0, skipCnt := 0, wdrCnt := 0, dropped := 0, notArr := 0, trackLost := 0,
    noStn := 0, actFull := 0, lastMm := 0, shortEp := 0, shortCnt := 0 }

def Track.reset : Track :=
  { state := 0, cause := 0, wdEpoch := 0, actCorr := 0, actUncorr := 0, wstCorr := 0,
    wstUncorr := 0, retry := 0, katEpoch := 0, katDue := false, katLeft := 0, clipLow := 0, clipHigh := 0,
    tagFail := 0, slotValid := 0, tokens := 0, refills := 0, busy := 0, retrying := none, frameRetry := none,
    reread := [], running := none, pilot := none, progress := 0, left := 0 }

def PSlot.reset : PSlot := { deferred := false, loading := false, owner := 0, model := none }

def PStream.reset : PStream :=
  { word := 100, owner := 0, zones := none, runs := List.replicate 32 0, frame := 0 }

def Pilot.reset : Pilot :=
  { models := List.replicate 4 PSlot.reset, streams := List.replicate 16 PStream.reset,
    frames := [], nextId := 0, free := List.replicate 4 0, judged := 0, implaus := 0, skBudget := 0,
    skSram := 0, skInput := 0, skOther := 0, noHost := 0, overrun := 0 }

/-- WBR_ENTRY_SEL and WBR_ENTRY_Q after reset (Table 13-2). -/
def wbrSelReset : Word := 0x0000_4080_0000_0000#64
def wbrQReset : Word := 0x0000_FF80_007F_1004#64

def Weigh.reset : Weigh :=
  { sel := List.replicate 64 wbrSelReset, q := List.replicate 64 wbrQReset, meas := [], ranges := [],
    runSat := List.replicate 64 0, runUnder := List.replicate 64 0, sat := 0, under := 0,
    lateElems := 0, satEv := 0, underEv := 0, toClose := [], owedSts := [] }

def Part.reset : Part :=
  { state := 0, mirror := false, pint := 0 }

def Window.reset : Window := { base := 0, size := 0 }

def Interlock.reset : Interlock :=
  { parts := List.replicate 16 Part.reset, win := List.replicate 17 (List.replicate 4 Window.reset),
    refused := List.replicate 17 0, lastAddr := List.replicate 17 0, rint := 0, unobs := 0,
    serial := 0, switchTs := 0, switchSrc := 0, switchSeq := 0, detaches := [], changes := [],
    scrubActive := false, scrubPart := 0, scrubFail := 0, trng := 0, rctFails := 0,
    aptFails := 0, blocks := 0, entropy := [], rctRun := none, identity := none, fuses := List.replicate 64 0,
    rootKey := List.replicate 32 0, testState := false, fresh := 0,
    keys := List.replicate 8 none }

def CmdWin.reset : CmdWin :=
  { isOpen := false, compl := 0, refused := 0, lostRep := 0, abandoned := 0, ready := [],
    asm := none, owes := 0, longs := 0 }

def Boot.reset : Boot :=
  { state := 0, slot := 0, failA := 0, failB := 0, bootUs := 0, started := 0, header := [],
    code := [], phase := 0 }

def Bist.reset : Bist :=
  { done := false, blocking := false, words := 0, sbxOk := false, trngOk := false, condOk := 0,
    decFail := 0, arrFail := 0 }

def Dispatcher.reset : Dispatcher :=
  { wins := List.replicate 17 CmdWin.reset, round := 0, activeGen := 0, pending := [], frozen := [],
    fp := List.replicate 32 0, takeover := false, commitHeld := none, heldQ := [], fwVersion := 0,
    fwHash := List.replicate 32 0, selftests := [], boot := Boot.reset, bist := Bist.reset,
    enumCount := 0, enumSent := false, coresRun := false, kickAt := [0, 0], halted := false, view := 0 }

def FRec.reset : FRec :=
  { valid := false, inForce := false, injected := false, forced := false, overflow := false,
    latched := false, outcome := false, safe := false, row := 0, repeats := 0, cls := 0, sub := 0,
    cause := 0, engine := 0, coincident := false, detect := 0, detail := 0, epoch := 0, merges := 0,
    degrade := 0, second := 0, lastTime := 0, exitTime := 0, secDetail := 0, handling := 0,
    realCls := 0, realSafe := false, realDegr := 0, realLatch := false }

/-- Reset word of a reaction row (Table 16-3). -/
def reactReset (r : Nat) : Word :=
  if r < 0x80 ∧ (r % 8 = 0 ∨ r % 8 = 1 ∨ r % 8 = 3 ∨ r % 8 = 4) then 0x0000_0280_0000_0000#64 else 0

/-- SBX_CFG and SBX_GOV_CFG after reset (Tables 16-9 and 03-5). -/
def sbxCfgReset : Word := 0x0004_3E80_6404_0002#64
def govCfgReset : Word := 0x0000_0001_5A00_2D5A#64

def SignalBox.reset : SignalBox :=
  { cfg := sbxCfgReset, recs := List.replicate 32 FRec.reset,
    react := (List.range 0x8F).map reactReset, inbox := [], arising := none, ccount := List.replicate 13 0,
    cepoch := List.replicate 13 0, cPairs := [], cAt := none, recovery := 0, overwritten := 0,
    mergeTotal := 0, escTimes := [], escSlots := [], injected := 0, coincident := 0, state := 0,
    taken := false,
    forced := false, safeReq := true, faultClass := 3, fcTarget := 3, fcMid := false, fcAt := none,
    heartbeat := false, hbLast := 0, degrade := 0, govCfg := govCfgReset, naturalRate := 0,
    vtBand := 0, busy := List.replicate 4 0, govHint := 0,
    refillAt := 0 }

def Tally.reset : Tally := { count := 0, lost := false, sat := false }

def Meter.reset : Meter :=
  { state := 0, inReset := false, sealOpen := false, ready := false, key := none, seals := 0,
    fp := List.replicate 32 0, audit := [], audSeq := 0, chain := List.replicate 32 0,
    evSeq := 0, map := List.replicate 256 0, tally := List.replicate 256 Tally.reset,
    latched := List.replicate 256 Tally.reset, latchT := 0, latchEp := 0, latchDue := none,
    latchedIn := false, version := 0x0103_0000, romImage := true, img := [], imgValid := false,
    imgFail := false, imgHash := [], closeTold := false, tryAt := 0, marks := 0,
    forming := List.replicate 256 Tally.reset, queue := [] }

def MemPort.reset : MemPort :=
  { jobs := [], nextJob := 0, txns := [], wbeats := [], shared := 0, rdErr := 0, rspErr := 0,
    timeouts := 0, proto := 0, cmd := none, wd := none }

def Session.reset : Session :=
  { isOpen := false, enc := false, lanes := 0, ended := false, cause := 0, siding := 0, id := 0,
    key := [], salt := [], mask := 0, comp := false, trailer := false, seq := 0, frames := 0,
    opening := false, closing := none, lastSent := false, lastTs := 0 }

def Lane.reset : Lane := { cur := none, next := none, frames := 0, abort := false, resets := false }

def Export.reset : Export :=
  { sess := List.replicate 17 Session.reset, lanes := List.replicate 2 Lane.reset, rr := 0,
    discarded := 0, stallAt := none, flight := [], opens := [] }

def TokenLine.reset : TokenLine :=
  { addrValid := false, addr := 0, verOp := 2, auto := false, clash := false, crcErr := 0,
    verRej := 0, cfg := 0, reply := none, busy := none, oddWord := 0, lastAt := 0, view := 0,
    out := none }

/-- Pin levels while PORST_N is low. -/
def Pins.reset : Pins :=
  { porstN := false, blkRstN := true, mtrRstN := true, vqOn := true, fuseReq := false, fuseAddr := 0,
    regData := 0, wir := 0 }

/-- The block with PORST_N asserted: every register at its reset value, every output at its reset
level, no command waiting. The first event from here is PORST_RELEASE (R363). -/
def State.reset : State :=
  { params := Params.reset, ttb := Timetable.reset, stn := List.replicate 64 Station.reset,
    jct := Junction.reset, myd := Yard.reset, ldg := Ledger.reset, sdg := Sidings.reset,
    trk := List.replicate 4 Track.reset, wtp := Checker.reset, plt := Pilot.reset,
    wbr := Weigh.reset, ilk := Interlock.reset, dsp := Dispatcher.reset, sbx := SignalBox.reset,
    mtr := Meter.reset, mem := MemPort.reset, exp := Export.reset, tkl := TokenLine.reset,
    pins := Pins.reset, free := 0, pending := [] }

end Sys2Proof.Machine
end

