-- ==== Sys2Proof/Machine/Bits.lean ====
section
/-! DEFINITION. Bit fields of words, bytes of words, clamps: the shared helpers of every register and
record layout. -/

namespace Sys2Proof.Machine

/-- Bits [lo + len - 1 : lo] of a word. -/
def fld (w : Word) (lo len : Nat) : Nat := w.toNat / 2 ^ lo % 2 ^ len

def bit (w : Word) (i : Nat) : Bool := w.getLsbD i

def b2n (b : Bool) : Nat := if b then 1 else 0

/-- A word from its fields, each given as (lowest bit, width, value). -/
def packN : List (Nat × Nat × Nat) → Nat
  | [] => 0
  | (lo, len, v) :: r => v % 2 ^ len * 2 ^ lo + packN r

def pack (fs : List (Nat × Nat × Nat)) : Word := BitVec.ofNat 64 (packN fs)

/-- `w` with bits [lo + len - 1 : lo] set to `v`. -/
def put (w : Word) (lo len v : Nat) : Word :=
  BitVec.ofNat 64 (w.toNat - fld w lo len * 2 ^ lo + v % 2 ^ len * 2 ^ lo)

/-- A number of `len` bits read as two's complement. -/
def signed (len v : Nat) : Int :=
  if v % 2 ^ len < 2 ^ (len - 1) then (v % 2 ^ len : Nat) else (v % 2 ^ len : Nat) - (2 ^ len : Nat)

/-- An integer as a two's complement number of `len` bits. -/
def unsigned (len : Nat) (i : Int) : Nat := (i % (2 ^ len : Nat)).toNat

def clamp (lo hi v : Nat) : Nat := max lo (min hi v)

def clampI (lo hi v : Int) : Int := max lo (min hi v)

/-- A count of `len` bits that stops at its largest value. -/
def sat (len v : Nat) : Nat := min (2 ^ len - 1) v

/-- A count of `len` bits that wraps. -/
def wrap (len v : Nat) : Nat := v % 2 ^ len

/-- The `n` bytes of a number, lowest first. -/
def leBytes : Nat → Nat → List Byte
  | 0, _ => []
  | n + 1, v => BitVec.ofNat 8 v :: leBytes n (v / 256)

/-- The `n` bytes of a number, highest first. -/
def beBytes (n v : Nat) : List Byte := (leBytes n v).reverse

def ofLe : List Byte → Nat
  | [] => 0
  | b :: r => b.toNat + 256 * ofLe r

def ofBe (l : List Byte) : Nat := ofLe l.reverse

/-- Bytes [off, off + n) of a list as a little-endian number; bytes beyond the end read 0. -/
def leAt (l : List Byte) (off n : Nat) : Nat := ofLe ((l.drop off).take n)

/-- A word's eight bytes, byte 0 holding bits [7:0] (R119). -/
def wordBytes (w : Word) : List Byte := leBytes 8 w.toNat

def wordsBytes : List Word → List Byte
  | [] => []
  | w :: r => wordBytes w ++ wordsBytes r

/-- The words of a byte string, the last one padded with zero bytes; `n` words at most. -/
def bytesWords : Nat → List Byte → List Word
  | 0, _ => []
  | _, [] => []
  | n + 1, l => BitVec.ofNat 64 (ofLe (l.take 8)) :: bytesWords n (l.drop 8)

/-- `old` with the bytes enabled in `be` taken from `new` (R44). -/
def mergeBytes (old new : Word) (be : BitVec 8) : Word :=
  BitVec.ofNat 64 (ofLe ((List.range 8).map fun i =>
    if be.getLsbD i then BitVec.ofNat 8 (fld new (8 * i) 8) else BitVec.ofNat 8 (fld old (8 * i) 8)))

/-- The bytes of an ASCII string. -/
def ascii (x : String) : List Byte := x.toList.map fun c => BitVec.ofNat 8 c.toNat

/-- The indices below `n` of the set bits of a number. -/
def bitsOf (n v : Nat) : List Nat := (List.range n).filter fun i => v.testBit i

/-- The number with the given bits set. -/
def maskOf : List Nat → Nat
  | [] => 0
  | i :: r => 2 ^ i ||| maskOf r

/-- The sum of the values of a list. -/
def sumOf (f : α → Nat) : List α → Nat
  | [] => 0
  | x :: r => f x + sumOf f r

/-- The index of the first element that satisfies `p`. -/
def indexWhere (p : α → Bool) (l : List α) : Option Nat := l.findIdx? p

/-- The first value in use no more: the least number below `n + 1` that `used` does not contain. -/
def firstFree (n : Nat) (used : List Nat) : Option Nat := (List.range n).find? fun i => !used.contains i

/-- The first element satisfying `p`, and the list without it. -/
def takeFirst (p : α → Bool) : List α → Option (α × List α)
  | [] => none
  | x :: r => if p x then some (x, r) else (takeFirst p r).map fun y => (y.1, x :: y.2)

/-- Sparse storage: the value at `k` of a list of pairs with rising keys, `d` where none is listed. -/
def look [DecidableEq β] (d : β) (k : Nat) : List (Nat × β) → β
  | [] => d
  | (i, v) :: r => if k < i then d else if k = i then v else look d k r

/-- A value stored at `k`; storing the default removes the entry, so that equal contents are equal
lists. -/
def store [DecidableEq β] (d : β) (k : Nat) (v : β) : List (Nat × β) → List (Nat × β)
  | [] => if v = d then [] else [(k, v)]
  | (i, x) :: r =>
    if k < i then (if v = d then (i, x) :: r else (k, v) :: (i, x) :: r)
    else if k = i then (if v = d then r else (k, v) :: r)
    else (i, x) :: store d k v r

/-- The canonical form: keys strictly rising, no entry equal to the default. -/
def canonical [DecidableEq β] (d : β) : List (Nat × β) → Bool
  | [] => true
  | [(_, v)] => decide (v ≠ d)
  | (i, v) :: (j, w) :: r => decide (i < j) && decide (v ≠ d) && canonical d ((j, w) :: r)

end Sys2Proof.Machine
end

