-- ==== Sys2Proof/Machine/Crypto.lean ====
section
/-! DEFINITION. The public algorithms that the spec names and does not restate: SHA-256, HMAC, HKDF,
AES-256-GCM, ECDH and ECDSA on P-256, CRC-32C. PRESUMED: each is the published standard. Safe where a
claim does not rest on a digest's value. -/

namespace Sys2Proof.Machine

/-! ## SHA-256 (FIPS 180-4) -/

def shaK0 : List Nat :=
  [0x428A2F98, 0x71374491, 0xB5C0FBCF, 0xE9B5DBA5, 0x3956C25B, 0x59F111F1,
   0x923F82A4, 0xAB1C5ED5, 0xD807AA98, 0x12835B01, 0x243185BE, 0x550C7DC3,
   0x72BE5D74, 0x80DEB1FE, 0x9BDC06A7, 0xC19BF174, 0xE49B69C1, 0xEFBE4786,
   0x0FC19DC6, 0x240CA1CC, 0x2DE92C6F, 0x4A7484AA, 0x5CB0A9DC, 0x76F988DA,
   0x983E5152, 0xA831C66D, 0xB00327C8, 0xBF597FC7, 0xC6E00BF3, 0xD5A79147,
   0x06CA6351, 0x14292967]

def shaK1 : List Nat :=
  [0x27B70A85, 0x2E1B2138, 0x4D2C6DFC, 0x53380D13, 0x650A7354, 0x766A0ABB,
   0x81C2C92E, 0x92722C85, 0xA2BFE8A1, 0xA81A664B, 0xC24B8B70, 0xC76C51A3,
   0xD192E819, 0xD6990624, 0xF40E3585, 0x106AA070, 0x19A4C116, 0x1E376C08,
   0x2748774C, 0x34B0BCB5, 0x391C0CB3, 0x4ED8AA4A, 0x5B9CCA4F, 0x682E6FF3,
   0x748F82EE, 0x78A5636F, 0x84C87814, 0x8CC70208, 0x90BEFFFA, 0xA4506CEB,
   0xBEF9A3F7, 0xC67178F2]

/-- Round constants. -/
def shaK : List Nat := shaK0 ++ shaK1

def shaInit : List Nat :=
  [0x6A09E667, 0xBB67AE85, 0x3C6EF372, 0xA54FF53A, 0x510E527F, 0x9B05688C,
   0x1F83D9AB, 0x5BE0CD19]

def w32 (x : Nat) : Nat := x % 4294967296

def rotr32 (n x : Nat) : Nat := (x >>> n) ||| w32 (x <<< (32 - n))

/-- The working variables of one compression and the sixteen schedule words ahead. -/
def shaRounds : (ks win : List Nat) → (a b c d e f g h : Nat) → List Nat
  | [], _, a, b, c, d, e, f, g, h => [a, b, c, d, e, f, g, h]
  | k :: ks, win, a, b, c, d, e, f, g, h =>
    let w := win.getD 0 0
    let w1 := win.getD 1 0
    let w14 := win.getD 14 0
    let s0 := rotr32 7 w1 ^^^ rotr32 18 w1 ^^^ (w1 >>> 3)
    let s1 := rotr32 17 w14 ^^^ rotr32 19 w14 ^^^ (w14 >>> 10)
    let new := w32 (w + s0 + win.getD 9 0 + s1)
    let t1 := w32 (h + (rotr32 6 e ^^^ rotr32 11 e ^^^ rotr32 25 e)
      + ((e &&& f) ^^^ ((4294967295 ^^^ e) &&& g)) + k + w)
    let t2 := w32 ((rotr32 2 a ^^^ rotr32 13 a ^^^ rotr32 22 a) + ((a &&& b) ^^^ (a &&& c) ^^^ (b &&& c)))
    shaRounds ks (win.drop 1 ++ [new]) (w32 (t1 + t2)) a b c (w32 (d + t1)) e f g

def shaBlock (st win : List Nat) : List Nat :=
  let r := shaRounds shaK win (st.getD 0 0) (st.getD 1 0) (st.getD 2 0) (st.getD 3 0) (st.getD 4 0)
    (st.getD 5 0) (st.getD 6 0) (st.getD 7 0)
  List.zipWith (fun x y => w32 (x + y)) st r

/-- Big-endian 32-bit words of a block. -/
def be32s : Nat → List Byte → List Nat
  | 0, _ => []
  | n + 1, l => ofBe (l.take 4) :: be32s n (l.drop 4)

def shaLoop : Nat → List Nat → List Byte → List Nat
  | 0, st, _ => st
  | n + 1, st, l => shaLoop n (shaBlock st (be32s 16 l)) (l.drop 64)

def shaPad (l : List Byte) : List Byte :=
  l ++ [0x80#8] ++ List.replicate ((119 - l.length % 64) % 64) 0#8 ++ beBytes 8 (8 * l.length)

def sha256 (l : List Byte) : List Byte :=
  let p := shaPad l
  (shaLoop (p.length / 64) shaInit p).flatMap (beBytes 4)

/-! ## HMAC and HKDF (RFC 2104, RFC 5869) -/

def xorByte (c : Nat) (b : Byte) : Byte := b ^^^ BitVec.ofNat 8 c

def hmac (key msg : List Byte) : List Byte :=
  let k := if 64 < key.length then sha256 key else key
  let k := k ++ List.replicate (64 - k.length) 0#8
  sha256 (k.map (xorByte 0x5C) ++ sha256 (k.map (xorByte 0x36) ++ msg))

def hkdfBlocks (prk info : List Byte) : Nat → Nat → List Byte → List Byte
  | 0, _, _ => []
  | n + 1, i, t =>
    let t := hmac prk (t ++ info ++ [BitVec.ofNat 8 i])
    t ++ hkdfBlocks prk info n (i + 1) t

/-- HKDF-SHA-256: `len` bytes from the secret, salt and info. -/
def hkdf (salt ikm info : List Byte) (len : Nat) : List Byte :=
  (hkdfBlocks (hmac salt ikm) info ((len + 31) / 32) 1 []).take len

/-! ## AES-256 (FIPS 197) and GCM (SP 800-38D) -/

def aesBox0 : List Nat :=
  [0x63, 0x7C, 0x77, 0x7B, 0xF2, 0x6B, 0x6F, 0xC5, 0x30, 0x01, 0x67, 0x2B,
   0xFE, 0xD7, 0xAB, 0x76, 0xCA, 0x82, 0xC9, 0x7D, 0xFA, 0x59, 0x47, 0xF0,
   0xAD, 0xD4, 0xA2, 0xAF, 0x9C, 0xA4, 0x72, 0xC0, 0xB7, 0xFD, 0x93, 0x26,
   0x36, 0x3F, 0xF7, 0xCC, 0x34, 0xA5, 0xE5, 0xF1, 0x71, 0xD8, 0x31, 0x15,
   0x04, 0xC7, 0x23, 0xC3, 0x18, 0x96, 0x05, 0x9A, 0x07, 0x12, 0x80, 0xE2,
   0xEB, 0x27, 0xB2, 0x75]

def aesBox1 : List Nat :=
  [0x09, 0x83, 0x2C, 0x1A, 0x1B, 0x6E, 0x5A, 0xA0, 0x52, 0x3B, 0xD6, 0xB3,
   0x29, 0xE3, 0x2F, 0x84, 0x53, 0xD1, 0x00, 0xED, 0x20, 0xFC, 0xB1, 0x5B,
   0x6A, 0xCB, 0xBE, 0x39, 0x4A, 0x4C, 0x58, 0xCF, 0xD0, 0xEF, 0xAA, 0xFB,
   0x43, 0x4D, 0x33, 0x85, 0x45, 0xF9, 0x02, 0x7F, 0x50, 0x3C, 0x9F, 0xA8,
   0x51, 0xA3, 0x40, 0x8F, 0x92, 0x9D, 0x38, 0xF5, 0xBC, 0xB6, 0xDA, 0x21,
   0x10, 0xFF, 0xF3, 0xD2]

def aesBox2 : List Nat :=
  [0xCD, 0x0C, 0x13, 0xEC, 0x5F, 0x97, 0x44, 0x17, 0xC4, 0xA7, 0x7E, 0x3D,
   0x64, 0x5D, 0x19, 0x73, 0x60, 0x81, 0x4F, 0xDC, 0x22, 0x2A, 0x90, 0x88,
   0x46, 0xEE, 0xB8, 0x14, 0xDE, 0x5E, 0x0B, 0xDB, 0xE0, 0x32, 0x3A, 0x0A,
   0x49, 0x06, 0x24, 0x5C, 0xC2, 0xD3, 0xAC, 0x62, 0x91, 0x95, 0xE4, 0x79,
   0xE7, 0xC8, 0x37, 0x6D, 0x8D, 0xD5, 0x4E, 0xA9, 0x6C, 0x56, 0xF4, 0xEA,
   0x65, 0x7A, 0xAE, 0x08]

def aesBox3 : List Nat :=
  [0xBA, 0x78, 0x25, 0x2E, 0x1C, 0xA6, 0xB4, 0xC6, 0xE8, 0xDD, 0x74, 0x1F,
   0x4B, 0xBD, 0x8B, 0x8A, 0x70, 0x3E, 0xB5, 0x66, 0x48, 0x03, 0xF6, 0x0E,
   0x61, 0x35, 0x57, 0xB9, 0x86, 0xC1, 0x1D, 0x9E, 0xE1, 0xF8, 0x98, 0x11,
   0x69, 0xD9, 0x8E, 0x94, 0x9B, 0x1E, 0x87, 0xE9, 0xCE, 0x55, 0x28, 0xDF,
   0x8C, 0xA1, 0x89, 0x0D, 0xBF, 0xE6, 0x42, 0x68, 0x41, 0x99, 0x2D, 0x0F,
   0xB0, 0x54, 0xBB, 0x16]

/-- The S-box. -/
def aesBox : List Nat := aesBox0 ++ aesBox1 ++ aesBox2 ++ aesBox3

def subByte (x : Nat) : Nat := aesBox.getD x 0

def xtime (x : Nat) : Nat := if x < 128 then 2 * x else (2 * x - 256) ^^^ 0x1B

/-- The next eight key words of the AES-256 schedule, each a list of four bytes. -/
def aesNext (rcon : Nat) (ws : List (List Nat)) : List (List Nat) :=
  let x := fun a b : List Nat => List.zipWith (fun p q => p ^^^ q) a b
  let last := ws.getD 7 []
  let g := match (last.drop 1 ++ last.take 1).map subByte with
    | b :: r => (b ^^^ rcon) :: r
    | [] => []
  let w0 := x (ws.getD 0 []) g
  let w1 := x (ws.getD 1 []) w0
  let w2 := x (ws.getD 2 []) w1
  let w3 := x (ws.getD 3 []) w2
  let w4 := x (ws.getD 4 []) (w3.map subByte)
  let w5 := x (ws.getD 5 []) w4
  let w6 := x (ws.getD 6 []) w5
  let w7 := x (ws.getD 7 []) w6
  [w0, w1, w2, w3, w4, w5, w6, w7]

def aesExpand : Nat → Nat → List (List Nat) → List (List Nat)
  | 0, _, ws => ws
  | n + 1, rcon, ws => ws ++ aesExpand n (xtime rcon) (aesNext rcon ws)

def quads : Nat → List Nat → List (List Nat)
  | 0, _ => []
  | n + 1, l => l.take 4 :: quads n (l.drop 4)

/-- Round keys of 16 bytes, 15 of them. -/
def aesKeys (key : List Byte) : List (List Nat) :=
  let ws := aesExpand 7 1 (quads 8 (key.map (·.toNat)))
  (List.range 15).map fun i => ((ws.drop (4 * i)).take 4).flatten

def mixColumn (c : List Nat) : List Nat :=
  let a := c.getD 0 0
  let b := c.getD 1 0
  let d := c.getD 2 0
  let e := c.getD 3 0
  [xtime a ^^^ (xtime b ^^^ b) ^^^ d ^^^ e, a ^^^ xtime b ^^^ (xtime d ^^^ d) ^^^ e,
    a ^^^ b ^^^ xtime d ^^^ (xtime e ^^^ e), (xtime a ^^^ a) ^^^ b ^^^ d ^^^ xtime e]

def shiftRows (st : List Nat) : List Nat :=
  (List.range 16).map fun i => st.getD ((i + 4 * (i % 4)) % 16) 0

def aesRounds : List (List Nat) → List Nat → List Nat
  | [], st => st
  | [k], st => List.zipWith (fun p q => p ^^^ q) (shiftRows (st.map subByte)) k
  | k :: ks, st =>
    aesRounds ks (List.zipWith (fun p q => p ^^^ q)
      ((quads 4 (shiftRows (st.map subByte))).flatMap mixColumn) k)

/-- One block under a key schedule. -/
def aesBlock (ks : List (List Nat)) (block : List Byte) : List Byte :=
  (aesRounds (ks.drop 1) (List.zipWith (fun p q => p ^^^ q) (block.map (·.toNat)) (ks.headD []))).map
    (BitVec.ofNat 8)

/-- Product in GF(2^128) as GCM orders its bits: `n` bits of `x` from the top, `z` and `v` running. -/
def gfLoop : Nat → (x z v : Nat) → Nat
  | 0, _, z, _ => z
  | n + 1, x, z, v =>
    let z := if x.testBit n then z ^^^ v else z
    let v := if v % 2 = 1 then (v / 2) ^^^ 0xE1000000000000000000000000000000 else v / 2
    gfLoop n x z v

def gfMul (x y : Nat) : Nat := gfLoop 128 x 0 y

def ghashLoop (h : Nat) : Nat → Nat → List Byte → Nat
  | 0, y, _ => y
  | n + 1, y, l => ghashLoop h n (gfMul (y ^^^ ofBe (l.take 16)) h) (l.drop 16)

def pad16 (l : List Byte) : List Byte := l ++ List.replicate ((16 - l.length % 16) % 16) 0#8

def ctrLoop (ks : List (List Nat)) (iv : List Byte) : Nat → Nat → List Byte → List Byte
  | 0, _, _ => []
  | n + 1, i, l =>
    List.zipWith (fun a b => a ^^^ b) (l.take 16) (aesBlock ks (iv ++ beBytes 4 i))
      ++ ctrLoop ks iv n (i + 1) (l.drop 16)

def ghash (h : Nat) (aad ct : List Byte) : Nat :=
  let d := pad16 aad ++ pad16 ct ++ beBytes 8 (8 * aad.length) ++ beBytes 8 (8 * ct.length)
  ghashLoop h (d.length / 16) 0 d

def gcmTag (ks : List (List Nat)) (iv aad ct : List Byte) : List Byte :=
  let h := ofBe (aesBlock ks (List.replicate 16 0#8))
  List.zipWith (fun a b => a ^^^ b) (beBytes 16 (ghash h aad ct)) (aesBlock ks (iv ++ beBytes 4 1))

/-- AES-256-GCM with a 12-byte IV: the ciphertext and its 16-byte tag. -/
def gcmSeal (key iv aad pt : List Byte) : List Byte × List Byte :=
  let ks := aesKeys key
  let ct := ctrLoop ks iv ((pt.length + 15) / 16) 2 pt
  (ct, gcmTag ks iv aad ct)

/-- The plaintext, if the tag is right. -/
def gcmOpen (key iv aad ct tag : List Byte) : Option (List Byte) :=
  let ks := aesKeys key
  if gcmTag ks iv aad ct = tag then some (ctrLoop ks iv ((ct.length + 15) / 16) 2 ct) else none

/-! ## P-256 (FIPS 186-5, SP 800-186) -/

def p256p : Nat := 0xFFFFFFFF00000001000000000000000000000000FFFFFFFFFFFFFFFFFFFFFFFF
def p256b : Nat := 0x5AC635D8AA3A93E7B3EBBD55769886BC651D06B0CC53B0F63BCE3C3E27D2604B
def p256n : Nat := 0xFFFFFFFF00000000FFFFFFFFFFFFFFFFBCE6FAADA7179E84F3B9CAC2FC632551
def p256gx : Nat := 0x6B17D1F2E12C4247F8BCE6E563A440F277037D812DEB33A0F4A13945D898C296
def p256gy : Nat := 0x4FE342E2FE1A7F9B8EE7EB4A7C0F9E162BCE33576B315ECECBB6406837BF51F5

def powMod (m : Nat) : Nat → (b e acc : Nat) → Nat
  | 0, _, _, acc => acc
  | n + 1, b, e, acc => powMod m n (b * b % m) (e / 2) (if e % 2 = 1 then acc * b % m else acc)

def invMod (m x : Nat) : Nat := powMod m 256 (x % m) (m - 2) 1

/-- A point on the curve: none is the point at infinity. -/
def p256On (q : Nat × Nat) : Bool :=
  decide (q.1 < p256p) && decide (q.2 < p256p)
    && (q.2 * q.2 % p256p == (q.1 * q.1 * q.1 + (p256p - 3) * q.1 + p256b) % p256p)

def p256Add : Option (Nat × Nat) → Option (Nat × Nat) → Option (Nat × Nat)
  | none, q => q
  | q, none => q
  | some (x1, y1), some (x2, y2) =>
    if x1 = x2 ∧ (y1 + y2) % p256p = 0 then none
    else
      let l := if x1 = x2 then (3 * x1 * x1 + (p256p - 3)) * invMod p256p (2 * y1) % p256p
        else (y2 + p256p - y1) * invMod p256p (x2 + p256p - x1) % p256p
      let x3 := (l * l + 2 * p256p - x1 - x2) % p256p
      some (x3, (l * (x1 + p256p - x3) + p256p - y1) % p256p)

def p256Loop : Nat → Nat → Option (Nat × Nat) → Option (Nat × Nat) → Option (Nat × Nat)
  | 0, _, _, acc => acc
  | n + 1, k, q, acc =>
    p256Loop n (k / 2) (p256Add q q) (if k % 2 = 1 then p256Add acc q else acc)

/-- k times a point. -/
def p256Mul (k : Nat) (q : Nat × Nat) : Option (Nat × Nat) := p256Loop 256 k (some q) none

def p256Base (k : Nat) : Option (Nat × Nat) := p256Mul k (p256gx, p256gy)

/-- The nonce of RFC 6979 for a private key and a digest: the first candidate in range of `n` tried. -/
def nonceLoop : Nat → (k v : List Byte) → Nat
  | 0, _, _ => 1
  | n + 1, k, v =>
    let v := hmac k v
    let c := ofBe v
    if 0 < c ∧ c < p256n then c
    else
      let k := hmac k (v ++ [0#8])
      nonceLoop n k (hmac k v)

def ecdsaNonce (d h : Nat) : Nat :=
  let x := beBytes 32 d ++ beBytes 32 (h % p256n)
  let v := List.replicate 32 1#8
  let k := hmac (List.replicate 32 0#8) (v ++ [0#8] ++ x)
  let v := hmac k v
  let k := hmac k (v ++ [1#8] ++ x)
  nonceLoop 8 k (hmac k v)

/-- A signature (r, s) of a digest, 32 bytes big-endian each. -/
def ecdsaSign (d : Nat) (digest : List Byte) : List Byte :=
  let h := ofBe digest
  let k := ecdsaNonce d h
  let r := match p256Base k with
    | some q => q.1 % p256n
    | none => 0
  beBytes 32 r ++ beBytes 32 (invMod p256n k * (h + r * d) % p256n)

def ecdsaVerify (pub : Nat × Nat) (digest sig : List Byte) : Bool :=
  let r := ofBe (sig.take 32)
  let s := ofBe ((sig.drop 32).take 32)
  if r = 0 ∨ s = 0 ∨ p256n ≤ r ∨ p256n ≤ s then false
  else
    let i := invMod p256n s
    match p256Add (p256Base (ofBe digest * i % p256n)) (p256Mul (r * i % p256n) pub) with
    | some q => q.1 % p256n == r
    | none => false

/-- The x coordinate that two keys share (ECDH). -/
def ecdh (d : Nat) (pub : Nat × Nat) : List Byte :=
  match p256Mul d pub with
  | some q => beBytes 32 q.1
  | none => List.replicate 32 0#8

/-! ## CRC-32C -/

def crcBits : Nat → Nat → Nat
  | 0, c => c
  | n + 1, c => crcBits n (if c % 2 = 1 then (c / 2) ^^^ 0x82F63B78 else c / 2)

def crc32c (l : List Byte) : Nat :=
  (l.foldl (fun c b => crcBits 8 (c ^^^ b.toNat)) 0xFFFFFFFF) ^^^ 0xFFFFFFFF

/-! ## Firmware images (R272, R331) -/

/-- The hash of an image: header bytes 0-63 and the code. -/
def imageHash (header code : List Byte) : List Byte := sha256 (header.take 64 ++ code)

def imageLen (header : List Byte) : Nat := leAt header 8 4
def imageVersion (header : List Byte) : Nat := leAt header 4 4

/-- An image is accepted: its magic, its version, its length and its signature (Table 14-10). -/
def imageOk (magic most : Nat) (key : Nat × Nat) (header code : List Byte) : Bool :=
  leAt header 0 2 == magic && leAt header 2 1 == 1 && imageLen header % 64 == 0
    && decide (imageLen header ≤ most) && code.length == imageLen header
    && ecdsaVerify key (imageHash header code) ((header.drop 64).take 64)

end Sys2Proof.Machine
end

