-- ==== Sys2Proof/Config.lean ====
section
/-! DEFINITION. What the spec leaves open: constants and free values without a body, so that no proof can
rest on a value of theirs. A claim about them holds for every value. -/

namespace Sys2Proof

/-- The frequency error that the Timetable learns while LOCKED (R77), in ppb, at the n-th draw. -/
opaque Config.learnedFreq : Nat → Int

/-- Where chunk `index` of a bundle stands in memory: the spec gives the chunk's format and not its
address (R183). -/
opaque Config.chunkAddr : (bundle index : Nat) → Nat

/-- Keys in ROM: the firmware verification key (R272) and the meter image verification key (R330). -/
opaque Config.firmwareKey : Nat × Nat
opaque Config.meterKey : Nat × Nat

/-- The physical word offset in a capture buffer that a check found bad, at the n-th draw: the model keeps
the buffer's contents and not their places (Table 16-2). -/
opaque Config.captureWord : Nat → Nat

/-- Rows, or columns, that an input extends beyond the least that its output needs, taken modulo the stride:
the layer entry states no input extent (R171, R199, Table 10-5). -/
opaque Config.inputSlack : (extent kernel stride pad : Nat) → Nat

/-- What a Pilot layer sees where a patch reaches outside its input: the model states no pad_value (R171,
R225, Table 12-3). -/
opaque Config.pilotPad : (bundle layer : Nat) → Int

/-- The hash of the meter image in ROM (R322, R330), byte 0 in the low bits. -/
opaque Config.meterRomHash : BitVec 256

/-- The count of a tally whose word is found uncorrectable, at the n-th draw: the spec gives no value for it
(R325). -/
opaque Config.lostTally : Nat → BitVec 56

/-- DESIGN CHOICE (logs 123, 132). What a read of an uncorrectable word returns where the spec names no
replacement, by the number of values drawn before. -/
opaque Config.lostWord : Nat → BitVec 64

/-- What the check of a word of Conductor SRAM shows when the preparation of an epoch reads it, at the n-th draw: the
pair in bit 2, and below it 1 for a corrected word, 2 for an uncorrectable one (log 123). -/
opaque Config.conductorCheck : Nat → BitVec 3

/-- The packet sequence that the completion of a detach echoes when the token line started it: no packet gave
one (R356). -/
opaque Config.detachSeq : BitVec 12

/-- What the words of an SRAM hold after ZF_MBIST, at the n-th draw: its contents are destroyed (Table 02-13). -/
opaque Config.destroyedWord : (draw index : Nat) → BitVec 64

/-- The wrapper boundary register, at the n-th draw: no row shifts it, and the spec gives its cells no order (R55). -/
opaque Config.boundaryRegister : Nat → Nat

/-- The self-test status word of ZF_STATUS, at the n-th draw: the spec gives its length alone (Table 02-13). -/
opaque Config.selfTestWord : Nat → BitVec 64

end Sys2Proof
end

