-- ==== Sys2Proof/Machine/Ops.lean ====
section
/-! DEFINITION. The named operations that several subsystems share: which parts run, block time and the
epoch of a time, occurrences on their way to the Signal Box, internal trace records, items on their way to
a siding, completions. -/

namespace Sys2Proof.Machine

/-! ## Which parts run -/

/-- Functional operation continues under a wrapper instruction: WS_BYPASS, ZF_STATUS, and every undefined code,
which acts as WS_BYPASS (R55, Table 02-13). -/
def functionalWir (code : Nat) : Bool := !(code == 1 || code == 2 || code == 0x11 || code == 0x12)

/-- The station macros and their links to the meter tap run: BLK_RST_N does not reach them, and the tallies
keep counting (Table 02-12, Table 17-8, R52, R55). -/
def State.stationsRun (s : State) : Bool :=
  s.pins.porstN && s.pins.vqOn && functionalWir s.pins.wir.toNat

/-- The core macro runs: no reset reaches it, VQ is on, and no test instruction holds it (Table 02-12, R52,
R55). -/
def State.core (s : State) : Bool := s.stationsRun && s.pins.blkRstN

/-- Every output of the core macro holds its reset value: under PORST_N, while VQ is off, and in the test state
outside WS_EXTEST (R29, R52, R56). -/
def State.outputsHeld (s : State) : Bool :=
  !s.pins.porstN || !s.pins.vqOn || (s.ilk.testState && s.pins.wir != 1)

/-- The functional logic drives the outputs: they are not held, and the boundary register does not drive them
(R29, R55, R56). A handshake of a memory, export or fuse output takes place only then. -/
def State.drives (s : State) : Bool := s.pins.porstN && s.pins.vqOn && !s.ilk.testState

/-- The Timetable core runs: it lies on VM and only PORST_N resets it (Table 02-12). -/
def State.timeRuns (s : State) : Bool := s.pins.porstN

/-- The Conductor cores run their firmware (R365, R315). -/
def State.fw (s : State) : Bool := s.core && s.dsp.boot.state == 1 && !s.dsp.halted

/-- Block time in ns (R73). -/
def State.now (s : State) : Nat := s.ttb.time

/-- The fatal state holds (R315). -/
def State.fatal (s : State) : Bool := s.sbx.state == 3

/-- A guarded effect: an event whose condition does not hold changes nothing. -/
def when (c : Bool) (f : State → State) (s : State) : State := if c then f s else s

/-- An optional effect. -/
def withSome (o : Option α) (f : α → State → State) (s : State) : State :=
  match o with
  | some x => f x s
  | none => s

/-- An effect for each element of a list, in order. -/
def forEach (l : List α) (f : α → State → State) (s : State) : State := l.foldl (fun s x => f x s) s

/-! ## Objects by number -/

def State.station (s : State) (n : Nat) : Station := s.stn.getD n Station.reset

def State.modStation (s : State) (n : Nat) (f : Station → Station) : State :=
  { s with stn := s.stn.modify n f }

def State.siding (s : State) (i : Nat) : Siding := s.sdg.desc.getD i Siding.reset

def State.modSiding (s : State) (i : Nat) (f : Siding → Siding) : State :=
  { s with sdg := { s.sdg with desc := s.sdg.desc.modify i f } }

def State.track (s : State) (t : Nat) : Track := s.trk.getD t Track.reset

def State.modTrack (s : State) (t : Nat) (f : Track → Track) : State :=
  { s with trk := s.trk.modify t f }

def State.part (s : State) (p : Nat) : Part := s.ilk.parts.getD p Part.reset

def State.modPart (s : State) (p : Nat) (f : Part → Part) : State :=
  { s with ilk := { s.ilk with parts := s.ilk.parts.modify p f } }

def State.win (s : State) (w : Nat) : CmdWin := s.dsp.wins.getD w CmdWin.reset

def State.modWin (s : State) (w : Nat) (f : CmdWin → CmdWin) : State :=
  { s with dsp := { s.dsp with wins := s.dsp.wins.modify w f } }

/-- Stations that the chain enumeration has addressed (R87). -/
def State.enumerated (s : State) (n : Nat) : Bool := n < s.dsp.enumCount && (s.station n).addressed

/-! ## Contexts -/

/-- LDG_CTX owner field: 0-15 a tenant, else Root (Table 07-4). -/
def ctxOwnerOf (w : Word) : Nat := if fld w 8 5 < 16 then fld w 8 5 else 16

/-- The owner of context `c`: a tenant, or 16 for Root. -/
def State.ctxOwner (s : State) (c : Nat) : Nat := ctxOwnerOf (s.ldg.ctx.getD c 0x1F00)

/-- The register code of an owner: 0x1F for Root. -/
def ownerCode (o : Nat) : Nat := if o < 16 then o else 0x1F

/-- An owner from its register code: codes 16-30 take the fallback Root. -/
def ofOwnerCode (c : Nat) : Nat := if c < 16 then c else 16

/-! ## Epochs -/

/-- The number that the next first boundary opens (R84). -/
def nextEpoch (tt : Timetable) : Nat := if tt.anyEpoch then wrap 32 (tt.epoch + 1) else 0

/-- The epoch in which a block time lies; before the first boundary since the reset, the number that it
will open (R302). -/
def State.epochAt (s : State) (t : Nat) : Nat :=
  if !s.ttb.running then nextEpoch s.ttb
  else match s.ttb.stats.find? (fun e => e.openedAt ≤ t) with
    | some e => e.epoch
    | none => match s.ttb.stats.getLast? with
      | some e => e.epoch
      | none => s.ttb.epoch

def State.modStat (s : State) (e : Nat) (f : EpochStat → EpochStat) : State :=
  { s with ttb := { s.ttb with stats := s.ttb.stats.map fun x => if x.epoch == e then f x else x } }

def State.stat (s : State) (e : Nat) : Option EpochStat := s.ttb.stats.find? fun x => x.epoch == e

/-- A station loss counter advanced in the current epoch (R69). -/
def State.markLoss (s : State) : State := s.modStat s.ttb.epoch fun x => { x with loss := true }

/-- A verdict of epoch `e` is LATE (R69). -/
def State.markLate (s : State) (e : Nat) : State := s.modStat e fun x => { x with late := true }

/-- A U or F occurrence was detected at time `t` (R301). -/
def State.markFault (s : State) (t : Nat) : State :=
  if s.ttb.running then s.modStat (s.epochAt t) fun x => { x with fault := true } else s

/-! ## Occurrences -/

/-- The class of a cause (Table 16-2): 1 C, 2 U, 3 F; 0 for an outcome; none for an undefined code. -/
def causeClass (sub cause : Nat) : Option Nat :=
  match sub, cause with
  | 0, 1 => some 2 | 0, 2 => some 2
  | 1, 1 => some 1 | 1, 2 => some 2 | 1, 3 => some 2 | 1, 4 => some 1 | 1, 5 => some 2
  | 1, 6 => some 2 | 1, 7 => some 2
  | 2, 1 => some 2 | 2, 2 => some 1 | 2, 3 => some 2
  | 2, 0x10 => some 1 | 2, 0x11 => some 2 | 2, 0x12 => some 1 | 2, 0x13 => some 2 | 2, 0x14 => some 2
  | 2, 0x15 => some 2 | 2, 0x16 => some 1 | 2, 0x17 => some 1
  | 3, 1 => some 1
  | 4, 1 => some 1 | 4, 2 => some 2 | 4, 3 => some 2 | 4, 4 => some 2
  | 5, 1 => some 1 | 5, 2 => some 2
  | 6, 1 => some 1 | 6, 2 => some 2 | 6, 3 => some 2
  | 7, 1 => some 1 | 7, 2 => some 1 | 7, 3 => some 1 | 7, 4 => some 2 | 7, 5 => some 2
  | 7, 6 => some 2 | 7, 7 => some 2
  | 8, 1 => some 0 | 8, 2 => some 0 | 8, 3 => some 0 | 8, 4 => some 0 | 8, 5 => some 0
  | 8, 6 => some 0 | 8, 7 => some 0 | 8, 8 => some 0 | 8, 9 => some 2
  | 9, 1 => some 0 | 9, 2 => some 0 | 9, 3 => some 0 | 9, 4 => some 2
  | 10, 1 => some 0 | 10, 2 => some 0 | 10, 3 => some 2
  | 11, 1 => some 2 | 11, 2 => some 2
  | 12, 1 => some 3 | 12, 2 => some 3 | 12, 3 => some 1 | 12, 4 => some 3 | 12, 5 => some 3
  | 12, 6 => some 3 | 12, 7 => some 2 | 12, 8 => some 3
  | _, _ => none

/-- The occurrence of a fault source (R300), its time to be filled when it is posted. -/
def occ (sub cause engine : Nat) (detail : Nat := 0) (ctxs : List Nat := []) : Occurrence :=
  { sub := sub, cause := cause, engine := engine, cls := (causeClass sub cause).getD 2,
    detail := detail % 2 ^ 64, time := 0, rows := [], outcome := false, injected := false,
    forced := false, owner := 16, ctxs := ctxs, event := none, arises := none }

/-- An outcome (R300): its rows and the tenant that owns the plan, stream or entry it names. -/
def outcomeOcc (sub cause engine detail : Nat) (rows : List Nat) (owner : Nat) : Occurrence :=
  { occ sub cause engine detail with cls := 0, rows := rows, outcome := true, owner := owner }

/-- The event of a verdict or of a Pilot frame (R218, R238); one that selects no row has no reaction. -/
def eventOcc (sub cause engine detail : Nat) (rows : List Nat) (owner : Nat) (e : OutcomeEvent) : Occurrence :=
  { outcomeOcc sub cause engine detail rows owner with event := some e }

/-- A unit hands an occurrence to the Signal Box (R301). DESIGN CHOICE: nothing arrives while the core is in
reset or off, and an occurrence of the Timetable or of a station found meanwhile is gone; the Sealed Meter keeps
its own waiting list (R332). -/
def State.post (s : State) (o : Occurrence) : State :=
  if s.core then
    { s with sbx := { s.sbx with inbox := s.sbx.inbox ++ [{ o with time := s.now, arises := s.sbx.arising }] } }
  else s

def State.raise (s : State) (sub cause engine : Nat) (detail : Nat := 0) (ctxs : List Nat := []) :
    State := s.post (occ sub cause engine detail ctxs)

/-- `f` contains a fault of engine `engine` of subsystem `sub`: what it hands over to the Signal Box arises from that
(R305 rule 2). -/
def State.containing (s : State) (sub engine : Nat) (f : State → State) : State :=
  let s' := f { s with sbx := { s.sbx with arising := some (sub, engine) } }
  { s' with sbx := { s'.sbx with arising := s.sbx.arising } }

/-! ## Trace records -/

/-- Governor cap and planning rate in force, in units of 0.01 G steps/s (Table 03-5). -/
def capRate (s : State) : Nat := fld s.sbx.govCfg 0 8
def budgetRate (s : State) : Nat := min (fld s.sbx.govCfg 8 8) (capRate s)

/-- The effective array step rate: the natural rate limited by the cap (R72). -/
def effRate (s : State) : Nat := min s.sbx.naturalRate (capRate s)

/-- The circumstance trailer of a record with the given trigger time, made by a track or by none
(Table 03-8). -/
def trailerWord (s : State) (trk : Option Nat) (trigger : Nat) : Word :=
  pack [(48, 8, effRate s), (44, 4, s.sbx.vtBand), (43, 1, b2n trk.isSome), (40, 2, trk.getD 0),
    (0, 32, sat 32 (s.now - trigger))]

/-- A record with no attribution yet. -/
def mkRec (type ts src station specific : Nat) (body : List Word) : Rec :=
  { type := type, ts := ts, key := 0, src := src, seq := 0, station := station, specific := specific,
    body := body, trailer := none, injected := false, timing := false, ctx := 0, owner := 16,
    ctxs := [], own := none, dests := [] }

/-- Merge input of an internal source: 64-68 are inputs 0-4, 127 is input 5 (Table 06-1). -/
def srcOfInput (k : Nat) : Nat := if k < 5 then 64 + k else 127

/-- A record joins the records of its source that the Junction has not taken, in the order of their timestamps
and keys; equal ones keep the order of arrival (R68, R109, R110). -/
def insertRec (r : Rec) : List Rec → List Rec
  | [] => [r]
  | x :: q => if r.ts < x.ts ∨ (r.ts = x.ts ∧ r.key < x.key) then r :: x :: q else x :: insertRec r q

/-- Consecutive source sequences from `n` on. -/
def numberFrom (n : Nat) : List Rec → List Rec
  | [] => []
  | r :: q => { r with seq := wrap 32 n } :: numberFrom (n + 1) q

/-- A record handed over past its due time, and not yet counted so (R113); a verdict never is. -/
def heldPast (s : State) (o : Owed) : Bool := !o.counted && o.src != 65 && decide (o.due < s.now)

/-- Records held past their due time count once each and raise their cause (R113). -/
def State.countOverdue (s : State) (late : List Owed) : State :=
  let told := fun o : Owed => { occ 3 1 o.src o.due with time := s.now }
  { s with
    jct := { s.jct with overrun := sat 32 (s.jct.overrun + late.length) },
    sbx := { s.sbx with inbox := s.sbx.inbox ++ if s.core then late.map told else [] } }

/-- An internal unit hands a record to the Junction (R109, R113): the records of its source stand in the order
of their timestamps and keys and are numbered so, and what the source owed under `key` is settled. -/
def State.emit (s : State) (k key : Nat) (r : Rec) : State :=
  let src := srcOfInput k
  let mine := fun o : Owed => o.src == src && o.key == key
  let s := s.countOverdue (s.jct.owed.filter fun o => mine o && heldPast s o)
  let q := s.jct.intIn.getD k []
  let first := s.jct.intSeq.getD k 0 + 2 ^ 32 - q.length
  { s with jct := { s.jct with
    intIn := s.jct.intIn.set k (numberFrom first (insertRec { r with src := src, key := key } q)),
    intSeq := s.jct.intSeq.modify k fun n => wrap 32 (n + 1),
    owed := s.jct.owed.filter fun o => !mine o } }

/-- VRD records that the Junction has not yet taken (R220). -/
def heldVrd (s : State) : Nat := (s.jct.intIn.getD 1 []).length

/-- The store of R220 takes a record: it has room, or the Junction waits for it first. -/
def vrdRoom (s : State) (r : Rec) : Bool :=
  decide (heldVrd s < 4096) || (match (s.jct.intIn.getD 1 []).head? with | some x => decide (r.ts < x.ts) | none => true)

/-- A VRD record goes to the store of R220, or waits for room there. DESIGN CHOICE (log 127): one that is due before
all the store holds does not wait, as the Junction would wait for it. -/
def State.emitVrd (s : State) (key : Nat) (r : Rec) : State :=
  if vrdRoom s r then s.emit 1 key r
  else { s with wtp := { s.wtp with waiting := s.wtp.waiting ++ [(key, r)] } }

/-- The Junction has taken a record: one that waits takes its place. -/
def State.refillVrd (s : State) : State :=
  match s.wtp.waiting with
  | [] => s
  | x :: rest =>
    if decide (heldVrd s < 4096) then ({ s with wtp := { s.wtp with waiting := rest } }).emit 1 x.1 x.2 else s

/-- A source owes a record from the moment its due time is known (R113). -/
def State.owe (s : State) (k key due : Nat) : State :=
  { s with jct := { s.jct with
    owed := s.jct.owed ++ [{ src := srcOfInput k, due := due, key := key, counted := false }] } }

/-- A record that a source owed will not come. -/
def State.unowe (s : State) (k key : Nat) : State :=
  { s with jct := { s.jct with
    owed := s.jct.owed.filter fun o => !(o.src == srcOfInput k && o.key == key) } }

/-- The words of one copy of a record (Tables 06-3 and 06-4); the trailer is kept or removed. -/
def Rec.words (r : Rec) (partition : Nat) (trailer : Bool) : List Word :=
  let tail := if trailer then r.trailer.toList else []
  let n := 2 + r.body.length + tail.length
  pack [(58, 6, r.type), (52, 6, n - 1), (46, 6, r.station), (42, 4, partition),
    (41, 1, b2n r.timing), (40, 1, b2n r.injected), (32, 8, r.seq), (0, 32, r.specific)]
    :: BitVec.ofNat 64 r.ts :: (r.body ++ tail)

/-- The LOSS record with cause 0b11 that stands for a withdrawn record (Table 06-8). -/
def lossRec (station seq ts lostTrace : Nat) : Rec :=
  { mkRec 4 ts 0 station (3 * 2 ^ 30 + lostTrace % 2 ^ 30)
      [BitVec.ofNat 64 ts, pack [(0, 32, seq)]] with seq := seq }

/-! ## Items on their way to a siding -/

/-- Address bits and words of a siding (R150). -/
def Siding.addrBits (d : Siding) : Nat := 9 + d.sizeCode
def Siding.size (d : Siding) : Nat := 2 ^ d.addrBits
def Siding.ptrMod (d : Siding) : Nat := 2 * d.size

/-- The distance from pointer `x` to pointer `y` (R150). -/
def Siding.dist (d : Siding) (x y : Nat) : Nat := (y + d.ptrMod - x % d.ptrMod) % d.ptrMod

def Siding.level (d : Siding) : Nat := d.dist d.rel d.wr
def Siding.visible (d : Siding) : Nat := if d.itemOpen then d.itemStart else d.wr
def Siding.avail (d : Siding) : Nat := d.dist d.rd d.visible
def Siding.free (d : Siding) : Nat := d.size - d.level
def Siding.empty (d : Siding) : Bool := d.avail == 0

/-- Words that items already on their way still need. -/
def Siding.coming (d : Siding) : Nat :=
  sumOf (fun i => i.words.length + 1) d.prodq - (if d.itemOpen && !d.abandoned then d.stored + 1 else 0)

/-- A producer hands an item to a siding: a free or scrubbing siding discards it whole, and so does a
faulted one, which counts it (R151, R162). -/
def State.pushItem (s : State) (sid : Nat) (it : ProdItem) : State :=
  let d := s.siding sid
  if d.state == 1 then s.modSiding sid fun d => { d with prodq := d.prodq ++ [it] }
  else if d.state == 2 then s.modSiding sid fun d => { d with faultDisc := sat 16 (d.faultDisc + 1) }
  else s

/-! ## Completions -/

def statusDone : Nat := 0
def statusDeferred : Nat := 1
def statusUnknownOp : Nat := 2
def statusNotPermitted : Nat := 3
def statusNoResource : Nat := 4
def statusSealed : Nat := 5
def statusAborted : Nat := 6
def statusFaulted : Nat := 7
def statusMarkLost : Nat := 8

/-- A completion record (Table 14-2) as an item (Table 08-2). -/
def completionItem (t : Ticket) (status result : Nat) (result2 : Word) : ProdItem :=
  { kind := .completion, src := 0x7F, seq := t.seq,
    words := [pack [(56, 8, status), (52, 1, b2n t.later), (40, 12, t.seq), (32, 8, t.op),
      (0, 32, result)], result2] }

/-- The block writes a completion (R258): always with reply at 1, else only for a status other than DONE.
A freed completion siding loses it (R151). A request of the token line gets none (R356). -/
def State.complete (s : State) (t : Ticket) (status result : Nat) (result2 : Word) : State :=
  if t.tkl || !(t.reply || status != statusDone) then s
  else
    let sid := (s.win t.w).compl
    if (s.siding sid).state == 1 || (s.siding sid).state == 2 then
      s.pushItem sid (completionItem t status result result2)
    else s.modWin t.w fun x => { x with lostRep := sat 16 (x.lostRep + 1) }

/-- A completion without a reservation (R255, R256): it is lost, and counted, where the siding has no
room beyond what is reserved for the window's other completions (R264). -/
def State.completeFree (s : State) (t : Ticket) (status result : Nat) (result2 : Word) : State :=
  let x := s.win t.w
  let d := s.siding x.compl
  if d.state == 1 && d.free < d.coming + 3 * (x.owes + 1) then
    s.modWin t.w fun x => { x with lostRep := sat 16 (x.lostRep + 1) }
  else s.complete t status result result2

/-- A long command or a held write ends: the window owes one completion less (R264). -/
def State.finish (s : State) (t : Ticket) (status result : Nat) (result2 : Word) : State :=
  let s := s.complete t status result result2
  if t.tkl then s
  else s.modWin t.w fun x =>
    { x with owes := x.owes - 1, longs := if t.later then x.longs else x.longs - 1 }

/-- A long command is under way (R261). -/
def State.startLong (s : State) (t : Ticket) : State :=
  if t.tkl then s else s.modWin t.w fun x => { x with owes := x.owes + 1, longs := x.longs + 1 }

/-- An E-class write enters the pending generation (R266). -/
def State.pendE (s : State) (e : EWrite) : State :=
  { s with dsp := { s.dsp with pending := s.dsp.pending ++ [e] } }

/-- A free value: the counter it depends on moves on. -/
def State.draw (s : State) : State := { s with free := s.free + 1 }

/-- The outcome of every command: the next state. -/
def next (s : State) : Host.Outcome State Fault Refusal := .next s

end Sys2Proof.Machine
end

