-- ==== Sys2Proof/Machine/Operands.lean ====
section
/-! DEFINITION. The fields of a command packet and how a packet issues: rounds, fences, reservations,
permissions (R257-R264, R269). -/

namespace Sys2Proof.Machine

/-- Word `i` of a packet; a word that it does not carry is zero (R257). -/
def pw (pk : List Word) (i : Nat) : Word := pk.getD i 0

def pkOpcode (pk : List Word) : Nat := fld (pw pk 0) 56 8
def pkSeq (pk : List Word) : Nat := fld (pw pk 0) 40 12
def pkLen (pk : List Word) : Nat := fld (pw pk 0) 36 4
def pkFence (pk : List Word) : Bool := bit (pw pk 0) 33
def pkReply (pk : List Word) : Bool := bit (pw pk 0) 32

/-- Bits of the opcode parameter. -/
def param (pk : List Word) (lo len : Nat) : Nat := fld (pw pk 0) lo len
def paramBit (pk : List Word) (i : Nat) : Bool := bit (pw pk 0) i

/-- The words after word 0. -/
def pkArgs (pk : List Word) : List Word := pk.drop 1

def ticketOf (w : Nat) (pk : List Word) : Ticket :=
  { w := w, seq := pkSeq pk, op := pkOpcode pk, reply := pkReply pk, later := false, tkl := false }

/-- The opcodes of Table 14-4. -/
def knownOps : List Nat :=
  [0x01, 0x02, 0x03, 0x04, 0x05, 0x10, 0x11, 0x12, 0x13, 0x20, 0x21, 0x22, 0x23, 0x30, 0x31, 0x32,
   0x33, 0x34, 0x40, 0x41, 0x42, 0x43, 0x44, 0x45, 0x46, 0x50, 0x51, 0x52, 0x53, 0x60, 0x61, 0x62,
   0x70, 0x80, 0x81, 0x82, 0x90, 0x91, 0x92, 0x93, 0xA0, 0xA1, 0xA2, 0xA3, 0xB0, 0xB1]

/-- The opcodes that only Root may send (Table 14-4). -/
def rootOps : List Nat :=
  [0x03, 0x04, 0x05, 0x10, 0x11, 0x12, 0x13, 0x20, 0x21, 0x22, 0x23, 0x32, 0x46, 0x53, 0x90, 0x91,
   0x92, 0x93, 0xA0, 0xA1, 0xA2, 0xA3, 0xB0, 0xB1]

/-- The packet at the head of a window (R261). -/
def headPacket (s : State) (w : Nat) : Option Packet := (s.win w).ready.head?

/-- The partition of window `w` is being detached, and its completion siding still stands (R263). -/
def departing (s : State) (w : Nat) : Bool := decide (w < 16) && (s.part w).state == 2

/-- Every earlier packet of the window has its completion in the siding; a DEFERRED reply counts
(R262). -/
def fenceClear (s : State) (w : Nat) : Bool :=
  (s.win w).longs == 0 && (s.siding (s.win w).compl).prodq.isEmpty

/-- The completion siding has room for every completion that the window owes and one more (R264). -/
def roomToIssue (s : State) (w : Nat) : Bool :=
  let d := s.siding (s.win w).compl
  decide (d.coming + 3 * ((s.win w).owes + 1) ≤ d.free)

/-- A held COMMIT is executing: Root's window issues nothing before it completes (R261, R266). -/
def commitHolds (s : State) (w : Nat) : Bool := w == 16 && s.dsp.commitHeld.isSome

/-- A partition that is being detached or scrubbed: commands do not name its objects (R296). -/
def barredPart (s : State) (o : Nat) : Bool := decide (o < 16) && ((s.part o).state == 2 || (s.part o).state == 3)

/-- The head packet of the window can issue: a window passed over waits under R262 or R264. -/
def canIssue (s : State) (w : Nat) : Bool :=
  match headPacket s w with
  | none => false
  | some p => ((s.win w).isOpen || departing s w) && !commitHolds s w && roomToIssue s w
      && (!pkFence p.words || fenceClear s w)

/-- The window at place `i` of a round: Root first, then P0 to P15 (R260). -/
def roundWin (i : Nat) : Nat := if i % 17 = 0 then 16 else i % 17 - 1
def roundPlace (w : Nat) : Nat := if w = 16 then 0 else w + 1

/-- The window that the round serves next. -/
def nextInRound (s : State) : Option Nat :=
  ((List.range 17).map fun k => roundWin (s.dsp.round + k)).find? (canIssue s)

/-- The head packet leaves the FIFO and the round moves on. -/
def takePacket (w : Nat) (s : State) : State :=
  let s := s.modWin w fun x => { x with ready := x.ready.drop 1 }
  { s with dsp := { s.dsp with round := (roundPlace w + 1) % 17 } }

/-- Issue of the packet at the head of window `w` (R260-R264): it must be the next of the round and carry
the opcode. Take-over and detach answer ABORTED, a sender without the right NOT_PERMITTED (R269); else
the command acts. -/
def issue (op w : Nat) (act : List Word → Ticket → State → State) (s : State) : State :=
  match headPacket s w with
  | none => s
  | some p =>
    if s.fw && nextInRound s == some w && pkOpcode p.words == op then
      let t := ticketOf w p.words
      let s := takePacket w s
      if s.dsp.takeover || departing s w then s.complete t statusAborted 0 0
      else if rootOps.contains op && w != 16 then s.complete t statusNotPermitted 0 0
      else act p.words t s
    else s

/-- Units of Q-class writes (Table 20-6). -/
def unitSiding (i : Nat) : Nat := i
def unitPlan (i : Nat) : Nat := 0x1000 + i
def unitModel (i : Nat) : Nat := 0x2000 + i
def unitKey (i : Nat) : Nat := 0x3000 + i

/-- The held Q-class writes become `q`; a plan or model slot shows whether a load of it is among them
(Tables 10-9 and 12-7). -/
def setHeld (q : List HeldQ) (s : State) : State :=
  let waits := fun unit : Nat => q.any fun h => h.unit == unit
  { s with
    dsp := { s.dsp with heldQ := q },
    wtp := { s.wtp with slots := s.wtp.slots.mapIdx fun k x => { x with deferred := waits (unitPlan k) } },
    plt := { s.plt with models := s.plt.models.mapIdx fun k x => { x with deferred := waits (unitModel k) } } }

/-- Held writes that meet `p` complete ABORTED. -/
def abortHeld (p : HeldQ → Bool) (s : State) : State :=
  forEach (s.dsp.heldQ.filter p) (fun h s => s.finish h.ticket statusAborted 0 0)
    (setHeld (s.dsp.heldQ.filter fun h => !p h) s)

/-- Held writes of a unit complete ABORTED: a later write supersedes them, or their object disappears (R267). -/
def dropHeld (unit : Nat) (s : State) : State := abortHeld (fun h => h.unit == unit) s

/-- A Q-class write whose unit is busy is held, and an earlier held write of the unit is superseded
(R267). -/
def defer (unit : Nat) (pk : List Word) (t : Ticket) (s : State) : State :=
  let s := (dropHeld unit s).complete t statusDeferred 0 0
  let s := if t.tkl then s else s.modWin t.w fun x => { x with owes := x.owes + 1 }
  setHeld (s.dsp.heldQ ++ [{ ticket := { t with later := true }, words := pk, unit := unit }]) s

/-- An answer of a Q-class command: a held write that applies gives its final completion. -/
def State.answer (s : State) (t : Ticket) (status result : Nat) (result2 : Word) : State :=
  if t.later then s.finish t status result result2 else s.complete t status result result2

end Sys2Proof.Machine
end

