-- ==== Sys2Proof/Machine/Mem.lean ====
section
/-! DEFINITION. The memory port: windows, pieces of an access, transaction slots, beats, responses, errors
(chapters "Memory port and export" and "Partitions and security"). The unit that made an access learns
its end from `jobEnd`. -/

namespace Sys2Proof.Machine

/-! ## Windows -/

/-- A window's base and size in bytes and its rights (Table 15-13). -/
def winBase (x : Window) : Nat := fld x.base 12 36 * 4096
def winSize (x : Window) : Nat := fld x.size 12 36 * 4096

/-- The window check of R279: all bytes inside one window of the owner that holds the right. -/
def windowAllows (s : State) (owner addr len : Nat) (write : Bool) : Bool :=
  (s.ilk.win.getD owner []).any fun x =>
    decide (0 < winSize x) && bit x.base (if write then 1 else 0)
      && decide (winBase x ≤ addr) && decide (addr + len ≤ min (winBase x + winSize x) (2 ^ 48))

/-- A refused command: counted and flagged, no fault (R280). -/
def noteRefused (owner addr : Nat) (s : State) : State :=
  let s := { s with ilk := { s.ilk with
    refused := s.ilk.refused.modify owner fun n => sat 16 (n + 1),
    lastAddr := s.ilk.lastAddr.set owner addr, rint := s.ilk.rint ||| 1#4 } }
  if owner < 16 then s.modPart owner fun x => { x with pint := x.pint ||| 1#3 } else s

/-! ## Jobs -/

/-- Access classes (Table 18-2): 0 fetch, 1 sweep, 2 drain, 3 other. -/
def clsFetch : Nat := 0
def clsSweep : Nat := 1
def clsDrain : Nat := 2
def clsOther : Nat := 3

/-- A unit hands an access to the port. -/
def addJob (cls owner : Nat) (write : Bool) (addr len : Nat) (bytes : List Byte) (p : Purpose)
    (s : State) : State :=
  { s with mem := { s.mem with
    jobs := s.mem.jobs ++ [{
      id := s.mem.nextJob, cls := cls, owner := owner, write := write,
      addr := addr % 2 ^ 48, len := len, bytes := bytes, purpose := p, issued := 0, open_ := 0,
      got := [], err := 0, bad := 0 }],
    nextJob := s.mem.nextJob + 1 } }

def modJob (id : Nat) (f : Job → Job) (s : State) : State :=
  { s with mem := { s.mem with jobs := s.mem.jobs.map fun j => if j.id == id then f j else j } }

/-- Why an access failed: an error of the memory port, a refused window, or the bar of a detach, under which it
was not issued. -/
def errPort : Nat := 1
def errWindow : Nat := 2
def errBarred : Nat := 3

/-- The first failure of an access stays with it. -/
def Job.fail (j : Job) (err addr : Nat) : Job := if j.err = 0 then { j with err := err, bad := addr } else j

/-- Zero-writes go on after a failed burst (R298); any other access stops at its first failure. -/
def Job.scrubs (j : Job) : Bool := match j.purpose with | .scrub _ _ => true | _ => false

/-- The firmware read is checked by no window (R279, R365). -/
def Job.unchecked (j : Job) : Bool := match j.purpose with | .boot _ _ => true | _ => false

def Job.moreToIssue (j : Job) : Bool := decide (j.issued < j.len) && (j.err == 0 || j.scrubs)

/-- An access has ended: nothing left to issue and nothing outstanding. -/
def Job.ended (j : Job) : Bool := !j.moreToIssue && j.open_ == 0

/-- The next piece: its first byte and its bytes, up to the next 2 KiB boundary (R335). -/
def Job.piece (j : Job) : Nat × Nat :=
  let a := j.addr + j.issued
  (a, min (j.len - j.issued) (2048 - a % 2048))

/-- A piece as whole beats: the aligned address and the number of beats. -/
def beatsOf (a len : Nat) : Nat × Nat := (a / 128 * 128, (a % 128 + len + 127) / 128)

/-- The bytes read by an access, in address order; a beat that did not come reads 0. -/
def Job.data (j : Job) : List Byte :=
  let (a, n) := beatsOf j.addr j.len
  let beats := (List.range n).flatMap fun i =>
    match j.got.find? (fun g => g.1 == a + 128 * i) with
    | some g => g.2
    | none => List.replicate 128 0#8
  (beats.drop (j.addr % 128)).take j.len

/-! ## Transaction slots -/

def reservedSlots (c : Nat) : Nat := if c = 3 then 32 else 64
def mostSlots (c : Nat) : Nat := if c = 3 then 64 else 96
def outstanding (s : State) (c : Nat) : Nat := (s.mem.txns.filter fun t => t.cls == c).length

/-- Slots beyond the reservations in use (R338). -/
def sharedUsed (s : State) : Nat := sumOf (fun c => outstanding s c - reservedSlots c) (List.range 4)

/-- A class that waits for a shared slot. -/
def wantsShared (s : State) (c : Nat) : Bool :=
  decide (reservedSlots c ≤ outstanding s c) && decide (outstanding s c < mostSlots c)
    && s.mem.jobs.any fun j => j.cls == c && j.moreToIssue

/-- Whether a class may issue now, and whether it takes a shared slot: reserved slots are never refused,
the shared ones go round (R338). -/
def slotFor (s : State) (c : Nat) : Option Bool :=
  if outstanding s c < reservedSlots c then some false
  else if outstanding s c < mostSlots c && decide (sharedUsed s < 32)
      && ((List.range 4).map fun k => (s.mem.shared + k) % 4).find? (wantsShared s) == some c then some true
  else none

/-- An access that overlaps an outstanding write of the block waits (R335). -/
def overlapsWrite (s : State) (a n : Nat) : Bool :=
  s.mem.txns.any fun t => t.write && decide (t.addr < a + 128 * n) && decide (a < t.addr + 128 * t.beats)

/-- The beats of one write piece (R335, R337). -/
def writeBeats (j : Job) (a len : Nat) : List WBeat :=
  let (base, n) := beatsOf a len
  (List.range n).map fun i =>
    let lo := base + 128 * i
    let byteAt := fun k : Nat =>
      if a ≤ lo + k ∧ lo + k < a + len then j.bytes.getD (lo + k - j.addr) 0 else 0
    { data := BitVec.ofNat 1024 (ofLe ((List.range 128).map byteAt)),
      strb := BitVec.ofNat 128 (maskOf ((List.range 128).filter fun k => decide (a ≤ lo + k ∧ lo + k < a + len))),
      last := i + 1 == n }

/-- From step 2 of a detach on, no new access is issued for the partition but its zero-writes (Table 15-7
step 6). -/
def barred (s : State) (j : Job) : Bool :=
  decide (j.owner < 16) && !j.scrubs && !j.unchecked && (s.part j.owner).state != 1

/-- A failed access of a zero-write leaves its burst unscrubbed (R298). -/
def noteScrubFail (j : Job) (addr : Nat) (s : State) : State :=
  match j.purpose with
  | .scrub p _ =>
    let mark := fun d : Detach => if d.p == p then { d with failed := true } else d
    let s := { s with ilk := { s.ilk with
      scrubFail := sat 24 (s.ilk.scrubFail + 1), rint := s.ilk.rint ||| 8#4,
      detaches := s.ilk.detaches.map mark } }
    s.raise 11 2 p addr
  | _ => s

/-- The entries of snapshots reach memory in the order in which their frozen values were taken (R137). -/
def sweepWaits (s : State) (j : Job) : Bool :=
  j.cls == clsSweep && match s.mem.jobs.find? fun x => x.cls == clsSweep && x.moreToIssue with
    | some x => x.id != j.id
    | none => false

/-- The arbiter issues the next command of an access at the handshake edge, after its window check
(R279, R280, R335). -/
def memCmdIssue (id : Nat) (s : State) : State :=
  match s.mem.jobs.find? fun j => j.id == id with
  | none => s
  | some j =>
    if !j.moreToIssue then s
    else
      let (a, len) := j.piece
      let (base, n) := beatsOf a len
      if barred s j then modJob id (fun j => { j.fail errBarred base with issued := j.len }) s
      else if sweepWaits s j then s
      else if !j.unchecked && !windowAllows s j.owner base (128 * n) j.write then
        noteScrubFail j a (noteRefused j.owner base
          (modJob id (fun j => { j.fail errWindow base with issued := j.issued + len }) s))
      else if overlapsWrite s base n then s
      else match slotFor s j.cls, firstFree 256 (s.mem.txns.map (·.id)) with
        | some sh, some tid =>
          let part := if j.unchecked then 16 else j.owner
          let t : Txn := {
            id := tid, job := id, cls := j.cls, write := j.write, addr := base,
            beats := n, got := 0, at_ := s.now, dead := false, bad := false, part := part }
          let s := modJob id (fun j => { j with issued := j.issued + len, open_ := j.open_ + 1 }) s
          { s with mem := { s.mem with
            txns := s.mem.txns ++ [t],
            wbeats := if j.write then s.mem.wbeats ++ writeBeats j a len else s.mem.wbeats,
            shared := if sh then (j.cls + 1) % 4 else s.mem.shared,
            cmd := some (b2n j.write, base, n - 1, tid, ownerCode part) } }
        | _, _ => s

/-- The memory system accepts the next write beat (R335). -/
def memWriteBeat (s : State) : State :=
  match s.mem.wbeats with
  | [] => s
  | b :: r => { s with mem := { s.mem with wbeats := r, wd := some b } }

/-- A transaction ends: its identity is free, and its access notes a failure. -/
def endTxn (t : Txn) (bad : Bool) (s : State) : State :=
  let s := { s with mem := { s.mem with txns := s.mem.txns.filter fun x => x.id != t.id } }
  if t.dead then s
  else
    let s := match s.mem.jobs.find? (fun j => j.id == t.job) with
      | some j => if bad then noteScrubFail j t.addr s else s
      | none => s
    modJob t.job (fun j =>
      { (if bad then j.fail errPort t.addr else j) with open_ := j.open_ - 1 }) s

def noteProto (s : State) : State := { s with mem := { s.mem with proto := sat 16 (s.mem.proto + 1) } }

/-- A read beat (R41, R337): without an outstanding read it is a protocol error; the last beat ends the
read, which fails with a wrong number of beats. -/
def memReadBeat (id : Nat) (data : BitVec 1024) (last err : Bool) (s : State) : State :=
  match s.mem.txns.find? fun t => t.id == id && !t.write with
  | none => noteProto s
  | some t =>
    let s := if err && !t.dead then { s with mem := { s.mem with rdErr := sat 16 (s.mem.rdErr + 1) } } else s
    let s := if t.dead then s
      else modJob t.job (fun j =>
        { j with got := j.got ++ [(t.addr + 128 * t.got, leBytes 128 data.toNat)] }) s
    let t := { t with got := t.got + 1, bad := t.bad || err }
    if last then
      let wrong := t.got != t.beats
      let s := if wrong && !t.dead then noteProto s else s
      endTxn t (t.bad || wrong) s
    else
      { s with mem := { s.mem with txns := s.mem.txns.map fun x => if x.id == id then t else x } }

/-- A write response (R41, R337). -/
def memWriteResponse (id : Nat) (err : Bool) (s : State) : State :=
  match s.mem.txns.find? fun t => t.id == id && t.write with
  | none => noteProto s
  | some t =>
    let s := if err && !t.dead then { s with mem := { s.mem with rspErr := sat 16 (s.mem.rspErr + 1) } } else s
    endTxn t err s

/-- A transaction without a response 1 ms after its handshake is treated as failed; its identity stays
taken until the late response (R303, R337). -/
def memTimeout (id : Nat) (s : State) : State :=
  match s.mem.txns.find? fun t => t.id == id && !t.dead with
  | none => s
  | some t =>
    if t.at_ + 1000000 ≤ s.now then
      let s := { s with mem := { s.mem with timeouts := sat 16 (s.mem.timeouts + 1) } }
      let s := s.raise 0 2 0 (id * 2 ^ 48 + t.addr)
      let s := endTxn t true s
      { s with mem := { s.mem with txns := s.mem.txns ++ [{ t with dead := true }] } }
    else s

/-- The first access that has ended leaves the port; its unit acts on it. -/
def takeEnded (s : State) : Option (Job × State) :=
  (takeFirst Job.ended s.mem.jobs).map fun x => (x.1, { s with mem := { s.mem with jobs := x.2 } })

end Sys2Proof.Machine
end

