-- ==== Sys2Proof/Machine/Sidings.lean ====
section
/-! DEFINITION. The Sidings: pool, pointers, items, reads, releases, flushes, errors, and the siding
commands (chapter "Queues"). -/

namespace Sys2Proof.Machine

/-! ## Pool and pointers -/

/-- Pool index of the word at pointer `p` (chapter "Queues", "Pointers"). -/
def Siding.index (d : Siding) (p : Nat) : Nat := d.base / 8 + p % d.size

def Siding.add (d : Siding) (p n : Nat) : Nat := (p + n) % d.ptrMod

def State.poolWord (s : State) (i : Nat) : Word := look 0 i s.sdg.pool

def State.putPool (s : State) (i : Nat) (w : Word) : State :=
  { s with sdg := { s.sdg with pool := store 0 i w s.sdg.pool } }

/-- The watermark pin of a siding (R164). -/
def xoffOf (i : Nat) (d : Siding) : Bool :=
  if i < 4 && d.state == 1 && d.wmEn then
    if d.hi * d.size ≤ d.level * 256 then true
    else if d.level * 256 ≤ d.lo * d.size then false else d.xoff
  else false

/-- Every pointer change passes here, so that the pin follows the level (R152, R164). -/
def State.modSdg (s : State) (i : Nat) (f : Siding → Siding) : State :=
  s.modSiding i fun d => let d := f d; { d with xoff := xoffOf i d }

/-- Content words left before the next length word, after `n` words from a place with `left` of them. -/
def leftAfter (s : State) (d : Siding) : (n p left : Nat) → Nat
  | 0, _, left => left
  | n + 1, p, 0 => leftAfter s d n (d.add p 1) (fld (s.poolWord (d.index p)) 0 16)
  | n + 1, p, left + 1 => leftAfter s d n (d.add p 1) left

/-- Content words left at rd_ptr before the next length word. -/
def rdLeft (s : State) (d : Siding) : Nat := leftAfter s d (d.dist d.rel d.rd) d.rel d.relLeft

/-- rel_ptr moves forward to `target`; the words count for the flushes that wait (R157). -/
def moveRel (target : Nat) (s : State) (d : Siding) : Siding :=
  let n := d.dist d.rel target
  { d with
    rel := target, relLeft := leftAfter s d n d.rel d.relLeft,
    flushes := d.flushes.map fun f =>
      if f.applied then { f with left := f.left - n, moved := f.moved + min n f.left }
      else { f with moved := f.moved + n } }

/-- Automatic release: rel_ptr moves toward `target` and stops at a valid mark (R155). -/
def autoRelease (s : State) (target : Nat) (d : Siding) : Siding :=
  if d.markValid && decide (d.dist d.rel d.mark < d.dist d.rel target) then moveRel d.mark s d
  else moveRel target s d

/-- A release to `target` beyond the mark loses it (R155). -/
def releaseTo (s : State) (target : Nat) (d : Siding) : Siding :=
  let lost := d.markValid && decide (d.dist d.rel d.mark < d.dist d.rel target)
  let d := if lost then { d with markValid := false, markLost := true } else d
  moveRel target s d

/-- The target of SDG_RELEASE on a port siding after its clamp (R155). -/
def clampRelease (d : Siding) (t : Nat) : Nat :=
  let t := t % d.ptrMod
  if d.dist d.rel t ≤ d.dist d.rel d.rd then t
  else if d.dist t d.rel ≤ d.size then d.rel else d.rd

/-! ## Producers -/

def kindCode : ItemKind → Nat
  | .record => 0
  | .completion => 1
  | .payload => 2
  | .filler => 3

/-- A length word (Table 08-2). -/
def lengthWord (abandon withdrawn : Bool) (k : ItemKind) (src seq words : Nat) : Word :=
  pack [(63, 1, b2n abandon), (62, 1, b2n withdrawn), (60, 2, kindCode k), (53, 7, src),
    (16, 32, seq), (0, 16, words)]

/-- A producer's next word: the reserved length word first, then the content. A word goes in only while
free is at least 1 (R151); the words of an abandoned item are discarded (R158). -/
def sidingWordWrite (sid : Nat) (s : State) : State :=
  let d := s.siding sid
  match d.prodq with
  | [] => s
  | it :: _ =>
    if d.state != 1 then s
    else if d.abandoned then
      if d.stored < it.words.length then s.modSiding sid fun d => { d with stored := d.stored + 1 } else s
    else if !d.itemOpen then
      if d.free < 1 then s
      else s.modSdg sid fun d =>
        { d with itemOpen := true, itemStart := d.wr, wr := d.add d.wr 1, stored := 0 }
    else if d.stored < it.words.length && decide (1 ≤ d.free) then
      let s := s.putPool (d.index d.wr) (it.words.getD d.stored 0)
      s.modSdg sid fun d => { d with wr := d.add d.wr 1, stored := d.stored + 1 }
    else s

def execSidingWordWrite (sid : Nat) (s : State) : Host.Outcome State Fault Refusal :=
  next (when s.core (sidingWordWrite sid) s)

/-- The producer closes its item by writing the length word (R149); the end of an abandoned item makes
the item boundary of R158. -/
def sidingItemClose (sid : Nat) (s : State) : State :=
  let d := s.siding sid
  match d.prodq with
  | [] => s
  | it :: rest =>
    if d.state != 1 || d.stored != it.words.length then s
    else if d.abandoned then
      s.modSiding sid fun d => { d with prodq := rest, stored := 0, abandoned := false }
    else if d.itemOpen then
      let s := s.putPool (d.index d.itemStart)
        (lengthWord false false it.kind it.src it.seq it.words.length)
      s.modSdg sid fun d => { d with prodq := rest, stored := 0, itemOpen := false }
    else s

def execSidingItemClose (sid : Nat) (s : State) : Host.Outcome State Fault Refusal :=
  next (when s.core (sidingItemClose sid) s)

/-! ## Reads -/

def State.session (s : State) (o : Nat) : Session := s.exp.sess.getD o Session.reset

def State.modSession (s : State) (o : Nat) (f : Session → Session) : State :=
  { s with exp := { s.exp with sess := s.exp.sess.modify o f } }

/-- The partition of a stream's copies: the tenant of a tenant or mirror stream, 0 for Root (R123). -/
def streamPartition (i : Nat) : Nat := if i < 16 then i else if i = 16 then 0 else i - 17

/-- siding and siding_en of a stream (Table 06-15). -/
def streamSiding (st : Stream) : Option Nat := if bit st.cfg 39 then some (fld st.cfg 40 8) else none

/-- The configuration of a stream as the pending generation leaves it. -/
def streamSoon (s : State) (i : Nat) : Stream :=
  let x := s.myd.streams.getD i Stream.reset
  { x with cfg := (s.dsp.frozen ++ s.dsp.pending).foldl (fun w e => match e with
      | .myd j m v => if j = i then (w &&& ~~~m) ||| (v &&& m) else w
      | _ => w) x.cfg }

/-- A stream that names the siding, in force or in the pending generation. -/
def namedByStream (s : State) (sid : Nat) : Bool :=
  (List.range 33).any fun i =>
    streamSiding (s.myd.streams.getD i Stream.reset) == some sid || streamSiding (streamSoon s i) == some sid

/-- The producer of a siding (Table 08-7): completions, the payloads of a session, or a stream that names it. -/
def producerOf (s : State) (sid : Nat) : Nat :=
  if (s.siding sid).producer = 0 then b2n (namedByStream s sid) else (s.siding sid).producer

/-- A stream can be attached to the siding: a siding has one producer (R148). DESIGN CHOICE: none is attached to a
completion siding or to the siding of a session, open or opening. -/
def takesStream (s : State) (sid : Nat) : Bool :=
  (s.siding sid).producer == 0 && !(s.exp.sess.any fun x => (x.isOpen || x.opening) && x.siding == sid)

/-- Content of the item whose length word stands at pointer `p`. -/
def itemWords (s : State) (d : Siding) (p : Nat) : List Word :=
  (List.range (fld (s.poolWord (d.index p)) 0 16)).map fun i => s.poolWord (d.index (d.add p (1 + i)))

/-! ### Payload items -/

/-- The 32-byte header of a Volliow frame (Table 18-3); frame_seq and the last-frame flag are filled at
transmission (R340). -/
def frameHeader (x : Session) (stream firstTs len seq : Nat) (last : Bool) : List Byte :=
  leBytes 2 0x564F ++ leBytes 1 3
    ++ leBytes 1 (packN [(0, 1, b2n x.enc), (1, 1, b2n x.comp), (2, 1, b2n x.trailer), (3, 1, b2n last)])
    ++ leBytes 4 x.id ++ leBytes 2 stream ++ leBytes 2 0 ++ leBytes 8 seq ++ leBytes 8 firstTs
    ++ leBytes 4 len

/-- An unsigned LEB128 number (R124). -/
def leb : Nat → Nat → List Byte
  | 0, _ => []
  | n + 1, d => if d < 128 then [BitVec.ofNat 8 d] else BitVec.ofNat 8 (d % 128 + 128) :: leb n (d / 128)

/-- A record's bytes in a payload: the compact form replaces word 1 by the delta (R124). -/
def payloadBytes (comp : Bool) (prev : Nat) (words : List Word) : List Byte :=
  if comp then
    wordBytes (words.getD 0 0) ++ leb 10 ((words.getD 1 0).toNat - prev) ++ wordsBytes (words.drop 2)
  else wordsBytes words

/-- A payload item's content: header and payload, padded with zero bytes to a whole word (R340). -/
def payloadWords (x : Session) (stream firstTs : Nat) (bytes : List Byte) : List Word :=
  let b := frameHeader x stream firstTs bytes.length 0 false ++ bytes
  bytesWords b.length b

/-- The replacement of a withdrawn item (Table 08-4): its length word and content; `part` is the partition of the
record's stream. `whole` tells that the length word itself was lost (R161). -/
def replacement (s : State) (sid : Nat) (kind part src seq ts : Nat) (whole : Bool) : List Word :=
  if kind = 1 then
    [lengthWord false true .completion 0x7F seq 2,
      pack [(56, 8, statusFaulted), (40, 12, seq), (0, 32, if whole then 0xFFFFFFFF else 0)], 0]
  else if kind = 2 then
    let x := s.session (s.siding sid).owner
    let r := (lossRec 0 0 ts (if whole then 0x3FFFFFFF else seq)).words (streamPartition src) false
    let c := payloadWords x src ts (payloadBytes x.comp ts r)
    lengthWord false true .payload src 1 c.length :: c
  else
    let station := if src < 64 then src else 0
    let r := (if whole then lossRec station 0 ts 0x3FFFFFFF else lossRec station seq ts 1).words part false
    lengthWord false true .record src seq r.length :: r

/-- The kind of item that a siding's producer writes (Table 08-7): records, completions or payloads. -/
def producerKind (p : Nat) : Nat := if p = 2 then 1 else if p = 3 then 2 else 0

/-- The words of an item that their check finds wrong, by their places, 0 for the length word (R159). -/
structure WordErrs where
  corrected : List Nat
  lost      : List Nat
  deriving DecidableEq, Repr

/-- Places among the first `n` words of an item at which the check finds an error, uncorrectable or corrected. -/
def errPlaces (lost : Bool) (n : Nat) (errs : WordErrs) : List Nat :=
  ((if lost then errs.lost else errs.corrected).filter (· < n)).eraseDups

/-- Corrected words: each is counted and is a C occurrence (R159). -/
def noteCorrected (sid words : Nat) (s : State) : State :=
  forEach (List.replicate words sid) (fun k s =>
    (s.modSiding k fun d => { d with eccCorr := sat 16 (d.eccCorr + 1) }).raise 6 1 k) s

/-- The length word is lost: every item up to the visible end is withdrawn (R161). -/
def takeFraming (sid : Nat) (s : State) : List Word × Nat × State :=
  let d := s.siding sid
  let x := s.session d.owner
  let s := s.modSiding sid fun d =>
    let lost := d.markValid && d.mark == d.rd
    { d with
      eccUncorr := sat 16 (d.eccUncorr + 1), withdrawn := sat 16 (d.withdrawn + 1), framing := sat 8 (d.framing + 1),
      markValid := d.markValid && !lost, markLost := d.markLost || lost }
  let ts := if d.producer = 3 then x.lastTs else d.lastRecTs
  let src := if d.producer = 3 then (bitsOf 33 x.mask.toNat).headD 16 else 0
  (replacement s sid (producerKind d.producer) (streamPartition d.stream) src 0 ts true, d.visible,
    s.raise 6 2 sid (2 ^ 63))

/-- The siding engine reads and checks the item at rd_ptr before it hands over the length word (R159-R161). The answer
is the words of the item, or of its replacement, the pointer after it, whether it was replaced, and the state. DESIGN
CHOICE: where the record's own partition field is lost, the replacement has the partition of the stream that the
siding received last. -/
def takeItem (sid : Nat) (errs : WordErrs) (s : State) : List Word × Nat × Bool × State :=
  let d := s.siding sid
  let lw := s.poolWord (d.index d.rd)
  let content := itemWords s d d.rd
  let after := d.add d.rd (1 + content.length)
  let bad := errPlaces true (1 + content.length) errs
  if bad.contains 0 then
    let (ws, end_, s) := takeFraming sid s
    (ws, end_, true, s)
  else
    let s := noteCorrected sid ((errPlaces false (1 + content.length) errs).filter fun i => !bad.contains i).length s
    if bad.isEmpty then (lw :: content, after, false, s)
    else
      let s := s.modSiding sid fun d =>
        { d with eccUncorr := sat 16 (d.eccUncorr + bad.length), withdrawn := sat 16 (d.withdrawn + 1) }
      let kind := fld lw 60 2
      let ts := if kind != 0 then (s.session d.owner).lastTs
        else if bad.contains 2 then d.lastRecTs else (content.getD 1 0).toNat
      let part := if bad.contains 1 then streamPartition d.stream else fld (content.getD 0 0) 42 4
      (replacement s sid kind part (fld lw 53 7) (fld lw 16 32) ts false, after, true,
        s.raise 6 2 sid (fld lw 16 32 * 2 ^ 16))

/-- The read of one content word by SDG_POP checks it once more. DESIGN CHOICE (log 132): a word that has become
uncorrectable since the item was checked is counted and raises the fault of R160, and reads as a free value. -/
def readContent (sid : Nat) (errs : WordErrs) (s : State) : Word × State :=
  let d := s.siding sid
  let w := s.poolWord (d.index d.rd)
  if !(errPlaces true 1 errs).isEmpty then
    (Config.lostWord s.free,
      (s.draw.modSiding sid fun d => { d with eccUncorr := sat 16 (d.eccUncorr + 1) }).raise 6 2 sid)
  else (w, noteCorrected sid (errPlaces false 1 errs).length s)

/-- The timestamp of the last record delivered from a siding (Table 08-4). -/
def noteRecord (lw : Word) (content : List Word) (d : Siding) : Siding :=
  if fld lw 60 2 = 0 then { d with lastRecTs := (content.getD 1 0).toNat } else d

/-- One read of SDG_POP on a port siding (R153): the word read, and the state after it. -/
def popSiding (sid : Nat) (errs : WordErrs) (s : State) : Word × State :=
  let d := s.siding sid
  let release := fun s : State =>
    if d.autoRel then s.modSdg sid fun d => autoRelease s d.rd d else s
  match d.replay with
  | w :: rest => (w, s.modSiding sid fun d => { d with replay := rest })
  | [] =>
    if d.avail = 0 then
      (0, s.modSiding sid fun d => { d with underrun := sat 8 (d.underrun + 1) })
    else if rdLeft s d = 0 then
      let (ws, after, replaced, s) := takeItem sid errs s
      let s := s.modSiding sid (noteRecord (ws.headD 0) (ws.drop 1))
      if replaced then
        (ws.headD 0, release (s.modSdg sid fun d => { d with rd := after, replay := ws.drop 1 }))
      else (ws.headD 0, release (s.modSdg sid fun d => { d with rd := d.add d.rd 1 }))
    else
      let (w, s) := readContent sid errs s
      (w, release (s.modSdg sid fun d => { d with rd := d.add d.rd 1 }))

/-- The siding behind a slot block: local slot `k` of tenant `page`, or siding `k` for Root (R168). -/
def slotSiding (s : State) (page k : Nat) : Option Nat :=
  if page < 16 then
    (List.range 256).find? fun i =>
      let d := s.siding i
      (d.state == 1 || d.state == 2) && d.owner == page && d.slot == k
  else if ((s.siding k).state == 1 || (s.siding k).state == 2) && (s.siding k).owner == 16 then some k
  else none

/-- SDG_POP on a slot without a live siding, or on one whose engine owns the pointers, changes nothing
and reads 0 (R156, R168). -/
def sdgPop (page slot : Nat) (errs : WordErrs) (s : State) : State :=
  match slotSiding s page slot with
  | none => { s with pins := { s.pins with regData := 0 } }
  | some i =>
    if (s.siding i).consumer = 0 then
      let (w, s) := popSiding i errs s
      { s with pins := { s.pins with regData := w } }
    else { s with pins := { s.pins with regData := 0 } }

def execSdgPop (page slot : Nat) (corrected lost : List Nat) (s : State) : Host.Outcome State Fault Refusal :=
  next (if s.core then sdgPop page slot ⟨corrected, lost⟩ s
    else { s with pins := { s.pins with regData := 0 } })

/-! ### Export sessions that end -/

/-- The owner whose session takes a stream's payloads (Table 06-15). -/
def sessionOf (stream : Nat) : Nat := if stream < 16 then stream else 16

/-- Payloads discarded (EXP_STATUS). -/
def noteDiscarded (n : Nat) (s : State) : State :=
  { s with exp := { s.exp with discarded := wrap 32 (s.exp.discarded + n) } }

/-- Whole items from pointer `p` to the visible end. -/
def countItems (s : State) (d : Siding) : Nat → Nat → Nat
  | 0, _ => 0
  | n + 1, p =>
    if d.dist p d.visible = 0 then 0
    else 1 + countItems s d n (d.add p (1 + fld (s.poolWord (d.index p)) 0 16))

/-- A write that sets export_en and has not applied loses that bit for the streams of a mask. -/
def stripExport (mask : Nat) (e : EWrite) : EWrite :=
  match e with
  | .myd i m v => if mask.testBit i then .myd i (put m 38 1 0) v else .myd i m v
  | e => e

/-- export_en of the streams of a mask is cleared, in force and pending (R291, R344). -/
def clearExport (mask : Nat) (s : State) : State :=
  let off := fun i (x : Stream) => if mask.testBit i then { x with cfg := put x.cfg 38 1 0 } else x
  { s with
    myd := { s.myd with streams := s.myd.streams.mapIdx off },
    dsp := { s.dsp with
      pending := s.dsp.pending.map (stripExport mask), frozen := s.dsp.frozen.map (stripExport mask) } }

/-- The transfer of an item is done; rel_ptr passes the items whose transfers are done, in their order
(R165, R342). -/
def settleFlight (sid end_ : Nat) (s : State) : State :=
  let mark := fun f : Nat × Nat × Bool => if f.1 == sid && f.2.1 == end_ then (f.1, f.2.1, true) else f
  let flight := s.exp.flight.map mark
  let done := ((flight.filter fun f => f.1 == sid).takeWhile fun f => f.2.2).map (·.2.1)
  let left := (flight.filter fun f => f.1 == sid).drop done.length
  let s := { s with exp := { s.exp with flight := (flight.filter fun f => f.1 != sid) ++ left } }
  let s := forEach done (fun e s => s.modSdg sid fun d =>
    if d.dist d.rel e ≤ d.dist d.rel d.rd then autoRelease s e d else d) s
  s.modSiding sid fun d => { d with inFlight := !left.isEmpty }

/-- What a siding holds beyond the items of frames that have started is discarded: it counts as transferred, and its
words are released in their order, behind those of the started frames (R165). -/
def discardRest (sid : Nat) (started : List Nat) (s : State) : State :=
  let s := s.modSdg sid fun d =>
    let end_ := if d.itemOpen then d.itemStart else d.wr
    { d with wr := end_, rd := end_, producer := 0, itemOpen := false, stored := 0, abandoned := false, prodq := [] }
  let end_ := (s.siding sid).wr
  let skip := fun f : Nat × Nat × Bool => if f.1 == sid && !started.contains f.2.1 then (f.1, f.2.1, true) else f
  settleFlight sid end_ { s with exp := { s.exp with flight := s.exp.flight.map skip ++ [(sid, end_, true)] } }

/-- The session of owner `o` is over: its payloads that have not started are discarded, its key and salt are
zeroised, its streams stop, and its started frames go on (R293 step 7, R344). -/
def dropSession (o : Nat) (s : State) : State :=
  let x := s.session o
  let d := s.siding x.siding
  let open_ := (bitsOf 33 x.mask.toNat).filter fun i =>
    (s.myd.streams.getD i Stream.reset).payload.isSome
  let waiting := (s.exp.lanes.filter fun l => match l.next with
    | some f => f.owner == o && f.hasItem
    | none => false).length
  let s := noteDiscarded (countItems s d d.size d.rd + d.prodq.length + open_.length + waiting) s
  let s := clearExport x.mask.toNat s
  let close := fun i (y : Stream) => if x.mask.toNat.testBit i then { y with payload := none } else y
  let s := { s with myd := { s.myd with streams := s.myd.streams.mapIdx close } }
  let cut := fun l : Lane =>
    { l with
      next := match l.next with | some f => if f.owner == o then none else some f | none => none,
      cur := match l.cur with
        | some f => if f.owner == o then some { f with last := false } else some f
        | none => none }
  let started := (s.exp.lanes.filterMap (·.cur)).filter fun f => f.owner == o && f.hasItem
  let s := discardRest x.siding (started.map (·.itemEnd)) { s with exp := { s.exp with lanes := s.exp.lanes.map cut } }
  let s := withSome x.closing (fun t s => s.finish t statusAborted 0 0) s
  s.modSession o fun x =>
    { x with isOpen := false, opening := false, closing := none, key := [], salt := [], lastSent := false }

/-- The block ends a session without SESSION_CLOSE (R344). -/
def endSession (o cause : Nat) (s : State) : State :=
  if (s.session o).isOpen then
    let s := (dropSession o s).modSession o fun x => { x with ended := true, cause := cause }
    if o < 16 then s.modPart o fun x => { x with pint := x.pint ||| 2#3 } else s
  else s

/-- The session that a siding serves, ended because the siding is freed (R344). -/
def endSiding (sid : Nat) (s : State) : State :=
  forEach (List.range 17) (fun o s =>
    if (s.session o).siding = sid then
      (endSession o 1 s).modSession o fun x => { x with opening := false }
    else s) s

/-! ## Flush -/

/-- A flush is applied (R157, R158): an open item is closed, the flush point is the visible end, and with
discard the readers jump to it. -/
def applyFlush (sid : Nat) (f : Flush) (s : State) : State :=
  let d := s.siding sid
  let it := d.prodq.headD { kind := .filler, src := 0, seq := 0, words := [] }
  let s := if d.itemOpen then
      (s.putPool (d.index d.itemStart) (lengthWord true false it.kind it.src it.seq d.stored)).modSdg sid
        fun d => { d with itemOpen := false, abandoned := true }
    else s
  let d := s.siding sid
  let point := d.visible
  let left := d.dist d.rel point
  s.modSdg sid fun d =>
    if f.discard then
      { d with
        rd := point, rel := point, relLeft := 0, replay := [], markValid := false, markLost := false,
        flushes := { f with point := point, left := 0, moved := f.moved + left, applied := true }
          :: (d.flushes.drop 1).map fun g => { g with moved := g.moved + left } }
    else
      { d with flushes := { f with point := point, left := left, applied := true } :: d.flushes.drop 1 }

/-- The flush at the head completes when rel_ptr has reached its point, one without discard also at the
item boundary (R157, R158); the next flush is then applied. -/
def flushComplete (sid : Nat) (s : State) : State :=
  let d := s.siding sid
  match d.flushes with
  | [] => s
  | f :: rest =>
    if !f.applied then s
    else if f.left = 0 && (f.discard || !d.abandoned) then
      let s := s.modSiding sid fun d => { d with flushes := rest }
      let s := s.finish f.ticket statusDone f.point (BitVec.ofNat 64 f.moved)
      match rest with
      | [] => s
      | g :: _ => applyFlush sid g s
    else s

def execSdgFlushComplete (sid : Nat) (s : State) : Host.Outcome State Fault Refusal :=
  next (when s.core (flushComplete sid) s)

/-! ## Creating and freeing -/

def isLive (d : Siding) : Bool := d.state == 1 || d.state == 2

/-- Idle: no open item, nothing to read, no transfer in flight (R166). -/
def sidingIdle (d : Siding) : Bool := !d.itemOpen && d.avail == 0 && d.replay.isEmpty && !d.inFlight

/-- A producer's item for a freed siding is discarded whole and counted (R151). -/
def discardItem (sid : Nat) (it : ProdItem) (s : State) : State :=
  match it.kind with
  | .completion =>
    match (List.range 17).find? fun w => (s.win w).compl == sid with
    | some w => s.modWin w fun x => { x with lostRep := sat 16 (x.lostRep + 1) }
    | none => s
  | .payload => noteDiscarded 1 s
  | _ => s

/-- siding_en of a stream that names the siding is cleared (R166). -/
def clearSidingEn (sid : Nat) (st : Stream) : Stream :=
  if streamSiding st == some sid then { st with cfg := put st.cfg 39 1 0 } else st

/-- The same of a write that sets siding_en for the siding and has not applied. -/
def stripSiding (sid : Nat) (streams : List Stream) (e : EWrite) : EWrite :=
  match e with
  | .myd i m v =>
    let named := if fld m 40 8 = 0 then fld (streams.getD i Stream.reset).cfg 40 8 else fld v 40 8
    if bit m 39 && named == sid then .myd i m (put v 39 1 0) else .myd i m v
  | e => e

/-- No stream names the siding any more, in force or pending. -/
def unnameSiding (sid : Nat) (s : State) : State :=
  let strip := stripSiding sid s.myd.streams
  { s with
    myd := { s.myd with streams := s.myd.streams.map (clearSidingEn sid) },
    dsp := { s.dsp with pending := s.dsp.pending.map strip, frozen := s.dsp.frozen.map strip } }

/-- No frame releases words of the siding any more. -/
def forgetFlight (sid : Nat) (s : State) : State :=
  let cut := fun l : Lane => { l with cur := l.cur.map fun f => { f with hasItem := f.hasItem && f.sid != sid } }
  { s with exp := { s.exp with lanes := s.exp.lanes.map cut, flight := s.exp.flight.filter fun f => f.1 != sid } }

/-- Freeing a siding: flushes complete ABORTED (R157), items on their way are discarded, siding_en of every
stream that names it is cleared (R166), and the descriptor takes its reset values. -/
def freeSiding (sid : Nat) (s : State) : State :=
  let s := if (s.siding sid).consumer = 2 then endSiding sid s else s
  let d := s.siding sid
  let s := forEach d.flushes
    (fun f s => s.finish f.ticket statusAborted f.point (BitVec.ofNat 64 f.moved)) s
  let s := forEach d.prodq (discardItem sid) s
  let s := dropHeld (unitSiding sid) s
  (forgetFlight sid (unnameSiding sid s)).modSdg sid fun _ => Siding.reset

/-- Whether [base, base + size) meets a siding other than `self`. -/
def poolTaken (s : State) (self : Nat) (base size : Nat) : Bool :=
  (List.range 256).any fun i =>
    let d := s.siding i
    d.state != 0 && i != self && decide (d.base < base + size) && decide (base < d.base + 8 * d.size)

/-- The lowest free pool offset aligned to the size (R147). -/
def placeSiding (s : State) (self sizeCode : Nat) : Option Nat :=
  let size := 4096 * 2 ^ sizeCode
  ((List.range (8388608 / size)).map (· * size)).find? fun b => !poolTaken s self b size

def ownedSidings (s : State) (p : Nat) : Nat :=
  ((List.range 256).filter fun i => isLive (s.siding i) && (s.siding i).owner == p).length

/-- The lowest local slot that no live siding of tenant `p` uses (R168). -/
def freeSlot (s : State) (p self : Nat) : Nat :=
  (firstFree 16 (((List.range 256).filter fun i =>
    i != self && isLive (s.siding i) && (s.siding i).owner == p).map fun i => (s.siding i).slot)).getD 0

/-- A new siding at its place, its L-class fields and pointers at reset (R166, R168). -/
def makeSiding (sid owner consumer producer sizeCode base : Nat) (autoRel : Bool) (memBase memSize : Nat)
    (s : State) : State :=
  let slot := if owner < 16 then freeSlot s owner sid else 0
  s.modSdg sid fun _ =>
    { Siding.reset with
      state := 1, owner := owner, consumer := consumer, producer := producer, sizeCode := sizeCode,
      base := base, autoRel := autoRel, slot := slot, memBase := memBase, memSize := memSize }

/-- The fields of SDG_CREATE after their clamps (R147, R148, R166). -/
def createConsumer (pk : List Word) : Nat := if param pk 18 2 = 3 then 0 else param pk 18 2
def createSize (pk : List Word) : Nat :=
  let c := min 10 (param pk 20 4)
  if createConsumer pk = 2 then max 3 c else c
def createMemBase (pk : List Word) : Nat := if createConsumer pk = 1 then fld (pw pk 1) 0 48 / 128 * 128 else 0
def createMemSize (pk : List Word) : Nat := if createConsumer pk = 1 then min 20 (fld (pw pk 2) 0 5) else 0

/-- The stream that SDG_CREATE attaches: a tenant only its own (R166). -/
def createStream (w : Nat) (pk : List Word) : Option Nat :=
  if !paramBit pk 16 then none
  else
    let st := min 32 (param pk 10 6)
    if w = 16 || st = w then some st else none

/-- SDG_CREATE with stream_en also writes siding and siding_en of the stream, class E (R166). -/
def attachStream (sid : Nat) (st : Option Nat) (s : State) : State :=
  withSome (if takesStream s sid then st else none) (fun i s =>
    s.pendE (.myd i (pack [(40, 8, 0xFF), (39, 1, 1)]) (pack [(40, 8, sid), (39, 1, 1)]))) s

def sidingResult (s : State) (sid : Nat) : Word := BitVec.ofNat 64 (s.siding sid).base

/-- SDG_CREATE on a free siding. -/
def createSiding (w sid : Nat) (pk : List Word) (t : Ticket) (s : State) : State :=
  let owner := if w = 16 then ofOwnerCode (param pk 5 5) else w
  let size := createSize pk
  if barredPart s owner then s.answer t statusNotPermitted 0 0
  else if owner < 16 && decide (16 ≤ ownedSidings s owner) then s.answer t statusNoResource 0 0
  else match placeSiding s sid size with
    | none => s.answer t statusNoResource 0 0
    | some base =>
      let s := makeSiding sid owner (createConsumer pk) 0 size base (paramBit pk 17)
        (createMemBase pk) (createMemSize pk) s
      let s := attachStream sid (createStream w pk) s
      s.answer t statusDone sid (sidingResult s sid)

/-- The words held are discarded with a new size: a flush that waits for them counts them, and none is left
(R157, R166). -/
def flushResized (held : Nat) (f : Flush) : Flush := { f with left := 0, moved := f.moved + held }

/-- A new size places the siding again, its own space counting as free; pointers, mark and level restart
(R166). -/
def resizeSiding (sid sizeCode : Nat) (s : State) : Option State :=
  (placeSiding s sid sizeCode).map fun base =>
    s.modSdg sid fun d =>
      { d with
        sizeCode := sizeCode, base := base, wr := 0, rd := 0, rel := 0, relLeft := 0, mark := 0,
        markValid := false, markLost := false, replay := [], itemOpen := false, itemStart := 0,
        flushes := d.flushes.map (flushResized d.level),
        intLevel := clamp 1 (512 * 2 ^ sizeCode) d.intLevel }

/-- A change of owner gives a new local slot (R166, R168). -/
def setOwner (sid owner : Nat) (s : State) : State :=
  if (s.siding sid).owner = owner then s
  else
    let slot := if owner < 16 then freeSlot s owner sid else 0
    s.modSiding sid fun d => { d with owner := owner, slot := slot }

/-- SDG_CREATE on an idle live siding: change or free; a completion siding takes only its size (R265,
R166). -/
def changeSiding (w sid : Nat) (pk : List Word) (t : Ticket) (s : State) : State :=
  let d := s.siding sid
  if d.producer = 2 then
    let size := min 10 (param pk 20 4)
    if size = d.sizeCode then s.answer t statusDone sid (sidingResult s sid)
    else match resizeSiding sid size s with
      | none => s.answer t statusNoResource 0 0
      | some s => s.answer t statusDone sid (sidingResult s sid)
  else if paramBit pk 4 then (freeSiding sid s).answer t statusDone sid 0
  else
    let owner := if w = 16 then ofOwnerCode (param pk 5 5) else w
    let size := createSize pk
    if barredPart s owner then s.answer t statusNotPermitted 0 0
    else if owner < 16 && owner != d.owner && decide (16 ≤ ownedSidings s owner) then
      s.answer t statusNoResource 0 0
    else
      match (if size = d.sizeCode then some s else resizeSiding sid size s) with
      | none => s.answer t statusNoResource 0 0
      | some s =>
        let s := setOwner sid owner s
        let mb := createMemBase pk
        let ms := createMemSize pk
        let s := s.modSdg sid fun d =>
          { d with
            consumer := createConsumer pk, autoRel := paramBit pk 17,
            memWr := if d.memBase = mb ∧ d.memSize = ms then d.memWr else 0,
            memRd := if d.memBase = mb ∧ d.memSize = ms then d.memRd else 0,
            memBase := mb, memSize := ms }
        let s := attachStream sid (createStream w pk) s
        s.answer t statusDone sid (sidingResult s sid)

/-- The siding that SDG_CREATE names; 0xFF is the lowest free one from 4 up (Table 08-5). -/
def createTarget (s : State) (pk : List Word) : Option Nat :=
  if param pk 24 8 = 0xFF then
    if paramBit pk 4 then none
    else (List.range 256).find? fun i => decide (4 ≤ i) && (s.siding i).state == 0
  else some (param pk 24 8)

/-- SDG_CREATE (R147, R148, R166): permissions first, then create, change or defer. A change that acts at once
supersedes a held one (R267). -/
def sdgCreate (pk : List Word) (t : Ticket) (s : State) : State :=
  let w := t.w
  match createTarget s pk with
  | none =>
    s.complete t (if paramBit pk 4 && w != 16 then statusNotPermitted else statusNoResource) 0 0
  | some sid =>
    let d := s.siding sid
    let free := paramBit pk 4
    if d.state = 0 then
      if free then s.complete t (if w = 16 then statusNoResource else statusNotPermitted) 0 0
      else if w != 16 && decide (sid < 4) then s.complete t statusNotPermitted 0 0
      else createSiding w sid pk t s
    else if barredPart s d.owner || (w != 16 && d.owner != w) then s.complete t statusNotPermitted 0 0
    else if d.state = 3 then s.complete t statusNoResource 0 0
    else if sidingIdle d then changeSiding w sid pk t (dropHeld (unitSiding sid) s)
    else defer (unitSiding sid) pk t s

def execSdgCreate (w : Nat) (s : State) : Host.Outcome State Fault Refusal :=
  next (issue 0x40 w sdgCreate s)

/-! ## Siding commands on a live siding -/

/-- The siding in param [7:0], if the sender may name it (R166); none of a partition in detach (R296). -/
def onSiding (pk : List Word) (t : Ticket) (act : Nat → State → State) (s : State) : State :=
  let sid := param pk 0 8
  let d := s.siding sid
  if barredPart s d.owner then s.complete t statusNotPermitted 0 0
  else if t.w = 16 then
    if isLive d then act sid s else s.complete t statusNoResource 0 0
  else if isLive d && d.owner == t.w then act sid s
  else s.complete t statusNotPermitted 0 0

/-- SDG_MARK (R154). -/
def sdgMark (pk : List Word) (t : Ticket) (s : State) : State :=
  onSiding pk t (fun sid s =>
    if (s.siding sid).consumer != 0 then s.complete t statusNotPermitted 0 0
    else
      let s := s.modSiding sid fun d => { d with mark := d.rd, markValid := true, markLost := false }
      s.complete t statusDone (s.siding sid).mark 0) s

def execSdgMark (w : Nat) (s : State) : Host.Outcome State Fault Refusal :=
  next (issue 0x41 w sdgMark s)

/-- SDG_REWIND (R156). -/
def sdgRewind (pk : List Word) (t : Ticket) (s : State) : State :=
  onSiding pk t (fun sid s =>
    let d := s.siding sid
    if d.consumer != 0 then s.complete t statusNotPermitted 0 0
    else if d.markValid then
      (s.modSdg sid fun d => { d with rd := d.mark, replay := [] }).complete t statusDone d.mark 0
    else
      (s.modSdg sid fun d => { d with rd := d.rel, replay := [], markLost := false }).complete t
        (if d.markLost then statusMarkLost else statusDone) d.rel 0) s

def execSdgRewind (w : Nat) (s : State) : Host.Outcome State Fault Refusal :=
  next (issue 0x42 w sdgRewind s)

/-- mem_rd after SDG_RELEASE on a memory siding (R162). -/
def clampMemRd (d : Siding) (t : Nat) : Nat :=
  let ring := 512 * 2 ^ d.memSize
  let dist := fun x y : Nat => (y + 2 ^ 32 - x % 2 ^ 32) % 2 ^ 32
  if dist d.memRd t ≤ dist d.memRd d.memWr then t
  else if dist t d.memRd ≤ ring then d.memRd else d.memWr

/-- SDG_RELEASE (R155, R156, R162). -/
def sdgRelease (pk : List Word) (t : Ticket) (s : State) : State :=
  onSiding pk t (fun sid s =>
    let d := s.siding sid
    if d.consumer = 0 then
      let target := if paramBit pk 31 then d.rd else clampRelease d (param pk 8 20)
      let s := s.modSdg sid (releaseTo s target)
      s.complete t statusDone (s.siding sid).rel (BitVec.ofNat 64 d.memRd)
    else if d.consumer = 1 && !paramBit pk 31 && param pk 8 20 == 0 then
      let s := s.modSiding sid fun d => { d with memRd := clampMemRd d (fld (pw pk 1) 0 32) }
      s.complete t statusDone d.rel (BitVec.ofNat 64 (s.siding sid).memRd)
    else s.complete t statusNotPermitted 0 0) s

def execSdgRelease (w : Nat) (s : State) : Host.Outcome State Fault Refusal :=
  next (issue 0x43 w sdgRelease s)

/-- SDG_FLUSH (R157): applied at once unless an earlier flush of the siding is under way; with discard it
completes at once. -/
def sdgFlush (pk : List Word) (t : Ticket) (s : State) : State :=
  onSiding pk t (fun sid s =>
    let f : Flush :=
      { ticket := t, discard := paramBit pk 8, point := 0, left := 0, moved := 0, applied := false }
    let first := (s.siding sid).flushes.isEmpty
    let s := (s.startLong t).modSiding sid fun d => { d with flushes := d.flushes ++ [f] }
    if first then
      let s := applyFlush sid f s
      if f.discard then flushComplete sid s else s
    else s) s

def execSdgFlush (w : Nat) (s : State) : Host.Outcome State Fault Refusal :=
  next (issue 0x44 w sdgFlush s)

/-- SDG_LEVEL (R163). -/
def sdgLevel (pk : List Word) (t : Ticket) (s : State) : State :=
  onSiding pk t (fun sid s =>
    let s := s.modSiding sid fun d =>
      { d with intEn := paramBit pk 31, intLevel := clamp 1 d.size (param pk 8 20) }
    let d := s.siding sid
    s.complete t statusDone d.avail (BitVec.ofNat 64 d.level)) s

def execSdgLevel (w : Nat) (s : State) : Host.Outcome State Fault Refusal :=
  next (issue 0x45 w sdgLevel s)

/-- SDG_WATERMARK, on sidings 0-3 only (R164, R166); lo is clamped against the clamped hi. -/
def sdgWatermark (pk : List Word) (t : Ticket) (s : State) : State :=
  if 4 ≤ param pk 0 8 then s.complete t statusNotPermitted 0 0
  else onSiding pk t (fun sid s =>
    let hi := clamp 32 248 (param pk 16 8)
    let lo := min (hi - 16) (param pk 8 8)
    let s := s.modSdg sid fun d => { d with wmEn := paramBit pk 24, hi := hi, lo := lo }
    s.complete t statusDone (hi * 256 + lo) 0) s

def execSdgWatermark (w : Nat) (s : State) : Host.Outcome State Fault Refusal :=
  next (issue 0x46 w sdgWatermark s)

/-- The interrupt condition of a siding (R163). -/
def sidingPending (d : Siding) : Bool := isLive d && d.intEn && decide (d.intLevel ≤ d.avail)

end Sys2Proof.Machine
end

