-- ==== Sys2Proof/Machine/Junction.lean ====
section
/-! DEFINITION. The Junction: frontiers, release, the epoch trailer, attribution to streams (chapter
"Junction merge and trace records"). -/

namespace Sys2Proof.Machine

/-! ## Frontiers -/

/-- Key order (R110). -/
def keyLt (a b : Nat × Nat) : Bool := decide (a.1 < b.1) || (a.1 == b.1 && decide (a.2 < b.2))

/-- A station in the merge: enumerated and not failed (R112). -/
def inMerge (s : State) (n : Nat) : Bool := s.enumerated n && (s.station n).st != .failed && (s.station n).st != .notEnum

/-- Treated as parked: parked, held in reset, or without its rail (R36, R112). -/
def asParked (x : Station) : Bool := x.st == .parked || x.inReset || x.vioOff

/-- A station's line-clear time (R112). -/
def stationTlc (s : State) (x : Station) : Nat := if asParked x then s.now - 2000 else x.tLc

/-- An internal source's line-clear time (R113); what the Signal Box has not yet received counts as owed. -/
def internalTlc (s : State) (k : Nat) : Nat :=
  let base := s.now - (if k = 4 then 1100 else 100)
  let owed := (s.jct.owed.filter fun o => o.src == srcOfInput k).map (·.due)
  let owed := if k = 4 then owed ++ s.sbx.inbox.map (·.time) else owed
  owed.foldl min base

/-- What a source owes comes before a record of it: an earlier due time, or the same one under a lower key. -/
def owedBefore (o : Owed) (r : Rec) : Bool := decide (o.due < r.ts) || (o.due == r.ts && decide (o.key < r.key))

/-- The record that an internal source has handed over: the head of its records, unless it owes one that comes
before it (R68, R109, R113). -/
def internalHead (s : State) (k : Nat) : Option Rec :=
  match (s.jct.intIn.getD k []).head? with
  | some r => if s.jct.owed.any (fun o => o.src == srcOfInput k && owedBefore o r) then none else some r
  | none => none

/-- A source of the merge: its index, its frontier, and the record at the head of its input (R111). -/
def sources (s : State) : List (Nat × (Nat × Nat) × Option Rec) :=
  ((List.range 64).filter (inMerge s)).map (fun n =>
    match (s.jct.stnIn.getD n []).head? with
    | some r => (n, (r.ts, n), some r)
    | none => (n, (stationTlc s (s.station n), n), none))
  ++ (List.range 6).map (fun k =>
    let i := srcOfInput k
    match internalHead s k with
    | some r => (i, (r.ts, i), some r)
    | none => (i, (internalTlc s k, i), none))

/-- The source with the lowest frontier. -/
def lowest : List (Nat × (Nat × Nat) × Option Rec) → Option (Nat × (Nat × Nat) × Option Rec)
  | [] => none
  | x :: r => match lowest r with
    | none => some x
    | some y => if keyLt y.2.1 x.2.1 then some y else some x

/-- A boundary whose time has come is passed before any further record is released. -/
def boundaryDue (s : State) : Bool :=
  match s.ttb.announced with
  | some b => decide (b.t ≤ s.now)
  | none => false

/-! ## Attribution -/

/-- A stream is enabled (R123): it has a siding or an export session, and a mirror needs its grant. -/
def streamEnabled (s : State) (i : Nat) : Bool :=
  let st := s.myd.streams.getD i Stream.reset
  (bit st.cfg 39 || bit st.cfg 38) && (decide (i ≤ 16) || (s.part (i - 17)).mirror)

/-- The tenants that an FLT record names (R122). -/
def fltNames (s : State) (r : Rec) : List Nat :=
  let sub := r.specific / 2 ^ 24 % 64
  let cause := r.specific / 2 ^ 16 % 256
  let engine := r.specific / 2 ^ 8 % 256
  let detail := (r.body.getD 0 0).toNat
  let ctx := fun c => s.ctxOwner (c % 32)
  let all :=
    if r.injected && (sub == 8 || sub == 9) then []
    else if sub = 1 then
      if cause = 1 ∨ cause = 2 ∨ cause = 6 then r.ctxs.map ctx
      else if cause = 3 then [ctx (detail / 2 ^ 16)]
      else if cause = 5 then [ctx detail]
      else if cause = 4 then [ctx (detail / 2 ^ 8), ctx detail] else []
    else if sub = 4 then
      if cause = 2 ∨ cause = 3 then [ctx (detail / 2 ^ 15)]
      else if cause = 4 then [engine] else []
    else if sub = 5 then [if engine < 16 then engine else if 17 ≤ engine then engine - 17 else 16]
    else if sub = 6 then [(s.siding engine).owner]
    else if sub = 7 && cause = 4 then
      ((s.ilk.keys.filterMap id).filter fun k => k.bundle == detail / 2 ^ 32).map (·.owner)
    else if sub = 11 && cause = 2 then [engine]
    else if sub = 8 || sub = 9 || sub = 10 then [r.owner]
    else []
  (all.filter (· < 16)).eraseDups

/-- The tenant streams and Root stream to which a record belongs (R122). -/
def baseStreams (s : State) (r : Rec) : List Nat :=
  if r.type = 8 then 16 :: fltNames s r
  else if r.type = 4 then 16 :: ((r.ctxs.map s.ctxOwner).filter (· < 16)).eraseDups
  else if r.type = 1 ∨ r.type = 2 ∨ r.type = 3 ∨ r.type = 7 then [s.ctxOwner r.ctx]
  else [r.owner]

/-- All streams of a record: a mirror carries a copy of its tenant stream, and every enabled stream an EPO
record (R122, R123). -/
def streamsOf (s : State) (r : Rec) : List Nat :=
  (if r.type = 5 then List.range 33
  else
    let b := baseStreams s r
    b ++ (b.filter (· < 16)).map (· + 17)).filter (streamEnabled s)

/-- One copy's destination under the configuration in force (Table 06-15). -/
def destOf (s : State) (i : Nat) : Dest :=
  let st := s.myd.streams.getD i Stream.reset
  { stream := i, siding := streamSiding st, exp := bit st.cfg 38, comp := bit st.cfg 37,
    trailer := bit st.cfg 36 }

/-! ## Epoch status and trailer -/

/-- No verdict deadline of epoch `e` lies ahead: no open frame window and no uncommitted work item of it,
and its last due time has passed (R70). -/
def verdictsDone (s : State) (e : Nat) : Bool :=
  !(s.wtp.windows.any fun x => x.opened && x.epoch == e && !x.closed) && !(s.wtp.items.any fun x => x.epoch == e)
    && (match s.stat e with | some x => decide (x.lastDue ≤ s.now) | none => true)

/-- The status of an epoch as known (R121). -/
def statusBits (x : EpochStat) : Nat := packN [(2, 1, b2n x.loss), (1, 1, b2n x.late), (0, 1, b2n x.fault)]

/-- The epoch of a record for R69. -/
def recEpoch (s : State) (r : Rec) : Nat := r.own.getD (s.epochAt r.ts)

def knownTiming (s : State) (r : Rec) : Bool :=
  match s.stat (recEpoch s r) with
  | some x => x.loss || x.late || x.fault
  | none => false

/-- The nibble for an earlier epoch in the EPO record of `e`: final once, in the first EPO record after
the status closed (R121). -/
def olderNibble (s : State) (e k : Nat) : Nat :=
  match s.stat ((e + 2 ^ 32 - k) % 2 ^ 32) with
  | some x => statusBits x + (if x.final && !x.told then 8 else 0)
  | none => 0

/-- Words 2-8 of the EPO record of epoch `e` at its emission (Table 06-14); W9 is each stream's own. -/
def epoBody (s : State) (e : Nat) : List Word :=
  match s.stat e with
  | none => List.replicate 7 0
  | some x =>
    let own := statusBits x + (if verdictsDone s e then 8 else 0)
    let key := if x.firstGen = x.lastGen then (0, 0, 0) else x.switchKey.getD (0, 0, 0)
    [BitVec.ofNat 64 x.openedAt, pack [(32, 32, x.lastGen), (0, 32, x.firstGen)], BitVec.ofNat 64 x.fp,
      pack [(59, 5, x.quality), (0, 4, own)],
      pack [(12, 4, olderNibble s e 4), (8, 4, olderNibble s e 3), (4, 4, olderNibble s e 2),
        (0, 4, olderNibble s e 1)],
      BitVec.ofNat 64 key.1, pack [(57, 7, key.2.1), (0, 32, key.2.2)]]

/-- Verdict events received against those planned, when the status of the epoch closes (R219). -/
def verdictCheck (x : EpochStat) (s : State) : State :=
  if x.received = x.planned then s else s.raise 8 9 0 (x.epoch * 2 ^ 32 + (x.planned - x.received))

/-- Emission of the EPO record of epoch `e`: its own status may be final with it, and the nibbles of
older epochs have been told (R70, R121). -/
def noteEmission (e : Nat) (s : State) : State :=
  let done := verdictsDone s e
  let s := match s.stat e with
    | some x => if done && !x.final then verdictCheck x s else s
    | none => s
  { s with ttb := { s.ttb with stats := s.ttb.stats.map fun x =>
      if x.epoch == e then { x with emitted := true, final := x.final || done, told := x.told || done }
      else if x.final && decide ((e + 2 ^ 32 - x.epoch) % 2 ^ 32 ≤ 4) then { x with told := true }
      else x } }

/-- The status of an epoch closes at the later of its EPO emission and its last verdict deadline (R70). -/
def closeStatus (s : State) : State :=
  let closing := s.ttb.stats.filter fun x => x.emitted && !x.final && verdictsDone s x.epoch
  let f := fun x : EpochStat => if x.emitted && !x.final && verdictsDone s x.epoch then { x with final := true } else x
  forEach closing verdictCheck { s with ttb := { s.ttb with stats := s.ttb.stats.map f } }

def execEpochStatusClose (s : State) : Host.Outcome State Fault Refusal := next (when s.core closeStatus s)

/-! ## Release -/

/-- The key of the first record after a switch-over point (R116, R278). -/
def noteSwitch (r : Rec) (s : State) : State :=
  let s := if s.jct.switchWait then
      { s with
        jct := { s.jct with switchWait := false },
        ilk := { s.ilk with switchTs := r.ts, switchSrc := r.src, switchSeq := r.seq } }
    else s
  { s with ttb := { s.ttb with stats := s.ttb.stats.map fun x =>
      if x.awaitKey then { x with awaitKey := false, switchKey := some (r.ts, r.src, r.seq) } else x } }

/-- The head of a source's input leaves it. The time during which a station's input held a record does not
count toward its failure (R105), and it does not delay its line-clear token (R104). A verdict that the full record
store held back takes the place of one released (R220). -/
def popSource (src : Nat) (s : State) : State :=
  if src < 64 then
    let s := { s with jct := { s.jct with stnIn := s.jct.stnIn.modify src fun q => q.drop 1 } }
    if (s.jct.stnIn.getD src []).isEmpty then s.modStation src fun x => { x with clearAt := s.now } else s
  else
    let k := if src = 127 then 5 else src - 64
    let s := { s with jct := { s.jct with intIn := s.jct.intIn.modify k fun q => q.drop 1 } }
    if k = 1 then s.refillVrd else s

/-- fault_named of each tenant that an FLT record names (R284). -/
def noteFaultNamed (ps : List Nat) (s : State) : State :=
  forEach ps (fun p s => s.modPart p fun x => { x with pint := x.pint ||| 4#3 }) s

/-- A record leaves the Junction (R69, R111, R116): its key may end a switch-over, an EPO record takes its
fields, and its attribution follows the table and configuration in force. -/
def releaseRec (r : Rec) (s : State) : State :=
  let s := noteSwitch r (popSource r.src s)
  let e := recEpoch s r
  let r := { r with timing := knownTiming s r }
  let r := if r.type = 5 then { r with body := epoBody s e } else r
  let r := { r with dests := (streamsOf s r).map (destOf s) }
  let s := if r.type = 5 then noteEmission e s else s
  let s := if r.type = 8 then noteFaultNamed (fltNames s r) s else s
  { s with jct := { s.jct with released := r.ts }, myd := { s.myd with inq := s.myd.inq ++ [r] } }

/-- One release: the record with the lowest frontier, while the Marshalling Yard accepts it (R111,
R115). -/
def junctionRelease (s : State) : State :=
  if !s.myd.inq.isEmpty || boundaryDue s then s
  else match lowest (sources s) with
    | some (_, _, some r) => releaseRec r s
    | _ => s

/-- The due time of an internal record passes with the record still owed (R113). -/
def recordOverdue (k : Nat) (s : State) : State :=
  match takeFirst (fun o : Owed => o.src == srcOfInput k && heldPast s o) s.jct.owed with
  | none => s
  | some (o, rest) =>
    ({ s with jct := { s.jct with owed := { o with counted := true } :: rest } } : State).countOverdue [o]

def execInternalRecordOverdue (src : Nat) (s : State) : Host.Outcome State Fault Refusal :=
  next (when s.core (recordOverdue src) s)

/-! ## Routes -/

/-- Home track (R19). -/
def homeTrack (n : Nat) : Nat := n / 16

/-- The number of the source that holds the merge (JCT_STATUS). -/
def holdingSrc (s : State) : Nat :=
  match lowest (sources s) with
  | some x => x.1
  | none => 0

end Sys2Proof.Machine
end

