-- ==== Sys2Proof/Machine/Stations.lean ====
section
/-! DEFINITION. The probe stations: sampling, delta banks, tags and contexts, snoop windows, records, the
capture buffer, parking and failure, and the station commands (chapter "Probe stations"). -/

namespace Sys2Proof.Machine

/-! ## Fields -/

def stnLcNs (x : Station) : Nat := fld x.cfg 36 8 * 100
def stnDefaultCtx (x : Station) : Nat := fld x.cfg 27 5
def stnHi (x : Station) : Nat := fld x.cfg 16 8
def stnLo (x : Station) : Nat := fld x.cfg 8 8
def stnOpShare (x : Station) : Nat := fld x.cfg 4 4
def stnAccEn (x : Station) : Bool := bit x.cfg 3
def stnSnoopEn (x : Station) : Bool := bit x.cfg 2
def stnTraceEn (x : Station) : Bool := bit x.cfg 1
def stnCountEn (x : Station) : Bool := bit x.cfg 0

/-- STN_CFG after its clamps (Table 05-3); acc_en needs the accumulator tap (R99). -/
def clampStnCfg (tap : Bool) (w : Word) : Word :=
  let hi := clamp 128 248 (fld w 16 8)
  pack [(36, 8, clamp 1 100 (fld w 36 8)), (27, 5, fld w 27 5), (16, 8, hi),
    (8, 8, clamp 64 (hi - 16) (fld w 8 8)), (4, 4, fld w 4 4), (3, 1, if tap then fld w 3 1 else 0),
    (0, 3, fld w 0 3)]

/-- Reserved bits of selectors, tag-map entries, thresholds and windows read 0 (Tables 05-4 to 05-10). -/
def clampEvsel (w : Word) : Word :=
  pack ((List.range 4).flatMap fun k => [(16 * k + 14, 2, fld w (16 * k + 14) 2), (16 * k, 9, fld w (16 * k) 9)])
def clampTagmap (w : Word) : Word := pack [(47, 1, fld w 47 1), (32, 5, fld w 32 5), (0, 32, fld w 0 32)]
def clampThresh (w : Word) : Word := pack [(0, 48, fld w 0 48)]
def clampWinAddr (w : Word) : Word := pack [(6, 42, fld w 6 42)]
def clampWinCtl (w : Word) : Word :=
  pack [(48, 16, fld w 48 16), (38, 2, if fld w 38 2 = 3 then 0 else fld w 38 2), (33, 5, fld w 33 5),
    (0, 16, max 1 (fld w 0 16))]

/-! ## Contexts -/

/-- The lowest-numbered tag-map entry that matches (R94). -/
def tagEntry (x : Station) (tag : Nat) : Option Nat :=
  (List.range 32).find? fun i =>
    let e := x.tagmap.getD i 0
    bit e 47 && (tag &&& fld e 16 16) == (fld e 0 16 &&& fld e 16 16)

def tagCtx (x : Station) (tag : Nat) : Nat :=
  match tagEntry x tag with
  | some i => fld (x.tagmap.getD i 0) 32 5
  | none => stnDefaultCtx x

/-! ## Delta banks -/

/-- An empty bank is free: eight banks, one of them active (R89). -/
def bankFree (x : Station) : Bool := decide (x.vacated.length < 7)

/-- The active bank is vacated, with the end-of-epoch mark at a boundary, and an empty one takes over
(R89, R131). -/
def swapBank (ctx epoch now : Nat) (mark : Bool) (x : Station) : Station :=
  { x with
    vacated := x.vacated ++ [{ x.active with mark := mark }],
    active := { Bank.reset with ctx := ctx, epoch := epoch, since := now },
    curCtx := ctx, used := if x.used.contains ctx then x.used else x.used ++ [ctx] }

/-- The deltas of a bank as it hands them over: those with a parity error become count-lost (R105), and count-lost
markings of the station follow in the order of the banks (R131). -/
def bankDeltas (b : Bank) (bad : List Nat) : List Delta :=
  (b.deltas.map fun d =>
    { ctx := b.ctx, ev := d.1, count := if bad.contains d.1 then 0 else d.2, epoch := b.epoch,
      mark := false, lost := bad.contains d.1 })
  ++ b.lost
  ++ (if b.mark then [{ ctx := b.ctx, ev := 0, count := 0, epoch := b.epoch, mark := true, lost := false }]
    else [])

/-- Count-lost on the given events of a station in one context and epoch (R35, R88, R92). -/
def lostDeltas (ctx epoch : Nat) (evs : List Nat) : List Delta :=
  evs.map fun e => { ctx := ctx, ev := e, count := 0, epoch := epoch, mark := false, lost := true }

def allEvents : List Nat := List.range 512

/-- The active bank holds no count, and no counted edge has come since it became active: a further trigger on
this edge makes no second swap (R89). -/
def justSwapped (x : Station) : Bool := x.active.deltas.isEmpty && decide (x.lastStamp < x.active.since)

/-- The active bank counts under another context, with no swap. -/
def relabel (ctx : Nat) (x : Station) : Station :=
  { x with
    active := { x.active with ctx := ctx }, curCtx := ctx,
    used := if x.used.contains ctx then x.used else x.used ++ [ctx] }

/-- Count-lost markings go with the active bank, behind every bank already vacated (R131). -/
def noteLost (ds : List Delta) (x : Station) : Station :=
  { x with active := { x.active with lost := x.active.lost ++ ds } }

/-- With every bank flushed the change of context that waited takes place (R92). -/
def settleLate (x : Station) : Station :=
  match x.lateCtx with
  | some c => { relabel c x with lateCtx := none }
  | none => x

/-- The context change that waited for an empty bank takes place (R92). -/
def lateSwap (epoch now : Nat) (x : Station) : Station :=
  match x.lateCtx with
  | some c => if bankFree x then { swapBank c epoch now false x with lateCtx := none } else x
  | none => x

/-- Events count once a first boundary has passed since PORST_N: no count exists before it (R74, R146). -/
def countsRun (s : State) : Bool := s.stationsRun && s.ttb.anyBoundary

/-- The active bank has been active for 8 µs (R89). -/
def execDeltaBankTimer (n : Nat) (s : State) : Host.Outcome State Fault Refusal :=
  let x := s.station n
  next (when (countsRun s && x.addressed && bankFree x && decide (x.active.since + 8000 ≤ s.now))
    (fun s => s.modStation n (swapBank x.curCtx s.ttb.epoch s.now false)) s)

/-- The oldest vacated bank has handed over and is free (R89, R92, R105). -/
def bankHandedOver (n : Nat) (bad : List Nat) (s : State) : State :=
  match (s.station n).vacated with
  | [] => s
  | b :: rest =>
    let errs := (b.deltas.map (·.1)).filter fun e => bad.contains e
    let s := forEach errs (fun e s => s.raise 1 3 n (b.ctx * 2 ^ 16 + e)) s
    s.modStation n fun x =>
      lateSwap s.ttb.epoch s.now { x with vacated := rest, link := x.link ++ bankDeltas b bad }

def execDeltaBankHandoverEnd (n : Nat) (badParity : List Nat) (s : State) :
    Host.Outcome State Fault Refusal :=
  next (when s.stationsRun (bankHandedOver n badParity) s)

/-- A station reports that deltas were lost: every counter of it in every context concerned (R35). -/
def flushLost (n : Nat) (s : State) : State :=
  let x := s.station n
  let banks := x.vacated ++ [x.active]
  let ctxs := (banks.map (·.ctx)).eraseDups
  let s := forEach ctxs (fun c s => s.raise 1 5 n c) s
  s.modStation n fun x =>
    settleLate { x with
      flushInc := true, vacated := [],
      link := x.link ++ banks.flatMap fun b =>
        lostDeltas b.ctx b.epoch allEvents ++ bankDeltas { b with deltas := [] } [],
      active := { x.active with deltas := [], lost := [] } }

/-- Deltas that a stopped station has not flushed (R33, R35): with 1024 quiet cycles the flush is
complete, else they are lost. -/
def finalFlush (n : Nat) (s : State) : State :=
  let x := s.station n
  if 1024 ≤ x.quiet || (x.vacated ++ [x.active]).all (·.deltas.isEmpty) then
    s.modStation n fun x =>
      settleLate { x with
        vacated := [], active := { x.active with deltas := [], lost := [] },
        link := x.link ++ (x.vacated ++ [x.active]).flatMap fun b => bankDeltas b [] }
  else flushLost n s

/-! ## The capture buffer -/

def traceSize (x : Station) : Nat := 8192 - stnOpShare x * 512
def opSize (x : Station) : Nat := stnOpShare x * 512

/-- Words of a stored record: base words and the trailer it is formed with (R72, Table 06-4). -/
def recWords (r : Rec) : Nat := 2 + r.body.length + (if r.type = 4 then 0 else 1)

/-- Words of an operand item; the spec gives a gap marker no size. -/
def opWords : OpItem → Nat
  | .snoop .. => 8
  | .acc .. => 16
  | .gap .. => 0

def traceFill (x : Station) : Nat := sumOf recWords x.trace
def opFill (x : Station) : Nat := sumOf opWords x.op

/-- Dropping ends when the fill has fallen to lo_mark (R101). -/
def settleDrops (x : Station) : Station :=
  { x with
    dropTrace := x.dropTrace && decide (stnLo x * traceSize x < traceFill x * 256),
    dropOp := x.dropOp && decide (stnLo x * opSize x < opFill x * 256) }

/-- The LOSS record of R101 or R102 (Table 06-8). -/
def stnLossRec (n cause ts : Nat) (d : Drops) (x : Station) : Rec :=
  { mkRec 4 ts n n (cause % 4 * 2 ^ 30 + sat 30 d.trace)
      [BitVec.ofNat 64 d.lastStamp, pack [(32, 32, sat 32 d.operand), (0, 32, d.firstSeq)]] with
    seq := x.seq, ctx := x.curCtx, ctxs := x.used }

/-- A record joins the trace region and takes the next number. -/
def putTrace (r : Rec) (x : Station) : Station :=
  { x with trace := x.trace ++ [{ r with seq := x.seq }], seq := wrap 32 (x.seq + 1) }

/-- The stamp of a LOSS record of R101: that of the first record it reports (R100). DESIGN CHOICE: one that
reports operand beats only has no such record; it carries the first beat's stamp, but none before a record or
token of the station already on its way (R104, R109). -/
def lossStamp (x : Station) (d : Drops) : Nat :=
  if 0 < d.trace then d.firstStamp else x.trace.foldl (fun t r => max t r.ts) (max d.firstStamp x.tLc)

/-- The LOSS record due under R101 is formed before the next item once dropping has ended: the dropping of trace
records, or that of operand beats where it reports them alone. DESIGN CHOICE: it is formed whatever trace_en is,
for Table 05-3 names the EVT, TAG and SNP records only. -/
def dueLoss (n : Nat) (x : Station) : Station :=
  let x := settleDrops x
  match x.drops with
  | some d =>
    if x.dropTrace || (d.trace == 0 && x.dropOp) then x
    else { putTrace (stnLossRec n 0 (lossStamp x d) d x) x with drops := none }
  | none => x

/-- Drops not yet reported: firstSeq and firstStamp are those of the first trace record among them. DESIGN CHOICE:
first_seq is 0 in a LOSS record that reports operand beats only. -/
def addDrop (trace operand seq stamp : Nat) (d : Option Drops) : Option Drops :=
  match d with
  | some d =>
    let first := d.trace == 0 && decide (0 < trace)
    some { d with
      trace := d.trace + trace, operand := d.operand + operand, lastStamp := max d.lastStamp stamp,
      firstSeq := if first then seq else d.firstSeq, firstStamp := if first then stamp else d.firstStamp }
  | none => some {
      trace := trace, operand := operand, firstSeq := if trace = 0 then 0 else seq,
      firstStamp := stamp, lastStamp := stamp }

/-- The drops of `b` follow those of `a`. -/
def joinDrops (a b : Option Drops) : Option Drops :=
  match a, b with
  | none, b => b
  | a, none => a
  | some a, some b => some {
      trace := a.trace + b.trace, operand := a.operand + b.operand,
      firstSeq := if a.trace = 0 then b.firstSeq else a.firstSeq,
      firstStamp := if a.trace = 0 && decide (0 < b.trace) then b.firstStamp else a.firstStamp,
      lastStamp := max a.lastStamp b.lastStamp }

/-- A loss counter advances in the epoch of the item's stamp (R69, R103). -/
def lossAt (stamp : Nat) (s : State) : State := s.modStat (s.epochAt stamp) fun e => { e with loss := true }

/-- A station forms a trace record: stored whole, or dropped with its number taken (R100, R101). -/
def formTrace (n : Nat) (r : Rec) (s : State) : State :=
  let s := s.modStation n (dueLoss n)
  let x := s.station n
  if !x.dropTrace && decide ((traceFill x + recWords r) * 256 ≤ stnHi x * traceSize x) then
    s.modStation n (putTrace r)
  else
    lossAt r.ts (s.modStation n fun x =>
      { x with
        dropTrace := true, drops := addDrop 1 0 x.seq r.ts x.drops, seq := wrap 32 (x.seq + 1),
        lostTrace := wrap 32 (x.lostTrace + 1) })

/-- A dropped beat leaves a gap marker that names the window and the offset (R101). -/
def addGap (it : OpItem) (q : List OpItem) : List OpItem :=
  match it with
  | .snoop stamp ctx win _ off pitch _ _ c w p =>
    let b : GapBeat := { offset := off, stamp := stamp, pitch := pitch, starts := [] }
    match q.getLast? with
    | some (.gap c' win' bs k u v) =>
      if c' = ctx ∧ win' = win ∧ k = c ∧ u = w ∧ v = p then q.dropLast ++ [.gap c' win' (bs ++ [b]) k u v]
      else q ++ [.gap ctx win [b] c w p]
    | _ => q ++ [.gap ctx win [b] c w p]
  | .acc stamp ctx index starts _ =>
    q ++ [.gap ctx 8 [{ offset := index, stamp := stamp, pitch := 1, starts := starts }] true false false]
  | .gap .. => q ++ [it]

def opStamp : OpItem → Nat
  | .snoop t .. => t
  | .acc t .. => t
  | .gap _ _ bs .. => (bs.map (·.stamp)).headD 0

/-- A beat is stored whole in the operand region or dropped (R101). -/
def formOp (n : Nat) (it : OpItem) (s : State) : State :=
  let s := s.modStation n (dueLoss n)
  let x := s.station n
  if !x.dropOp && decide ((opFill x + opWords it) * 256 ≤ stnHi x * opSize x) then
    s.modStation n fun x => { x with op := x.op ++ [it] }
  else
    lossAt (opStamp it) (s.modStation n fun x =>
      { x with
        dropOp := true, drops := addDrop 0 1 0 (opStamp it) x.drops, op := addGap it x.op,
        lostOp := wrap 32 (x.lostOp + 1) })

/-! ## Snoop windows -/

def winEn (c : Word) : Bool := bit c 33
def winPitch (c : Word) : Nat := fld c 0 16

/-- The lowest-numbered window that a beat belongs to (R96). -/
def snoopWindow (x : Station) (b : SnoopIn) : Option Nat :=
  (List.range 8).find? fun w =>
    let v := x.win.getD w SnoopWin.reset
    let a := b.addr.toNat / 64
    winEn v.ctl && decide (fld v.base 6 42 ≤ a) && decide (a ≤ fld v.limit 6 42)
      && (b.attr.toNat &&& fld v.ctl 56 8) == (fld v.ctl 48 8 &&& fld v.ctl 56 8)

/-- Beat offset within a window (R97). -/
def beatOffset (v : SnoopWin) (addr : BitVec 48) : Nat := addr.toNat / 64 - fld v.base 6 42

/-- The sample filter (R97). -/
def passesFilter (v : SnoopWin) (o : Nat) : Bool :=
  !bit v.ctl 34 || (bit v.row (o / winPitch v.ctl % 64) && bit v.col (o % winPitch v.ctl % 64))

/-! ## One edge -/

/-- Events true at an edge: the event inputs and the synthetic events of the comparators (R30, R93). -/
def edgeEvents (x : Station) (inp : StnInputs) : BitVec 512 :=
  let syn := (List.range 64).filter fun i =>
    decide (fld (x.thresh.getD (i / 4) 0) (12 * (i % 4)) 12 < (inp.occ.getD (i / 4) 0).toNat)
  BitVec.ofNat 512 (inp.ev.toNat + 2 ^ 448 * maskOf syn)

/-- The delta of each counted event grows by 1. -/
def countEvents (ev : Nat) (b : Bank) : Bank :=
  { b with deltas := (bitsOf 512 ev).foldl (fun l e => store 0 e (look 0 e l + 1) l) b.deltas }

/-- The selectors that fire (Table 05-5, R382). -/
def fired (x : Station) (ev : BitVec 512) : Nat :=
  maskOf ((List.range 8).filter fun k =>
    let w := if k < 4 then fld x.evselLo (16 * k) 16 else fld x.evselHi (16 * (k - 4)) 16
    let e := w % 512
    w.testBit 15 && ev.getLsbD e && !(w.testBit 14 && x.prevEv.getLsbD e))

/-- No record is formed in a context of a partition that detaches (R104, Table 15-7 step 3). -/
def ctxStopped (s : State) (c : Nat) : Bool :=
  decide (s.ctxOwner c < 16) && (s.part (s.ctxOwner c)).state != 1

/-- Records of a context are formed while trace_en is 1, epochs run and the station is in the merge (R74,
R100, R104). -/
def forms (s : State) (n ctx : Nat) : Bool :=
  let x := s.station n
  s.ttb.running && stnTraceEn x && x.st == .running && !ctxStopped s ctx

/-- A context overrun (R92): the station keeps its context until a bank is free, and both contexts are marked.
DESIGN CHOICE: each further tag that finds no empty bank is a context overrun of its own, also where it maps to
the context that already waits. -/
def ctxOverrunTo (n c : Nat) (s : State) : State :=
  let x := s.station n
  let s := s.raise 1 4 n (x.curCtx * 2 ^ 8 + c)
  s.modStation n fun x =>
    { noteLost (lostDeltas x.curCtx s.ttb.epoch allEvents ++ lostDeltas c s.ttb.epoch allEvents) x with
      lateCtx := some c, ctxOverrun := sat 16 (x.ctxOverrun + 1) }

/-- The context that a change finds no empty bank for (R92). -/
def changeIsLate (x : Station) (c : Nat) : Bool := c != x.curCtx && !justSwapped x && !bankFree x

/-- The mapped context becomes `c` (R89, R92): one swap where two triggers fall on one edge. -/
def changeCtx (n c : Nat) (s : State) : State :=
  let x := s.station n
  if c = x.curCtx then s.modStation n fun x => { x with lateCtx := none }
  else if justSwapped x then s.modStation n fun x => { relabel c x with
    lateCtx := none, used := if x.active.since = s.ttb.epochT then [c] else (relabel c x).used }
  else if bankFree x then
    s.modStation n fun x => { swapBank c s.ttb.epoch s.now false x with lateCtx := none }
  else ctxOverrunTo n c s

/-- A taken tag (R92, R94): the context changes at this edge, or late where no empty bank is free. -/
def takeTag (n stamp tag : Nat) (s : State) : State :=
  let x := s.station n
  let c := tagCtx x tag
  let late := changeIsLate x c
  let s := changeCtx n c (s.modStation n fun x => { x with curTag := tag, tagTaken := true, accIndex := 0 })
  if forms s n c then
    let e := tagEntry x tag
    formTrace n { mkRec 3 stamp n n (packN [(16, 16, tag), (8, 5, c), (7, 1, b2n late), (6, 1, b2n e.isNone),
      (0, 5, e.getD 0)]) [] with ctx := c } s
  else s

/-- Before the first tag the context is default_ctx, also where a COMMIT within an epoch changes it (R94). -/
def followDefault (n : Nat) (s : State) : State :=
  let x := s.station n
  if s.enumerated n && x.measuring.isNone && !x.tagTaken then changeCtx n (stnDefaultCtx x) s else s

/-- An EVT record (Table 06-5). -/
def evtRec (n stamp ctx mask : Nat) : Rec :=
  { mkRec 1 stamp n n (packN [(16, 5, ctx), (0, 8, mask)]) [] with ctx := ctx }

/-- An SNP record (Table 06-7). -/
def snpRec (n stamp ctx w : Nat) (b : SnoopIn) (withData : Bool) : Rec :=
  { mkRec 2 stamp n n (packN [(24, 8, b.attr.toNat), (21, 3, w), (16, 5, ctx), (0, 1, b2n withData)])
      (BitVec.ofNat 64 b.addr.toNat :: if withData then
        (List.range 8).map fun i => BitVec.ofNat 64 (b.data.toNat / 2 ^ (64 * i)) else []) with
    ctx := ctx }

/-- Operand beats are formed while epochs run and the station is in the merge: none carries a stamp from before
the first boundary (R74, R102). -/
def takesOperands (s : State) (n : Nat) : Bool := s.ttb.running && (s.station n).st == .running

/-- A snoop beat (R96-R98). -/
def takeSnoop (n stamp : Nat) (b : SnoopIn) (s : State) : State :=
  let x := s.station n
  if !stnSnoopEn x then s
  else match snoopWindow x b with
    | none => s
    | some w =>
      let v := x.win.getD w SnoopWin.reset
      let o := beatOffset v b.addr
      let pass := passesFilter v o
      let op := decide (0 < stnOpShare x)
      let c := op && pass && bit v.ctl 37
      let u := op && pass && bit v.ctl 36
      let p := op && bit v.ctl 35
      let tr := fld v.ctl 38 2
      let s := if tr != 0 && forms s n x.curCtx then formTrace n (snpRec n stamp x.curCtx w b (tr == 2)) s else s
      if (c || u || p) && takesOperands s n then
        formOp n (.snoop stamp x.curCtx w b.addr o (winPitch v.ctl) b.attr b.data c u p) s
      else s

/-- An accumulator beat (R99); the beat of index 0 begins a tap run, delivered or not (R202). -/
def takeAcc (n stamp : Nat) (d : BitVec 1024) (s : State) : State :=
  let x := s.station n
  if !(stnAccEn x && s.params.accTapEn.getLsbD n) then s
  else
    let i := x.accIndex
    let starts := if i = 0 then x.accStarts ++ [(x.curCtx, stamp)] else x.accStarts
    let s := s.modStation n fun x => { x with accIndex := x.accIndex + 1, accStarts := starts }
    if bit x.accFilt (i % 64) && decide (0 < stnOpShare x) && takesOperands s n then
      formOp n (.acc stamp x.curCtx i starts d) (s.modStation n fun x => { x with accStarts := [] })
    else s

/-- Items that a station discards when it runs again, and the LOSS record of cause 0b01 (R102). -/
def resumeStation (n stamp : Nat) (s : State) : State :=
  let x := s.station n
  let beats := x.op.filter fun i => opWords i != 0
  let d := joinDrops (x.trace.foldl (fun d r => addDrop 1 0 r.seq r.ts d) none) x.drops
  let d := beats.foldl (fun d i => addDrop 0 1 0 (opStamp i) d) d
  let s := forEach (x.trace.map (·.ts) ++ beats.map opStamp) lossAt s
  let s := s.modStation n fun x =>
    { x with
      trace := [], op := x.op.foldl (fun q i => addGap i q) [], dropTrace := false, dropOp := false,
      drops := none, resumes := false, prevEv := 0,
      lostTrace := wrap 32 (x.lostTrace + x.trace.length),
      lostOp := wrap 32 (x.lostOp + beats.length) }
  match d with
  | some d => s.modStation n fun x => putTrace (stnLossRec n 1 stamp d x) x
  | none => s

/-- No event and no valid input at an edge (R33). -/
def quietInput (inp : StnInputs) : Bool :=
  inp.ev == 0 && inp.snoop.isNone && inp.tag.isNone && inp.acc.isNone

/-- A counted edge (R30, R89, R94, R109): tag first, then the counts, then the records in their order. A station
that has not yet left the parked state counts and stamps no record (R34). -/
def countedEdge (n stamp : Nat) (inp : StnInputs) (s : State) : State :=
  let s := if (s.station n).resumes && (s.station n).st == .running then resumeStation n stamp s else s
  let ev := edgeEvents (s.station n) inp
  let s := withSome inp.tag (fun t => takeTag n stamp t.toNat) s
  let s := if countsRun s && stnCountEn (s.station n) then
      s.modStation n fun x => { x with active := countEvents ev.toNat x.active }
    else s
  let ctx := (s.station n).curCtx
  let mask := fired (s.station n) ev
  let s := if mask != 0 && forms s n ctx then formTrace n (evtRec n stamp ctx mask) s else s
  let s := withSome inp.snoop (takeSnoop n stamp) s
  let s := withSome inp.acc (takeAcc n stamp) s
  s.modStation n fun x =>
    { x with
      prevEv := ev, lastStamp := stamp, lastEdge := s.now,
      quiet := if quietInput inp then x.quiet + 1 else 0 }

/-- How far a station stamp can lie from block time when the edge comes (R31, R79): one STN_CLK period of at most
10 ns, 2 ns, and the TIME_CLK period in which block time advances. -/
def stampSlack (s : State) : Nat := 12 + (1000 + fld s.ttb.cfg 0 8 - 1) / fld s.ttb.cfg 0 8

/-- A stamp that an edge can carry now (R75, R79, R80, R83): near block time, not before the station's last one,
the epoch or the last step, and before an announced boundary, which the edge would follow. -/
def stampFits (s : State) (x : Station) (stamp : Nat) : Bool :=
  decide (stamp ≤ s.now + stampSlack s) && decide (s.now ≤ stamp + stampSlack s)
    && decide (x.lastStamp ≤ stamp) && decide (s.ttb.stepTo ≤ stamp)
    && !(s.ttb.running && decide (stamp < s.ttb.epochT))
    && (match s.ttb.announced with | some b => decide (stamp < b.t) | none => true)

/-- A rising edge of STN_CLK[n] (R30): a measuring edge notes events that would count (R88), a station in reset
takes no input (R36), and a counted edge counts. -/
def stationEdge (n stamp : Nat) (inp : StnInputs) (s : State) : State :=
  let x := s.station n
  if !x.addressed || x.vioOff then s
  else if x.inReset then
    s.modStation n fun x => { x with quiet := x.quiet + 1, lastEdge := s.now }
  else match x.measuring with
    | some (0, _) => s.modStation n fun x => { x with lastEdge := s.now }
    | some (k + 1, noted) =>
      let seen := if stnCountEn x then edgeEvents x inp else 0
      s.modStation n fun x => { x with measuring := some (k, noted ||| seen), lastEdge := s.now }
    | none => if stampFits s x stamp then countedEdge n stamp inp s else s

def execStationEdge (n : Nat) (stamp : Nat) (inp : StnInputs) (s : State) :
    Host.Outcome State Fault Refusal :=
  next (when s.stationsRun (stationEdge n stamp inp) s)

/-- The path delay is stored after 64 measuring edges; an event noted while epochs run is a bring-up loss
(R88). -/
def delayMeasured (n delay : Nat) (s : State) : State :=
  let x := s.station n
  match x.measuring with
  | some (0, noted) =>
    let c := stnDefaultCtx x
    let lost := s.ttb.running && noted != 0
    let s := s.modStation n fun x =>
      { x with
        measuring := none, pathDelay := delay, curTag := 0, tagTaken := false, curCtx := c,
        accIndex := 0, accStarts := [], prevEv := 0, lastHand := s.now, clearAt := s.now, lateCtx := none,
        active := { x.active with ctx := c, epoch := s.ttb.epoch, since := s.now },
        used := if x.used.contains c then x.used else x.used ++ [c] }
    if lost then
      (s.modStation n fun x =>
        { noteLost (lostDeltas c s.ttb.epoch (bitsOf 512 noted.toNat)) x with flushInc := true }).raise 1 5 n c
    else s
  | _ => s

def execStationDelayMeasured (n : Nat) (delay : BitVec 16) (s : State) :
    Host.Outcome State Fault Refusal :=
  next (when (s.core && (s.station n).addressed) (delayMeasured n delay.toNat) s)

/-! ## Records and tokens to the Junction -/

/-- The station hands over to the Junction and the crossbar: it runs and is not treated as parked (R102). -/
def handsOver (s : State) (n : Nat) : Bool := inMerge s n && !asParked (s.station n) && !(s.station n).resumes

/-- The Junction takes a record: t_lc rises to its stamp (R104), and an uncorrectable word leaves a LOSS record in
the record's place (R105). DESIGN CHOICE: the record is complete with this hand-over, so its trailer samples
the step rate and the band here (R72, Table 03-8). -/
def recordHandover (n : Nat) (ecc : Ecc) (s : State) : State :=
  match (s.station n).trace with
  | [] => s
  | r :: rest =>
    let x := s.station n
    let r := { r with trailer := if r.type = 4 then none else some (trailerWord s none r.ts) }
    let s := s.modStation n fun x =>
      { x with
        trace := rest, tLc := max x.tLc r.ts, lastHand := s.now,
        eccCorr := if ecc = .corrected then sat 16 (x.eccCorr + 1) else x.eccCorr,
        eccUncorr := if ecc = .uncorrectable then sat 16 (x.eccUncorr + 1) else x.eccUncorr }
    let off := Config.captureWord s.free
    let s := match ecc with
      | .ok => s
      | .corrected => s.draw.raise 1 1 n off [x.curCtx]
      | .uncorrectable => s.draw.raise 1 2 n off [x.curCtx]
    let r := if ecc = .uncorrectable then
        { stnLossRec n 2 r.ts { trace := 1, operand := 0, firstSeq := r.seq, firstStamp := r.ts, lastStamp := r.ts } x with
          seq := r.seq }
      else r
    { s with jct := { s.jct with stnIn := s.jct.stnIn.modify n fun q => q ++ [r] } }

def execStationRecordHandover (n : Nat) (ecc : Ecc) (s : State) : Host.Outcome State Fault Refusal :=
  next (when (s.core && handsOver s n && decide ((s.jct.stnIn.getD n []).length < 16))
    (recordHandover n ecc) s)

/-- A line-clear token is due: after lc_interval without a hand-over, or once at a boundary (R104). -/
def tokenIsDue (s : State) (x : Station) : Bool :=
  x.measuring.isNone
    && (decide (x.lastHand + stnLcNs x ≤ s.now) || (x.tokenDue && decide (s.ttb.epochT ≤ x.lastStamp)))

/-- A line-clear token (R104); a LOSS record that is due is formed in its place (R101). DESIGN CHOICE: the length
of the stamping pipeline is not given, and t_lc is the stamp of the station's last edge. -/
def lineClearToken (n : Nat) (s : State) : State :=
  if !tokenIsDue s (s.station n) then s
  else
    let s := s.modStation n (dueLoss n)
    let x := s.station n
    if x.trace.isEmpty && x.drops.isNone then
      s.modStation n fun x => { x with tLc := max x.tLc x.lastStamp, lastHand := s.now, tokenDue := false }
    else s

def execLineClearToken (n : Nat) (s : State) : Host.Outcome State Fault Refusal :=
  next (when (s.core && handsOver s n) (lineClearToken n) s)

/-! ## Parking and failure -/

/-- No edge for 2 µs parks the station (R34); a station held in reset keeps its state (R36). A parked station whose
clock stopped again before it had left that state flushes what it counted meanwhile. -/
def stationPark (n : Nat) (s : State) : State :=
  let x := s.station n
  if !x.addressed || x.inReset || decide (s.now < x.lastEdge + 2000) then s
  else if x.st == .running then
    finalFlush n (s.modStation n fun x =>
      { x with st := .parked, parkCount := sat 16 (x.parkCount + 1) })
  else if x.st == .parked then finalFlush n s
  else s

def execStationPark (n : Nat) (s : State) : Host.Outcome State Fault Refusal :=
  next (when s.stationsRun (stationPark n) s)

/-- The clock has resumed and the station leaves the parked state (R34, R102, R382): its stamp is one that an
edge can carry now, so it lies above every key that the parked station's line has let pass (R112). Its upper part is
that of the latest upper-time message, or the next one after a wrap (R80). -/
def stationUnpark (n stamp : Nat) (s : State) : State :=
  let x := s.station n
  if x.st == .parked && !x.vioOff && !x.inReset && stampFits s { x with lastStamp := 0 } stamp
      && decide (s.ttb.upper ≤ stamp / 2 ^ 33) && decide (stamp / 2 ^ 33 ≤ s.ttb.upper + 1) then
    s.modStation n fun x =>
      { x with
        st := .running, resumes := true, prevEv := 0, quiet := 0, lastEdge := s.now,
        lastHand := s.now, clearAt := s.now, lastStamp := max x.lastStamp stamp,
        active := { x.active with epoch := s.ttb.epoch, since := s.now } }
  else s

def execStationUnpark (n : Nat) (stamp : Nat) (s : State) : Host.Outcome State Fault Refusal :=
  next (when s.stationsRun (stationUnpark n stamp) s)

/-- A running station that hands over nothing for 16 lc_interval with an empty Junction input is failed
(R105, R112). DESIGN CHOICE: its capture buffer and the drops not yet reported go with it, and neither advances
lost_trace or lost_operand: the fault of R105 covers them. -/
def stationFail (n : Nat) (s : State) : State :=
  let x := s.station n
  if handsOver s n && x.st == .running && (s.jct.stnIn.getD n []).isEmpty
      && decide (max x.lastHand x.clearAt + 16 * stnLcNs x ≤ s.now) && decide (s.now < x.lastEdge + 2000) then
    let s := s.modStation n fun x =>
      { x with st := .failed, trace := [], op := [], drops := none, dropTrace := false, dropOp := false }
    s.raise 1 6 n 0 [x.curCtx]
  else s

def execStationFail (n : Nat) (s : State) : Host.Outcome State Fault Refusal :=
  next (when s.core (stationFail n) s)

/-! ## Station reset and rail -/

/-- STN_RST_N[n] falls: the station takes no input, and its final flush begins (R36). -/
def execStnRstAssert (n : Nat) (s : State) : Host.Outcome State Fault Refusal :=
  let x := s.station n
  next (if x.inReset then s
    else s.modStation n fun x =>
      { (if x.addressed && bankFree x && countsRun s then swapBank x.curCtx s.ttb.epoch s.now false x else x) with
        inReset := true, quiet := 0 })

/-- The station begins its 64 measuring edges (R88). -/
def beginMeasure (x : Station) : Station :=
  { x with
    measuring := some (64, 0), pathDelay := 0, resumes := true, prevEv := 0, quiet := 0 }

/-- The station's final flush ends, complete or not, before it measures its delay anew (R33, R35, R36). -/
def endFlush (n : Nat) (s : State) : State :=
  if s.stationsRun && (s.station n).addressed then finalFlush n s else s

def execStnRstRelease (n : Nat) (s : State) : Host.Outcome State Fault Refusal :=
  next (if !(s.station n).inReset then s
    else (endFlush n s).modStation n fun x =>
      { (if x.addressed then beginMeasure x else x) with inReset := false, lastEdge := s.now })

/-- The rail goes off: no clock edge arrives any more (R36, R52). -/
def execVioStnOff (n : Nat) (s : State) : Host.Outcome State Fault Refusal :=
  next (s.modStation n fun x => { x with vioOff := true })

def execVioStnOn (n : Nat) (s : State) : Host.Outcome State Fault Refusal :=
  next (if !(s.station n).vioOff then s
    else (endFlush n s).modStation n fun x =>
      { (if x.addressed then beginMeasure x else x) with vioOff := false, lastEdge := s.now })

/-! ## At a boundary -/

/-- The context of a station at T: the current tag mapped anew (R94, R95). -/
def ctxAtT (x : Station) : Nat := if x.tagTaken then tagCtx x x.curTag else stnDefaultCtx x

/-- A station at T (R83, R89, R104): the bank is swapped with the end-of-epoch mark, and a token is due. Where no
empty bank is free, the station splits its count at T all the same: the vacated banks hand their deltas to the
link. -/
def stationBoundary (ctx epoch t : Nat) (x : Station) : Station :=
  let x := if bankFree x then x
    else { x with vacated := [], link := x.link ++ x.vacated.flatMap fun b => bankDeltas b [] }
  let x := swapBank ctx epoch t true x
  let x := if x.st == .parked then
      { x with vacated := [], link := x.link ++ x.vacated.flatMap fun b => bankDeltas b [] }
    else x
  { x with used := [ctx], lateCtx := none, tokenDue := true }

/-- Station `n` at the boundary that opens `epoch`. A change of context that finds no empty bank is a context
overrun, in the epoch that T opens (R92). -/
def boundaryAtStation (epoch t n : Nat) (s : State) : State :=
  let x := s.station n
  if !x.addressed then s
  else
    let c := ctxAtT x
    if bankFree x || c == x.curCtx then s.modStation n (stationBoundary c epoch t)
    else ctxOverrunTo n c (s.modStation n (stationBoundary x.curCtx epoch t))

/-! ## Commands -/

/-- The station that a command names, if it exists (R38, R373). -/
def namedStation (s : State) (pk : List Word) : Option Nat :=
  if param pk 0 6 < s.dsp.enumCount then some (param pk 0 6) else none

/-- STN_CONFIG: lc_interval is class L, the rest E (R270, Table 14-6). -/
def stnConfig (pk : List Word) (t : Ticket) (s : State) : State :=
  match namedStation s pk with
  | none => s.complete t statusDone 0 0
  | some n =>
    let cfg := clampStnCfg (s.params.accTapEn.getLsbD n) (pw pk 1)
    let s := s.modStation n fun x => { x with cfg := put x.cfg 36 8 (fld cfg 36 8) }
    let s := s.pendE (.stnCfg n cfg (clampEvsel (pw pk 2)) (clampEvsel (pw pk 3)) (pw pk 4))
    s.complete t statusDone n cfg

def execStnConfig (w : Nat) (s : State) : Host.Outcome State Fault Refusal :=
  next (issue 0x20 w stnConfig s)

/-- Words 1 to length go to array entries first, first + 1, ...; entries beyond the array are discarded
(R270). -/
def arrayWrites (base size first : Nat) (f : Word → Word) (ws : List Word) : List (Nat × Word) :=
  (List.range ws.length).filterMap fun i =>
    if first + i < size then some (base + 8 * (first + i), f (ws.getD i 0)) else none

def stnArray (base size first : Nat) (f : Word → Word) (pk : List Word) (t : Ticket) (s : State) : State :=
  match namedStation s pk with
  | none => s.complete t statusDone 0 0
  | some n =>
    let ws := arrayWrites base size first f (pkArgs pk)
    let s := forEach ws (fun x s => s.pendE (.stnReg n x.1 x.2)) s
    s.complete t statusDone (ws.length * 256 + n) 0

/-- STN_TAGMAP and STN_THRESH (Table 14-6). -/
def execStnTagmap (w : Nat) (s : State) : Host.Outcome State Fault Refusal :=
  next (issue 0x21 w (fun pk t s => stnArray 0x40 32 (param pk 8 5) clampTagmap pk t s) s)

def execStnThresh (w : Nat) (s : State) : Host.Outcome State Fault Refusal :=
  next (issue 0x22 w (fun pk t s => stnArray 0x140 16 (param pk 8 4) clampThresh pk t s) s)

/-- STN_SNOOPWIN (Table 14-6). -/
def stnSnoopwin (pk : List Word) (t : Ticket) (s : State) : State :=
  match namedStation s pk with
  | none => s.complete t statusDone 0 0
  | some n =>
    let o := 0x1C0 + 0x40 * param pk 8 3
    let ctl := clampWinCtl (pw pk 3)
    let s := s.pendE (.stnReg n o (clampWinAddr (pw pk 1)))
    let s := s.pendE (.stnReg n (o + 8) (clampWinAddr (pw pk 2)))
    (s.pendE (.stnReg n (o + 16) ctl)).complete t statusDone n ctl

def execStnSnoopwin (w : Nat) (s : State) : Host.Outcome State Fault Refusal :=
  next (issue 0x23 w stnSnoopwin s)

/-- An E-class register word of a station takes effect (Table 05-2). -/
def writeStnReg (o : Nat) (w : Word) (x : Station) : Station :=
  if o < 0x140 then { x with tagmap := x.tagmap.set ((o - 0x40) / 8) w }
  else if o < 0x1C0 then { x with thresh := x.thresh.set ((o - 0x140) / 8) w }
  else
    let k := (o - 0x1C0) / 0x40
    match (o - 0x1C0) % 0x40 with
    | 0x00 => { x with win := x.win.modify k fun v => { v with base := w } }
    | 0x08 => { x with win := x.win.modify k fun v => { v with limit := w } }
    | 0x10 => { x with win := x.win.modify k fun v => { v with ctl := w } }
    | 0x18 => { x with win := x.win.modify k fun v => { v with row := w } }
    | 0x20 => { x with win := x.win.modify k fun v => { v with col := w } }
    | _ => x

/-- An E-class STN_CONFIG takes effect; lc_interval keeps the value in force. -/
def writeStnCfg (cfg lo hi acc : Word) (x : Station) : Station :=
  { x with cfg := put cfg 36 8 (fld x.cfg 36 8), evselLo := lo, evselHi := hi, accFilt := acc }

end Sys2Proof.Machine
end

