-- ==== Sys2Proof/Machine/Ledger.lean ====
section
/-! DEFINITION. The Ledger: counters, deltas, chained pairs, the sweep and its snapshots, reads and the
Ledger commands (chapter "Counters"). A word is kept under its counter index; the words not listed are
zero. -/

namespace Sys2Proof.Machine

/-! ## Words -/

/-- C(ctx, stn, ev) (R125). -/
def counterIndex (ctx stn ev : Nat) : Nat := ctx * 32768 + stn * 512 + ev
def ixCtx (i : Nat) : Nat := i / 32768 % 32
def ixStn (i : Nat) : Nat := i / 512 % 64
def ixEv (i : Nat) : Nat := i % 512

/-- Placement of a counter (Table 07-1). -/
def ixBank (i : Nat) : Nat := (ixEv i / 2 % 64 + ixStn i) % 64
def ixWord (i : Nat) : Nat := ixCtx i * 512 + ixStn i * 8 + ixEv i / 128 * 2 + ixEv i % 2

def LWord.zero : LWord := { count := 0, lost := false, ovf := false, chain := false, owner := 0 }

def lword (s : State) (i : Nat) : LWord := look LWord.zero i s.ldg.words

def putLWord (i : Nat) (w : LWord) (s : State) : State :=
  { s with ldg := { s.ldg with words := store LWord.zero i w s.ldg.words } }

/-- Whether a chain map chains the pair of a counter (R134). -/
def chainedIn (map : List Word) (i : Nat) : Bool :=
  bit (map.getD (4 * ixStn i + ixEv i / 128) 0) (ixEv i / 2 % 64)

def partner (i : Nat) : Nat := if i % 2 = 0 then i + 1 else i - 1

/-- The read format under an owner (Table 07-3). -/
def readFormat (owner : Nat) (w : LWord) : Word :=
  pack [(56, 1, b2n (decide (16 ≤ owner))), (52, 4, if owner < 16 then owner else 0), (50, 1, b2n w.lost),
    (49, 1, b2n w.ovf), (48, 1, b2n w.chain), (0, 48, w.count.toNat)]

def deniedRead : Word := 0x8000_0000_0000_0000#64

/-! ## Snapshots -/

def slotOwner (k : Nat) : Nat := k

def modSnap (k : Nat) (f : Snap → Snap) (s : State) : State :=
  { s with ldg := { s.ldg with snaps := s.ldg.snaps.map fun x => if x.slot == k then f x else x } }

/-- Place of a context among those of a mask (R139). -/
def rank (mask : BitVec 32) (c : Nat) : Nat := ((bitsOf 32 mask.toNat).filter (· < c)).length

/-- Address of a counter's entry in a slot (R139). -/
def entryAddr (base : Nat) (mask : BitVec 32) (i : Nat) : Nat :=
  base + 8 * (rank mask (ixCtx i) * 32768 + ixStn i * 512 + ixEv i)

/-- The outcome of the final snapshot of the detaches whose T_d was `t` (Table 15-7 step 9). -/
def noteFinalSnap (t : Nat) (ok : Bool) (s : State) : State :=
  let f := fun d : Detach => if d.td == some t && d.snapOk.isNone then { d with snapOk := some ok } else d
  { s with ilk := { s.ilk with detaches := s.ilk.detaches.map f } }

/-- A snapshot is withdrawn (R141): reason 0 window, 1 error response, 2 not complete in time. -/
def withdrawSnap (k reason : Nat) (s : State) : State :=
  match s.ldg.snaps.find? fun x => x.slot == k && !x.withdrawn && !x.done with
  | none => s
  | some x =>
    let s := modSnap k (fun x => { x with withdrawn := true }) s
    let s := { s with ldg := { s.ldg with withdrawn := sat 16 (s.ldg.withdrawn + 1) } }
    let s := if k = 16 then noteFinalSnap x.t false s else s
    (s.unowe 0 k).raise 4 4 k (x.epoch * 2 ^ 32 + reason)

/-- The CNT record of a complete slot (Table 06-12, R140). -/
def cntRec (s : State) (x : Snap) : Rec :=
  let crc := crc32c (wordsBytes (x.entries.map (·.2)))
  { mkRec 9 (x.t + 1000000) 64 0 x.epoch
      [BitVec.ofNat 64 x.t, pack [(63, 1, b2n x.lost), (62, 1, b2n x.ovf), (0, 48, x.base)],
        pack [(32, 32, x.mask.toNat), (0, 32, crc)]] with
    owner := if x.slot < 16 then x.slot else 16, trailer := some (trailerWord s none x.t),
    own := some ((x.epoch + 2 ^ 32 - 1) % 2 ^ 32) }

/-- Complete slots hand over their CNT records in ascending slot order (R140). -/
def sendSnaps : List Snap → State → State
  | [], s => s
  | x :: r, s =>
    if x.withdrawn || x.sent then sendSnaps r s
    else if x.done then
      sendSnaps r (modSnap x.slot (fun x => { x with sent := true }) (s.emit 0 x.slot (cntRec s x)))
    else s

def sweepDone (s : State) : Bool :=
  match s.ldg.sweep with
  | some w => decide (1048576 ≤ w.pos)
  | none => true

/-- A snapshot is complete once its last write is acknowledged (R140). -/
def settleSnaps (s : State) : State :=
  let finished := fun x : Snap => sweepDone s && x.pending == 0 && !x.withdrawn && !x.done
  let s := withSome (s.ldg.snaps.find? fun x => x.slot == 16 && finished x) (fun x => noteFinalSnap x.t true) s
  let mark := fun x : Snap => if finished x then { x with done := true } else x
  let s := { s with ldg := { s.ldg with snaps := s.ldg.snaps.map mark } }
  sendSnaps s.ldg.snaps s

/-- The end of one entry's write, of the snapshot of slot `k` at `t`. A write that a detach barred never completes its
snapshot, which time withdraws (R141). -/
def snapWritten (k t err : Nat) (s : State) : State :=
  if err = errBarred || !(s.ldg.snaps.any fun x => x.slot == k && x.t == t) then s
  else
    let s := modSnap k (fun x => { x with pending := x.pending - 1 }) s
    let s := if err = 0 then s else withdrawSnap k (if err = errWindow then 0 else 1) s
    settleSnaps s

def execSnapshotTimeout (slot : Nat) (s : State) : Host.Outcome State Fault Refusal :=
  next (match s.ldg.snaps.find? fun x => x.slot == slot with
    | some x => when (s.core && !x.done && decide (x.t + 1000000 ≤ s.now))
        (fun s => settleSnaps (withdrawSnap slot 2 s)) s
    | none => s)

/-! ## The sweep -/

/-- Whether a word has been swept since the last sweep's T (R137). -/
def isSwept (w : Sweep) (i : Nat) : Bool := decide (i < w.pos) || w.taken.contains i

/-- A word after the changes that T makes to it: cleared, or its pair's chaining changed (R136, R146). -/
def changeAtT (w : Sweep) (chain : List Word) (i : Nat) (x : LWord) : LWord :=
  let low := i % 2 == 0
  let chained := chainedIn chain i
  if w.clear.getLsbD (ixCtx i) then { LWord.zero with chain := chained && low }
  else if chained && !chainedIn w.oldChain i then { x with count := 0, chain := low }
  else { x with chain := chained && low }

/-- The frozen value of a word is taken (R137): written as an entry of every due slot whose mask holds the
context, and the word receives the changes of T in the same transaction. -/
def takeFrozen (i : Nat) (s : State) : State :=
  match s.ldg.sweep with
  | none => s
  | some w =>
    let x := lword s i
    let entry := readFormat (w.owners.getD (ixCtx i) 16) x
    let due := s.ldg.snaps.filter fun p => p.t == w.t && p.mask.getLsbD (ixCtx i) && !p.withdrawn
    let s := forEach due (fun p s =>
      let s := modSnap p.slot (fun p =>
        { p with
          entries := store 0xFFFF_FFFF_FFFF_FFFF#64 (entryAddr p.base p.mask i) entry p.entries,
          lost := p.lost || x.lost, ovf := p.ovf || x.ovf, pending := p.pending + 1 }) s
      addJob clsSweep (if p.slot < 16 then p.slot else 16) true (entryAddr p.base p.mask i) 8
        (wordBytes entry) (.snap p.slot p.t) s) s
    let s := putLWord i (changeAtT w s.ldg.eff.chain i x) s
    { s with ldg := { s.ldg with sweep := some { w with
        taken := if i < w.pos then w.taken else i :: w.taken } } }

/-- An uncorrectable word is rewritten with count 0 and count_lost 1, and its partner too where the pair is
chained (R130); overflow stays set (R133). -/
def rewriteWord (i : Nat) (s : State) : State :=
  let lostWord := fun x : LWord => { x with count := 0, lost := true }
  let s := putLWord i (lostWord (lword s i)) s
  let s := if chainedIn s.ldg.eff.chain i then putLWord (partner i) (lostWord (lword s (partner i))) s else s
  let s := { s with ldg := { s.ldg with
    eccUncorr := sat 16 (s.ldg.eccUncorr + 1), lastBank := ixBank i } }
  s.raise 4 2 (ixBank i) i

/-- What the check of a Ledger word shows (R130). -/
def ledgerEcc (i : Nat) (ecc : Ecc) (s : State) : State :=
  match ecc with
  | .ok => s
  | .corrected =>
    ({ s with ldg := { s.ldg with eccCorr := sat 32 (s.ldg.eccCorr + 1) } }).raise 4 1 (ixBank i) (ixWord i)
  | .uncorrectable => rewriteWord i s

def execLedgerPatrol (index : Nat) (ecc : Ecc) (s : State) : Host.Outcome State Fault Refusal :=
  next (when (s.core && decide (index < 1048576)) (ledgerEcc index ecc) s)

/-- The traverse begins once every station in the merge has delivered its mark or is parked, in reset or
failed, and at T + 16 µs at the latest (R137). -/
def marksIn (s : State) (marks : BitVec 64) : Bool :=
  (List.range 64).all fun n => !inMerge s n || marks.getLsbD n || asParked (s.station n)

/-- The traverse is under way. -/
def startTraverse (s : State) : State :=
  { s with ldg := { s.ldg with sweep := s.ldg.sweep.map fun w => { w with started := true } } }

def execSweepTraverseStart (s : State) : Host.Outcome State Fault Refusal :=
  next (match s.ldg.sweep with
    | some w => if s.core && !w.started && (marksIn s s.ldg.marks || decide (w.t + 16000 ≤ s.now)) then
        startTraverse s else s
    | none => s)

/-- One visit of the traverse, in ascending order of the index (R137). -/
def sweepVisit (ecc : Ecc) (s : State) : State :=
  match s.ldg.sweep with
  | none => s
  | some w =>
    if !w.started || decide (1048576 ≤ w.pos) then s
    else
      let i := w.pos
      let s := ledgerEcc i ecc s
      let s := if w.taken.contains i then s else takeFrozen i s
      let step := fun w : Sweep => { w with pos := i + 1, taken := w.taken.filter fun j => j != i }
      settleSnaps { s with ldg := { s.ldg with sweep := s.ldg.sweep.map step } }

def execSweepWordVisit (ecc : Ecc) (s : State) : Host.Outcome State Fault Refusal :=
  next (when s.core (sweepVisit ecc) s)

/-- The rest of a traverse that the next boundary finds unfinished. -/
def finishSweep : Nat → State → State
  | 0, s => s
  | n + 1, s => if sweepDone s then s else finishSweep n (sweepVisit .ok s)

/-! ## Deltas -/

/-- A delta labelled with an epoch before the one that the last sweep's T opened (R131, R137). -/
def oldLabel (w : Sweep) (epoch : Nat) : Bool := decide ((epoch + 2 ^ 32 - w.epoch) % 2 ^ 32 ≥ 2 ^ 31)

/-- The chain map that governs a delta's label (R132). -/
def chainFor (s : State) (epoch : Nat) : List Word :=
  match s.ldg.sweep with
  | some w => if oldLabel w epoch then w.oldChain else s.ldg.eff.chain
  | none => s.ldg.eff.chain

/-- Before an update under a new label, an unswept word's frozen value is taken (R137). -/
def freezeFirst (i epoch : Nat) (s : State) : State :=
  match s.ldg.sweep with
  | some w => if !oldLabel w epoch && !isSwept w i then takeFrozen i s else s
  | none => s

/-- A delta of the old label that finds its word swept is late (R138). -/
def isLate (s : State) (i epoch : Nat) : Bool :=
  match s.ldg.sweep with
  | some w => oldLabel w epoch && isSwept w i
  | none => false

/-- The word's owner bits at an update: the low four bits of the context's owner (Tables 07-2, 07-4). -/
def ownerBits (s : State) (i : Nat) : BitVec 4 := BitVec.ofNat 4 (ownerCode (s.ctxOwner (ixCtx i)))

/-- The swept bit of a word: equal to the phase once its frozen value has been taken (R137). -/
def sweptBit (s : State) (i : Nat) : Bool :=
  match s.ldg.sweep with
  | some w => s.ldg.phase == isSwept w i
  | none => s.ldg.phase

/-- The data bits of a word as the bank holds them (Table 07-2); no read shows them. -/
def rawWord (s : State) (i : Nat) : Word :=
  let x := lword s i
  pack [(52, 4, x.owner.toNat), (51, 1, b2n (sweptBit s i)), (50, 1, b2n x.lost), (49, 1, b2n x.ovf),
    (48, 1, b2n x.chain), (0, 48, x.count.toNat)]

/-- The update of a word carries into its partner (R134). -/
def carries (s : State) (i count epoch : Nat) : Bool :=
  chainedIn (chainFor s epoch) i && i % 2 == 0 && decide (2 ^ 48 ≤ (lword s i).count.toNat + count)

/-- A count added to a word: the carry out of 2^48 goes to the upper word of a chained pair, which it reads and so
checks (R130), else it sets overflow (R134, R135). -/
def addCount (i count epoch : Nat) (eccHi : Ecc) (s : State) : State :=
  let s := if carries s i count epoch then ledgerEcc (i + 1) eccHi s else s
  let s := freezeFirst i epoch s
  let x := lword s i
  let sum := x.count.toNat + count
  let carry := decide (2 ^ 48 ≤ sum)
  let chained := chainedIn (chainFor s epoch) i && i % 2 == 0
  let s := putLWord i { x with
    count := BitVec.ofNat 48 sum, ovf := x.ovf || (carry && !chained), owner := ownerBits s i } s
  if carry && chained then
    let s := freezeFirst (i + 1) epoch s
    let y := lword s (i + 1)
    putLWord (i + 1) { y with
      count := BitVec.ofNat 48 (y.count.toNat + 1), ovf := y.ovf || decide (y.count.toNat + 1 ≥ 2 ^ 48),
      owner := ownerBits s i } s
  else s

def setLost (i epoch : Nat) (s : State) : State :=
  let s := freezeFirst i epoch s
  putLWord i { lword s i with lost := true } s

/-- One delta reaches its counter (R131-R138). Deltas of the upper event of a chained pair are
discarded. -/
def applyDelta (n : Nat) (d : Delta) (ecc eccHi : Ecc) (s : State) : State :=
  let i := counterIndex (d.ctx % 32) (n % 64) (d.ev % 512)
  let s := ledgerEcc i ecc s
  if d.lost then setLost i d.epoch s
  else if chainedIn (chainFor s d.epoch) i && i % 2 == 1 then s
  else if isLate s i d.epoch then
    let s := addCount i d.count d.epoch eccHi s
    let s := putLWord i { lword s i with lost := true } s
    ({ s with ldg := { s.ldg with lateDelta := sat 8 (s.ldg.lateDelta + 1) } }).raise 4 3 (ixBank i) i
  else addCount i d.count d.epoch eccHi s

def ledgerDelta (n : Nat) (ecc : PairEcc) (s : State) : State :=
  match s.ldg.inq.getD n [] with
  | [] => s
  | d :: _ =>
    let s := { s with ldg := { s.ldg with inq := s.ldg.inq.modify n fun q => q.drop 1 } }
    if d.mark then { s with ldg := { s.ldg with marks := s.ldg.marks ||| BitVec.ofNat 64 (2 ^ n) } }
    else applyDelta n d ecc.ecc ecc.eccHi s

def execLedgerDeltaApply (n : Nat) (ecc : PairEcc) (s : State) : Host.Outcome State Fault Refusal :=
  next (when s.core (ledgerDelta n ecc) s)

/-! ## At a boundary -/

def snapEn (c : Word) : Bool := bit c 16
def snapEvery (c : Word) : Nat := max 1 (fld c 8 8)
def snapMask (c : Word) : BitVec 32 := BitVec.ofNat 32 (fld c 32 32)

/-- Contexts that detaching partitions return at this boundary (Table 15-7 step 9). -/
def leavingMask (s : State) : BitVec 32 :=
  s.ilk.detaches.foldl (fun m d => if d.tdDone && d.snapOk.isNone then m ||| d.mask else m) 0

/-- A detach takes its final snapshot at this boundary, also one with no context (R294). -/
def finalDue (s : State) : Bool := s.ilk.detaches.any fun d => d.tdDone && d.snapOk.isNone

/-- The snapshots due at T (R137, R294): a live tenant's slot, which omits fresh contexts (R277), and slot 16, which
also takes a detach's final snapshot. A tenant that is leaving or gone takes none (Table 15-7 step 9). -/
def dueSnaps (s : State) (t e : Nat) : List Snap :=
  (List.range 17).filterMap fun k =>
    let c := s.ldg.eff.ctl.getD k 0
    let due := snapEn c && e % snapEvery c == 0 && (k == 16 || (s.part k).state == 1)
    let leave := if k = 16 then leavingMask s else 0
    let mask := if k < 16 then snapMask c &&& ~~~ s.ilk.fresh else snapMask c ||| leave
    if due || (k == 16 && finalDue s) then
      some {
        slot := k, owner := if k < 16 then k else 16, epoch := e, t := t,
        base := fld (s.ldg.eff.addr.getD k 0) 7 41 * 128, mask := mask, entries := [], lost := false,
        ovf := false, issued := false, pending := 0, done := false, withdrawn := false, sent := false }
    else none

/-- The Ledger at T (R132, R137, R146): snapshots not complete by now are withdrawn, complete ones behind them
hand over their records (R140), and the rest of an old traverse makes its changes. The configuration of the
generation in force governs the epoch, and a snapshot or clearing boundary starts a sweep. `owners` are the
owners at T. -/
def ledgerBoundary (t e : Nat) (owners : List Nat) (s : State) : State :=
  let s := forEach s.ldg.snaps (fun x s => if x.done || x.withdrawn then s else withdrawSnap x.slot 2 s) s
  let s := finishSweep 1048576 (startTraverse (sendSnaps s.ldg.snaps s))
  let old := s.ldg.eff.chain
  let clear := s.ldg.clearReq ||| s.ilk.fresh ||| leavingMask s
  let s := { s with
    ldg := { s.ldg with eff := s.ldg.cfg, clearReq := 0, marks := 0 } }
  let due := dueSnaps s t e
  let s := { s with ilk := { s.ilk with fresh := 0 } }
  if due.isEmpty && clear == 0 && old == s.ldg.eff.chain then { s with ldg := { s.ldg with snaps := [] } }
  else
    let s := { s with ldg := { s.ldg with
      phase := !s.ldg.phase, snaps := due,
      lastEpoch := if due.isEmpty then s.ldg.lastEpoch else e,
      sweep := some {
        t := t, epoch := e, clear := clear, oldChain := old, taken := [], started := false, pos := 0,
        owners := owners } } }
    forEach due (fun x s => s.owe 0 x.slot (t + 1000000)) s

/-! ## Reads -/

/-- A word as a read shows it: a word whose clear is pending reads as cleared (R146). -/
def shownWord (s : State) (i : Nat) : LWord :=
  let x := lword s i
  match s.ldg.sweep with
  | some w => if w.clear.getLsbD (ixCtx i) && !isSwept w i then changeAtT w s.ldg.eff.chain i x else x
  | none => x

/-- A counter in the read format under the owner in force (R129). -/
def readCounter (s : State) (i : Nat) : Word := readFormat (s.ctxOwner (ixCtx i)) (shownWord s i)

/-- Partition software names only contexts that its partition owns and that are not fresh (R143, R277). -/
def mayRead (s : State) (w i : Nat) : Bool :=
  w == 16 || (s.ctxOwner (ixCtx i) == w && !s.ilk.fresh.getLsbD (ixCtx i))

/-- LDG_READ (Table 07-6). -/
def ldgRead (ecc : Ecc) (pk : List Word) (t : Ticket) (s : State) : State :=
  let i := param pk 0 20
  if mayRead s t.w i then
    let s := ledgerEcc i ecc s
    s.complete t statusDone i (readCounter s i)
  else s.complete t statusNotPermitted 0 0

def execLdgRead (w : Nat) (ecc : Ecc) (s : State) : Host.Outcome State Fault Refusal :=
  next (issue 0x30 w (ldgRead ecc) s)

/-- LDG_READ_PAIR: both counts of one instant (R142, Table 07-6). -/
def ldgReadPair (ecc : PairEcc) (pk : List Word) (t : Ticket) (s : State) : State :=
  let i := param pk 0 20 / 2 * 2
  if mayRead s t.w i then
    let s := ledgerEcc (i + 1) ecc.eccHi (ledgerEcc i ecc.ecc s)
    let lo := (shownWord s i).count.toNat
    let hi := (shownWord s (i + 1)).count.toNat
    s.complete t statusDone (hi / 65536) (pack [(0, 48, lo), (48, 16, hi)])
  else s.complete t statusNotPermitted 0 0

def execLdgReadPair (w : Nat) (ecc : PairEcc) (s : State) : Host.Outcome State Fault Refusal :=
  next (issue 0x31 w (ldgReadPair ecc) s)

/-! ## Commands -/

/-- LDG_CHAIN: a run of pairs of one station, clamped at pair 255 (R143). -/
def ldgChain (pk : List Word) (t : Ticket) (s : State) : State :=
  let n := param pk 16 6
  if s.dsp.enumCount ≤ n then s.complete t statusDone 0 0
  else
    let first := param pk 8 8
    let count := min (param pk 0 8 + 1) (256 - first)
    let mask := fun q : Nat => maskOf ((List.range 64).filter fun j =>
      decide (first ≤ 64 * q + j ∧ 64 * q + j < first + count))
    let s := forEach (List.range 4) (fun q s =>
      if mask q = 0 then s
      else s.pendE (.ldgChain (4 * n + q) (BitVec.ofNat 64 (if paramBit pk 31 then mask q else 0))
        (BitVec.ofNat 64 (mask q)))) s
    s.complete t statusDone count 0

def execLdgChain (w : Nat) (s : State) : Host.Outcome State Fault Refusal :=
  next (issue 0x32 w ldgChain s)

/-- A tenant's mask keeps only contexts that it owns at issue (R143). -/
def ownedMask (s : State) (w mask : Nat) : Nat :=
  if w = 16 then mask % 2 ^ 32 else maskOf ((bitsOf 32 mask).filter fun c => s.ctxOwner c == w)

/-- LDG_SNAPCFG (R137, R143). -/
def ldgSnapcfg (pk : List Word) (t : Ticket) (s : State) : State :=
  let k := if t.w = 16 then param pk 16 5 else t.w
  if 17 ≤ k then s.complete t statusDone 0 0
  else
    let mask := ownedMask s t.w (fld (pw pk 2) 0 32)
    let addr := pack [(7, 41, fld (pw pk 1) 7 41)]
    let ctl := pack [(32, 32, mask), (16, 1, param pk 31 1), (8, 8, max 1 (param pk 8 8))]
    (s.pendE (.ldgSnap k addr ctl)).complete t statusDone mask addr

def execLdgSnapcfg (w : Nat) (s : State) : Host.Outcome State Fault Refusal :=
  next (issue 0x33 w ldgSnapcfg s)

/-- LDG_CLEAR (R146). -/
def ldgClear (pk : List Word) (t : Ticket) (s : State) : State :=
  let mask := ownedMask s t.w (param pk 0 32)
  (s.pendE (.ldgClear (BitVec.ofNat 32 mask))).complete t statusDone mask 0

def execLdgClear (w : Nat) (s : State) : Host.Outcome State Fault Refusal :=
  next (issue 0x34 w ldgClear s)

/-! ## User-page reads -/

/-- User code of partition `p` may read the selected context (R145, R277, R283). -/
def userMayRead (s : State) (p i : Nat) : Bool :=
  (s.part p).state == 1 && s.ctxOwner (ixCtx i) == p && bit (s.ldg.ctx.getD (ixCtx i) 0) 16
    && !s.ilk.fresh.getLsbD (ixCtx i)

/-- auto_inc advances the index by `by_`, wrapping at 2^20 (R145). -/
def advanceSel (p by_ : Nat) (s : State) : State :=
  let w := s.ldg.userSel.getD p 0
  if bit w 20 then { s with ldg := { s.ldg with userSel := s.ldg.userSel.set p (put w 0 20 (fld w 0 20 + by_)) } }
  else s

def setRegData (w : Word) (s : State) : State := { s with pins := { s.pins with regData := w } }

/-- A read of LDG_UREAD_DATA (R145). -/
def ureadData (p : Nat) (ecc : Ecc) (s : State) : State :=
  let i := fld (s.ldg.userSel.getD p 0) 0 20
  let s := if userMayRead s p i then
      let s := ledgerEcc i ecc s
      setRegData (readCounter s i) s
    else setRegData deniedRead s
  advanceSel p 1 s

def execLdgUreadData (p : Nat) (ecc : Ecc) (s : State) : Host.Outcome State Fault Refusal :=
  next (if s.core then ureadData p ecc s else setRegData 0 s)

/-- A read of LDG_UREAD_PAIR_LO: the odd word of the pair is latched (R145). -/
def ureadPairLo (p : Nat) (ecc : PairEcc) (s : State) : State :=
  let i := fld (s.ldg.userSel.getD p 0) 0 20 / 2 * 2
  let s := if userMayRead s p i then
      let s := ledgerEcc (i + 1) ecc.eccHi (ledgerEcc i ecc.ecc s)
      let hi := readCounter s (i + 1)
      setRegData (readCounter s i) { s with ldg := { s.ldg with userHi := s.ldg.userHi.set p hi } }
    else setRegData deniedRead { s with ldg := { s.ldg with userHi := s.ldg.userHi.set p deniedRead } }
  advanceSel p 2 s

def execLdgUreadPairLo (p : Nat) (ecc : PairEcc) (s : State) : Host.Outcome State Fault Refusal :=
  next (if s.core then ureadPairLo p ecc s else setRegData 0 s)

end Sys2Proof.Machine
end

