-- ==== Sys2Proof/Machine/Arith.lean ====
section
/-! DEFINITION. Array and requantiser arithmetic, step costs, and the layout of operands, weights and
channel tables (chapters "Tracks and array arithmetic" and "Check plans and coverage"). -/

namespace Sys2Proof.Machine

def ceilDiv (a b : Nat) : Nat := (a + b - 1) / b

/-! ## The field of M31 (R175) -/

def m31 : Nat := 2 ^ 31 - 1

/-- Folds high parts down until the value has 31 bits; a value below 2^n needs no more than n folds. -/
def reduceFold : Nat → Nat → Nat
  | 0, x => x
  | n + 1, x => if x < 2 ^ 31 then x else reduceFold n (x % 2 ^ 31 + x / 2 ^ 31)

def reduce31 (x : Nat) : Nat :=
  let y := reduceFold (x.log2 + 1) x
  if y = m31 then 0 else y

def lift31 (v : Int) : Nat :=
  if 0 ≤ v then reduce31 v.toNat
  else
    let r := reduce31 (-v).toNat
    if r = 0 then 0 else m31 - r

/-! ## Requantisation (R176, R177, R180) -/

/-- What a host's accumulator does to the exact sum (Table 09-4). -/
def accMode (mode : Nat) (acc : Int) : Int :=
  match mode with
  | 1 => clampI (-2 ^ 31) (2 ^ 31 - 1) acc
  | 2 => acc
  | _ => (acc + 2 ^ 31) % 2 ^ 32 - 2 ^ 31

/-- Arithmetic shift with rounding of half-way values: 0 half to even, 1 half away from zero, 2 half toward
+infinity. -/
def roundShift (v : Int) (s mode : Nat) : Int :=
  if s = 0 then v
  else
    let q0 := v / (2 ^ s : Nat)
    let rem := v % (2 ^ s : Nat)
    let half : Int := (2 ^ (s - 1) : Nat)
    if half < rem then q0 + 1
    else if rem < half then q0
    else match mode with
      | 0 => q0 + q0 % 2
      | 1 => if 0 < v then q0 + 1 else q0
      | _ => q0 + 1

/-- A code and whether it was clipped: 0 not, 1 low, 2 high. -/
structure Code where
  y    : Int
  clip : Nat
  deriving DecidableEq, Repr

/-- Shift, zero point and clamp of a scaled value. -/
def toCode (v : Int) (sh rnd : Nat) (zpOut lo hi : Int) : Code :=
  let y := roundShift v sh rnd + zpOut
  if hi < y then { y := hi, clip := 2 } else if y < lo then { y := lo, clip := 1 } else { y := y, clip := 0 }

/-! ## Operand types -/

/-- Table 09-3: op_types with its fallback. -/
def opTypesOf (c : Nat) : Nat := if c ≤ 5 then c else 0

/-- Bits and signedness of the activation of a type. -/
def actBits (op : Nat) : Nat := if op = 4 then 16 else 8
def actUnsigned (op : Nat) : Bool := op == 1 || op == 3
def weightBits (op : Nat) : Nat := if op = 2 ∨ op = 3 then 4 else if op = 5 then 16 else 8

def signedRange (bits : Nat) : Int × Int := (-(2 ^ (bits - 1) : Nat), (2 ^ (bits - 1) : Nat) - 1)

def actRange (op : Nat) : Int × Int := if actUnsigned op then (0, 255) else signedRange (actBits op)
def weightRange (op : Nat) : Int × Int := signedRange (weightBits op)

/-- Output types: 0 INT8, 1 UINT8, 2 INT16, 3 INT4 (Table 09-4). -/
def outBits (t : Nat) : Nat := if t = 2 then 16 else if t = 3 then 4 else 8
def outRange (t : Nat) : Int × Int := if t = 1 then (0, 255) else signedRange (outBits t)

/-- An activation or an observed code from its bytes. -/
def actValue (op raw : Nat) : Int := if actUnsigned op then (raw % 256 : Nat) else signed (actBits op) raw
def outValue (t raw : Nat) : Int := if t = 1 then (raw % 256 : Nat) else signed (outBits t) raw

/-- Zero points, codes and the like take the ends of their range (R174, Table 09-4). -/
def clampTo (r : Int × Int) (v : Int) : Int := clampI r.1 r.2 v

/-- clamp_lo and clamp_hi (Table 09-4). -/
def clampPair (r : Int × Int) (lo hi : Int) : Int × Int :=
  let lo := clampTo r lo
  let hi := clampTo r hi
  if hi < lo then r else (lo, hi)

/-! ## Modes and step costs (R170, R172, Table 09-2) -/

/-- Reduction elements per pass and steps per pass of an operand type. -/
def kMode (op : Nat) : Nat := if op = 2 ∨ op = 3 then 256 else 128
def sMode (op : Nat) : Nat := if op = 4 ∨ op = 5 then 2 else 1

/-- Steps of the tile loads of `tiles` tiles, each later load hidden by the passes of the tile before it. -/
def loadSteps (tiles passSteps : Nat) : Nat :=
  if tiles = 0 then 0 else 128 + (tiles - 1) * (128 - min 128 passSteps)

/-- Steps of a work item of `tiles` tiles with `n` positions of `s` steps each. -/
def itemSteps (tiles n s : Nat) : Nat := 256 + tiles * n * s + loadSteps tiles (n * s)

/-- Weight tiles of a layer: depthwise tiles hold 14 channels, the others a slice of the reduction for 128
channels. -/
def tilesOf (depthwise : Bool) (depth cOut op : Nat) : Nat :=
  if depthwise then ceilDiv cOut 14 else ceilDiv depth (kMode op) * ceilDiv cOut 128

/-! ## Weights and channel tables (R174, R194) -/

/-- Bytes of one weight tile: 128 rows of 128 channels. In INT16 mode a weight takes two bytes, the 8-bit weight of
type 4 the lower one (R194; DESIGN CHOICE, log 128: its upper byte is not looked at). -/
def tileBytes (op : Nat) : Nat := 16384 * sMode op

/-- A weight of element `k` (depthwise: tap) and channel `c`. -/
def weightAt (w : List Byte) (depthwise : Bool) (cOut op k c : Nat) : Int :=
  let tile := if depthwise then c / 14 else k / kMode op * ceilDiv cOut 128 + c / 128
  let e := if depthwise then 9 * (c % 14) + k else k % kMode op
  let col := if depthwise then c % 14 else c % 128
  let row := if weightBits op = 4 && !depthwise then e / 2 else e
  let raw := leAt w (tile * tileBytes op + (row * 128 + col) * (tileBytes op / 16384)) (tileBytes op / 16384)
  if weightBits op = 4 then signed 4 (if e % 2 = 1 && !depthwise then raw / 16 else raw)
  else signed (weightBits op) raw

/-- One row of a channel table. -/
def biasAt (t : List Byte) (c : Nat) : Int := signed 32 (leAt t (16 * c) 4)
def multAt (t : List Byte) (c : Nat) : Int := signed 32 (leAt t (16 * c + 4) 4)
def shiftAt (t : List Byte) (c : Nat) : Nat := min 63 (leAt t (16 * c + 8) 1)

/-- The sum over k < n of an integer function. -/
def sumInt (f : Nat → Int) : Nat → Int
  | 0 => 0
  | n + 1 => sumInt f n + f n

/-- The sum over k < n of residues. -/
def sum31 (f : Nat → Nat) : Nat → Nat
  | 0 => 0
  | n + 1 => reduce31 (sum31 f n + f n)

/-- Rows, or columns, of an input whose output has `extent` of them (R171): the least that the geometry
needs, and what the spec leaves open below one stride. -/
def inputExtent (extent kernel stride pad : Nat) : Nat :=
  (extent - 1) * stride + kernel - 2 * pad + Config.inputSlack extent kernel stride pad % stride

/-! ## The draws of an epoch (R196) -/

def mix (x : BitVec 64) : BitVec 64 :=
  let x := (x ^^^ (x >>> 30)) * 0xbf58476d1ce4e5b9#64
  let x := (x ^^^ (x >>> 27)) * 0x94d049bb133111eb#64
  x ^^^ (x >>> 31)

def drawOf (seed : BitVec 64) (stn j i : Nat) : Nat :=
  (mix (seed ^^^ BitVec.ofNat 64 (stn * 2 ^ 56) ^^^ BitVec.ofNat 64 (j * 2 ^ 40) ^^^ BitVec.ofNat 64 i)).toNat

end Sys2Proof.Machine
end

