-- ==== Sys2Proof/Machine/Plans.lean ====
section
/-! DEFINITION. The images that the block reads from memory: check plans, Pilot models and zone tables, with
their checks, clamps and costs (chapters "Check plans and coverage" and "Pilot sentinel inference"). -/

namespace Sys2Proof.Machine

/-- CRC-32C over an image whose 4-byte crc field stands at `at_`, taken as zero. -/
def crcMatches (b : List Byte) (at_ : Nat) : Bool :=
  crc32c (b.take at_ ++ leBytes 4 0 ++ b.drop (at_ + 4)) % 2 ^ 32 == leAt b at_ 4

/-! ## Check plans -/

/-- A lane-map entry; counts of lanes and columns keep to 1-4096 (Table 10-4). -/
def parseLaneMap (b : List Byte) : LaneMap :=
  { station := min 63 (leAt b 0 1), transpose := leAt b 1 1 % 2 == 1, nLanes := clamp 1 4096 (leAt b 2 2),
    nCols := clamp 1 4096 (leAt b 4 2), aY := leAt b 6 2, aX := leAt b 8 2, lOff := leAt b 10 2,
    bC := leAt b 12 2, cOff := leAt b 14 2 }

/-- A tensor descriptor (Table 10-6). -/
def parseDesc (b : List Byte) : Desc :=
  { window := min 7 (leAt b 0 1), ordinal := max 1 (leAt b 1 1), rowPitch := leAt b 2 2,
    addr := leAt b 8 6 / 64 * 64 }

/-- The kind of a layer entry (R189): an unlisted code is not checkable. -/
def layerKind (k : Nat) : Nat := if k ≤ 5 then k else 0xFF

/-- A layer entry with the clamps and fallbacks of Tables 09-4, 10-1 and 10-5 (R173, R191, R193): a reduction has
at most 1,048,576 elements, and a depthwise layer as many input channels as output channels. -/
def parseLayer (maps : List LaneMap) (b : List Byte) : Layer :=
  let op := opTypesOf (leAt b 10 1)
  let modes := leAt b 11 1
  let out := modes / 16 % 4
  let station := min 63 (leAt b 4 1)
  let map := leAt b 6 1
  let other := match maps[map]? with | some m => m.station != station | none => true
  let raw := leAt b 2 1
  let kind := if other then 0xFF else layerKind raw
  let kern := if leAt b 7 1 = 3 ∨ kind = 1 then 3 else 1
  let flat := kind == 2 || kind == 3
  let kern := if flat then 1 else kern
  let s16 := fun o : Nat => signed 16 (leAt b o 2)
  let cl := clampPair (outRange out) (s16 32) (s16 34)
  { layer := min 65534 (leAt b 0 2), kind := kind,
    skipReason := if kind != 0xFF then 0 else if other && layerKind raw != 0xFF then 5
      else if raw = 0xFF then leAt b 3 1 else 1,
    station := station, ctx := min 31 (leAt b 5 1), lanemap := map, kernel := kern,
    stride := if leAt b 8 1 = 2 && !flat then 2 else 1, pad := if leAt b 9 1 = 1 && !flat then 1 else 0,
    opTypes := op, accMode := if modes % 4 = 3 then 0 else modes % 4,
    rndMode := if modes / 4 % 4 = 3 then 0 else modes / 4 % 4, outType := out,
    hOut := if kind = 2 then 1 else max 1 (leAt b 12 2), wOut := if flat then 1 else max 1 (leAt b 14 2),
    cIn := if kind = 1 then leAt b 20 2 else min (1048576 / (kern * kern)) (leAt b 16 4), cOut := leAt b 20 2,
    zpA := clampTo (actRange op) (s16 22),
    zpW := clampTo (weightRange op) (s16 24), zpB := clampTo (actRange op) (s16 26),
    padValue := clampTo (actRange op) (s16 28), zpOut := clampTo (outRange out) (s16 30),
    clampLo := cl.1, clampHi := cl.2, mA := signed 32 (leAt b 36 4), mB := signed 32 (leAt b 40 4),
    wChunk := leAt b 44 4, wChunks := leAt b 48 2, tapBias := leAt b 50 2 % 2 == 1,
    tChunk := leAt b 52 4, descA := parseDesc (b.drop 56), descB := parseDesc (b.drop 72),
    descO := parseDesc (b.drop 88) }

/-- Layers in strictly ascending order (R191). -/
def ascending : List Nat → Bool
  | [] => true
  | [_] => true
  | a :: b :: r => decide (a < b) && ascending (b :: r)

def planMaps (b : List Byte) : Nat := leAt b 8 2
def planLayers (b : List Byte) : Nat := leAt b 6 2
def planTotal (b : List Byte) : Nat := leAt b 20 4

/-- The header alone tells whether the image can be read: reason 1 for a format error (R191, Table 10-3). -/
def planHeaderOk (b : List Byte) : Bool :=
  leAt b 0 2 == 0x504C && leAt b 2 1 == 1 && planTotal b == 64 + 16 * planMaps b + 128 * planLayers b

/-- A plan from its image, or the reason of its refusal: 1 format, 2 CRC (R191, R203). n_lanemaps and n_layers are
clamped to 64 and 1000: entries beyond are not used (log 125). -/
def parsePlan (b : List Byte) : Nat × Option Plan :=
  let nm := planMaps b
  let maps := (List.range (min 64 nm)).map fun i => parseLaneMap (b.drop (64 + 16 * i))
  let layers := (List.range (min 1000 (planLayers b))).map fun i => parseLayer maps (b.drop (64 + 16 * nm + 128 * i))
  if !planHeaderOk b then (1, none)
  else if !crcMatches b 60 then (2, none)
  else if !ascending ((List.range (planLayers b)).map fun i => leAt b (64 + 16 * nm + 128 * i) 2) then (1, none)
  else (0, some {
    planId := max 1 (leAt b 4 1), stream := min 15 (leAt b 5 1), lagUs := min 1000000 (leAt b 12 4),
    bundle := leAt b 16 4, totalLen := planTotal b, lanemaps := maps, layers := layers,
    digest := sha256 b })

/-! ### Geometry of a layer -/

def Layer.depthwise (l : Layer) : Bool := l.kind == 1
def Layer.checkable (l : Layer) : Bool := l.kind != 0xFF
def Layer.positions (l : Layer) : Nat := l.hOut * l.wOut

/-- Reduction depth of one output channel. -/
def Layer.depth (l : Layer) : Nat := if l.depthwise then 9 else l.kernel * l.kernel * l.cIn

def Layer.tiles (l : Layer) : Nat :=
  if l.kind = 4 then 0 else tilesOf l.depthwise l.depth l.cOut l.opTypes

/-- Bits per element of the tensors a, b and o; INT4 codes stand two in a byte, the low nibble first (R174,
R244). -/
def Layer.bitsOf (l : Layer) (role : Nat) : Nat := if role = 2 then outBits l.outType else actBits l.opTypes
def Layer.descOf (l : Layer) (role : Nat) : Desc :=
  if role = 0 then l.descA else if role = 1 then l.descB else l.descO
def Layer.channels (l : Layer) (role : Nat) : Nat := if role = 2 then l.cOut else l.cIn

/-- Bit offset of element (y, x, c) from element (0, 0, 0) (R194). -/
def Layer.elemAt (l : Layer) (role y x c : Nat) : Nat :=
  512 * (l.descOf role).rowPitch * y + l.bitsOf role * (l.channels role * x + c)

/-- Beats of all channels of one position, from element (0, 0, 0). -/
def Layer.beatsAt (l : Layer) (role y x : Nat) : List Nat :=
  let lo := l.elemAt role y x 0
  let hi := l.elemAt role y x (l.channels role) - 1
  (List.range (hi / 512 + 1 - lo / 512)).map (· + lo / 512)

def Layer.inRows (l : Layer) : Nat := inputExtent l.hOut l.kernel l.stride l.pad
def Layer.inCols (l : Layer) : Nat := inputExtent l.wOut l.kernel l.stride l.pad

/-- Input place of tap `k` at output coordinate `y`, none where it lies outside the input. -/
def tapPlace (y stride pad k extent : Nat) : Option Nat :=
  let p := y * stride + k
  if p < pad then none else if p - pad < extent then some (p - pad) else none

/-- Places of the input patch of an output position (R171, R199). -/
def Layer.patch (l : Layer) (pos : Nat) : List (Nat × Nat) :=
  let y := pos / l.wOut
  let x := pos % l.wOut
  (List.range l.kernel).flatMap fun ky => (List.range l.kernel).filterMap fun kx =>
    match tapPlace y l.stride l.pad ky l.inRows, tapPlace x l.stride l.pad kx l.inCols with
    | some iy, some ix => some (iy, ix)
    | _, _ => none

/-- The input beats of an output position: role and offset from element (0, 0, 0) (R199). -/
def Layer.inputNeed (l : Layer) (pos : Nat) : List (Nat × Nat) :=
  if l.kind = 4 then
    let y := pos / l.wOut
    let x := pos % l.wOut
    (l.beatsAt 0 y x).map (fun o => (0, o)) ++ (l.beatsAt 1 y x).map (fun o => (1, o))
  else ((l.patch pos).flatMap fun p => (l.beatsAt 0 p.1 p.2).map (fun o => (0, o))).eraseDups

/-- The output beats of a position. -/
def Layer.outputNeed (l : Layer) (pos : Nat) : List (Nat × Nat) :=
  if l.kind = 5 then [] else (l.beatsAt 2 (pos / l.wOut) (pos % l.wOut)).map (fun o => (2, o))

/-- Tap beats of one position of a run (R202). -/
def Layer.tapBeats (l : Layer) : Nat := ceilDiv l.cOut 32

/-- Positions of a tap run that acc_mask delivers whole. -/
def Layer.tapPositions (l : Layer) (accMask : Word) : List Nat :=
  (List.range l.positions).filter fun p =>
    (List.range l.tapBeats).all fun j => bit accMask ((p * l.tapBeats + j) % 64)

/-! ### Lanes and columns (R192) -/

def LaneMap.byPos (m : LaneMap) (y x n : Nat) : Nat := (m.aY * y + m.aX * x + m.lOff) % n
def LaneMap.byChan (m : LaneMap) (c n : Nat) : Nat := (m.bC * c + m.cOff) % n

/-- Values that the position rule reaches over a layer, modulo `n`. -/
def posReach (m : LaneMap) (l : Layer) (n : Nat) : List Nat :=
  ((List.range (min l.hOut n)).flatMap fun y =>
    (List.range (min l.wOut n)).map fun x => m.byPos y x n).eraseDups

def chanReach (m : LaneMap) (l : Layer) (n : Nat) : List Nat :=
  ((List.range (min l.cOut n)).map fun c => m.byChan c n).eraseDups

def LaneMap.lanesReached (m : LaneMap) (l : Layer) : List Nat :=
  if m.transpose then chanReach m l m.nLanes else posReach m l m.nLanes

def LaneMap.colsReached (m : LaneMap) (l : Layer) : List Nat :=
  if m.transpose then posReach m l m.nCols else chanReach m l m.nCols

/-- Lanes and columns met by one position (R201). -/
def LaneMap.lanesAt (m : LaneMap) (l : Layer) (pos : Nat) : List Nat :=
  if m.transpose then chanReach m l m.nLanes else [m.byPos (pos / l.wOut) (pos % l.wOut) m.nLanes]

def LaneMap.colsAt (m : LaneMap) (l : Layer) (pos : Nat) : List Nat :=
  if m.transpose then [m.byPos (pos / l.wOut) (pos % l.wOut) m.nCols] else chanReach m l m.nCols

/-! ### Steps (R170, R202) -/

/-- Tiles of the two products of a tap check: those of w2 and those of r (R202). -/
def Layer.tapTiles (l : Layer) : Nat := ceilDiv l.depth 128 + ceilDiv l.cOut 128

/-- Steps of one work item of a layer with `q` sampled positions; a tap check takes every position, at 4 steps per
pass. -/
def Layer.steps (l : Layer) (q : Nat) : Nat :=
  if l.kind = 4 then 0
  else if l.kind = 5 then itemSteps l.tapTiles l.positions 4
  else itemSteps l.tiles q (sMode l.opTypes)

/-- Steps that a layer costs once per epoch: the projected weights of a tap check, with the loads of their tiles. -/
def Layer.onceSteps (l : Layer) : Nat :=
  if l.kind = 5 then l.depth * ceilDiv l.cOut 128 * 4 + loadSteps (ceilDiv l.cOut 128) (l.depth * 4) else 0

/-! ## Pilot models -/

/-- A Pilot layer entry (Table 12-3). -/
def parsePLayer (b : List Byte) : PLayer :=
  { op := leAt b 0 1, srcA := leAt b 1 1, srcB := leAt b 2 1, kernel := leAt b 3 1, stride := leAt b 4 1,
    pad := leAt b 5 1, zpOut := signed 8 (leAt b 6 1), hOut := leAt b 8 2, wOut := leAt b 10 2,
    cIn := leAt b 12 2, cOut := leAt b 14 2, clampLo := signed 8 (leAt b 16 1),
    clampHi := signed 8 (leAt b 17 1), wChunk := leAt b 20 4, wChunks := leAt b 24 2,
    tChunk := leAt b 28 4 }

/-- Height, width and channels of a source: the model input or an earlier layer. -/
def srcShape (inH inW : Nat) (ls : List PLayer) (src : Nat) : Nat × Nat × Nat :=
  if src = 0xFF then (inH, inW, 3)
  else match ls[src]? with
    | some l => (l.hOut, l.wOut, l.cOut)
    | none => (0, 0, 0)

/-- Zero point of a source's codes (R225). -/
def srcZp (inZp : Nat) (ls : List PLayer) (src : Nat) : Int :=
  if src = 0xFF then (inZp : Int) else match ls[src]? with | some l => l.zpOut | none => 0

/-- The shape of a layer follows from its operator and sources (R226). DESIGN CHOICE (log 129): c_in of a
concatenation is the channel count of its first source or of both, and the head repeats the shape of its source. -/
def shapeOk (inH inW headS : Nat) (ls : List PLayer) (l : PLayer) : Bool :=
  let (h, w, c) := srcShape inH inW ls l.srcA
  let (_, _, c2) := srcShape inH inW ls l.srcB
  let fits := fun (i o : Nat) => decide (1 ≤ o)
    && decide (l.kernel ≤ i + 2 * l.pad) && decide (o = (i + 2 * l.pad - l.kernel) / l.stride + 1)
  match l.op with
  | 0 => l.cIn == c && fits h l.hOut && fits w l.wOut
  | 1 => l.cIn == c && l.cOut == c && fits h l.hOut && fits w l.wOut
  | 2 => l.hOut == h && l.wOut == w && l.cIn == c && l.cOut == c
  | 3 => l.hOut == h && l.wOut == w && l.cOut == c + c2 && (l.cIn == c || l.cIn == c + c2)
  | 4 => l.hOut == 2 * h && l.wOut == 2 * w && l.cIn == c && l.cOut == c
  | 5 => l.hOut * 2 == h && l.wOut * 2 == w && l.cIn == c && l.cOut == c
  | _ => l.hOut == h && l.wOut == w && l.cIn == c && l.cOut == c
    && decide (h = ceilDiv inH headS) && decide (w = ceilDiv inW headS)

/-- Every src field names an earlier layer or is 0xFF (R226). -/
def srcOk (i : Nat) (l : PLayer) : Bool :=
  (l.srcA == 0xFF || decide (l.srcA < i)) && (l.srcB == 0xFF || decide (l.srcB < i))

/-- Weight bytes of a layer: whole tiles. -/
def PLayer.weightBytes (l : PLayer) : Nat :=
  if l.op = 0 then tilesOf false (l.kernel * l.kernel * l.cIn) l.cOut 0 * 16384
  else if l.op = 1 then tilesOf true 9 l.cOut 0 * 16384 else 0

/-- Steps of one layer (R227). -/
def PLayer.steps (l : PLayer) : Nat :=
  if l.op = 0 then itemSteps (tilesOf false (l.kernel * l.kernel * l.cIn) l.cOut 0) (l.hOut * l.wOut) 1
  else if l.op = 1 then itemSteps (tilesOf true 9 l.cOut 0) (l.hOut * l.wOut) 1
  else 256 + ceilDiv (l.hOut * l.wOut * l.cOut) 128

/-- A layer inside the operator table and its limits (R223, R224, Table 12-1). -/
def inFamily (inZp headK : Nat) (inH inW : Nat) (ls : List PLayer) (l : PLayer) : Bool :=
  let (h, w, c) := srcShape inH inW ls l.srcA
  let (h2, w2, c2) := srcShape inH inW ls l.srcB
  let k13 := (l.kernel == 1 || l.kernel == 3) && (l.stride == 1 || l.stride == 2) && decide (l.pad ≤ 1)
  decide (l.hOut ≤ 576) && decide (l.wOut ≤ 1024) &&
    match l.op with
    | 0 => k13 && decide (1 ≤ l.cIn) && decide (l.cIn ≤ 512) && decide (1 ≤ l.cOut) && decide (l.cOut ≤ 512)
    | 1 => k13 && l.kernel == 3 && l.cIn == l.cOut && decide (1 ≤ l.cIn) && decide (l.cIn ≤ 512)
    | 2 => h == h2 && w == w2 && c == c2
    | 3 => h == h2 && w == w2 && decide (l.cOut ≤ 512) && srcZp inZp ls l.srcA == srcZp inZp ls l.srcB
    | 4 => true
    | 5 => h % 2 == 0 && w % 2 == 0
    | 6 => decide (1 ≤ c) && decide (c ≤ 4) && c == headK
    | _ => false

/-- A model from the plaintext of chunk 0, or the reason of its refusal: 1 format, 5 outside the family
(R223-R227). The header, the sources and the place of the head come first, then the family, then the shapes, which
have a meaning only inside the family. -/
def parseModel (bundle : Nat) (b : List Byte) : Nat × Option PModel :=
  let inW := leAt b 4 2
  let inH := leAt b 6 2
  let n := leAt b 9 1
  let headK := leAt b 10 1
  let headS := leAt b 11 1
  let act := leAt b 12 4
  let inZp := leAt b 8 1
  let ls := (List.range n).map fun i => parsePLayer (b.drop (32 + 32 * i))
  let format := leAt b 0 2 == 0x504D && leAt b 2 1 == 1 && leAt b 3 1 == 1
    && decide (32 + 32 * n ≤ b.length)
    && ((List.range n).all fun i => match ls[i]? with | some l => srcOk i l | none => false)
    && (match ls.getLast? with | some l => l.op == 6 | none => false)
  let family := decide (1 ≤ inW) && decide (inW ≤ 1024) && decide (1 ≤ inH) && decide (inH ≤ 576)
    && decide (1 ≤ n) && decide (n ≤ 128) && decide (act ≤ 3 * 2 ^ 20)
    && decide (1 ≤ headK) && decide (headK ≤ 4) && (headS == 4 || headS == 8 || headS == 16)
    && ls.all (inFamily inZp headK inH inW ls)
    && (ls.filter fun l => l.op == 6).length == 1
    && ls.all (fun l => decide (l.weightBytes ≤ 2 ^ 20)) && decide (sumOf PLayer.weightBytes ls ≤ 2 ^ 24)
  if !format then (1, none)
  else if !family then (5, none)
  else if !ls.all (shapeOk inH inW headS ls) then (1, none)
  else (0, some {
    bundle := bundle, inW := inW, inH := inH, inZp := inZp, headK := headK, headS := headS,
    actBytes := act, thr := (List.range 4).map fun k => signed 8 (leAt b (16 + k) 1), layers := ls,
    steps := sumOf PLayer.steps ls, digest := sha256 b })

/-! ## Zone tables (R234, Table 12-5) -/

/-- A zone with its own clamps; its coordinates are clamped when it applies (`clampZone`). -/
def parseZone (b : List Byte) : Zone :=
  let n := clamp 3 8 (leAt b 0 1)
  { verts := (List.range n).map fun i => (leAt b (16 + 4 * i) 2, leAt b (18 + 4 * i) 2),
    classes := leAt b 1 1, mode := if leAt b 2 1 % 4 = 3 then 1 else leAt b 2 1 % 4,
    persist := clamp 1 15 (leAt b 3 1) }

def zonesLen (b : List Byte) : Nat := 16 + 48 * leAt b 3 1

/-- Coordinates clamped to a model input (R234). -/
def clampZone (inW inH : Nat) (z : Zone) : Zone := { z with verts := z.verts.map fun v => (min inW v.1, min inH v.2) }

/-- A zone table, or the reason of its refusal: 1 format, 2 CRC. -/
def parseZones (b : List Byte) : Nat × Option ZoneTab :=
  let n := leAt b 3 1
  if !(leAt b 0 2 == 0x5A4E && leAt b 2 1 == 1 && decide (1 ≤ n) && decide (n ≤ 32)) then (1, none)
  else if !crcMatches (b.take (zonesLen b)) 12 then (2, none)
  else (0, some {
    zones := (List.range n).map fun z => parseZone (b.drop (16 + 48 * z)),
    digest := sha256 (b.take (zonesLen b)) })

end Sys2Proof.Machine
end

