-- ==== Sys2Proof/Machine/SignalBox.lean ====
section
/-! DEFINITION. The Signal Box: records, reactions, outputs, escalation, the fatal state (chapter "Faults
and safety reaction"). -/

namespace Sys2Proof.Machine

/-! ## Configuration fields -/

def escCount (s : State) : Nat := fld s.sbx.cfg 48 8
def escWindow (s : State) : Nat := fld s.sbx.cfg 36 12 * 1000000
def quietNs (s : State) : Nat := fld s.sbx.cfg 24 12 * 1000000
def hbPeriodNs (w : Word) : Nat := fld w 16 6 * 250000

/-- SBX_CFG after its clamps (Table 16-9). -/
def clampSbxCfg (w : Word) : Word :=
  pack [(48, 8, clamp 1 255 (fld w 48 8)), (36, 12, clamp 10 4000 (fld w 36 12)),
    (24, 12, clamp 10 4000 (fld w 24 12)), (16, 6, clamp 1 32 (fld w 16 6)), (2, 1, fld w 2 1),
    (1, 1, fld w 1 1)]

/-- The fields of a reaction row word (Table 16-4). -/
def clampReact (w : Word) : Word :=
  pack [(48, 16, fld w 48 16), (40, 2, fld w 40 2), (39, 1, fld w 39 1), (38, 1, fld w 38 1),
    (37, 1, fld w 37 1)]

/-! ## Reactions -/

def noReaction : Reaction := { cls := 0, safe := false, degrade := 0, latch := false }

/-- The reaction of one row: own_degrade adds the event's own bit on stream rows (Table 16-4). -/
def rowReaction (s : State) (r : Nat) : Reaction :=
  let w := s.sbx.react.getD r 0
  let own := if bit w 38 && decide (r < 0x80) then 2 ^ (r / 8) else 0
  { cls := fld w 40 2, safe := bit w 39, degrade := BitVec.ofNat 16 (fld w 48 16 ||| own),
    latch := bit w 37 }

/-- The union of two reactions at the higher class (R305, R307). -/
def Reaction.union (a b : Reaction) : Reaction :=
  { cls := max a.cls b.cls, safe := a.safe || b.safe, degrade := a.degrade ||| b.degrade,
    latch := a.latch || b.latch }

/-- The rows that an occurrence selects (R307): an outcome its own, a U fault source its subsystem's, an F
source and the forced record none. -/
def rowsOf (o : Occurrence) : List Nat :=
  if o.forced then [] else if o.outcome then o.rows
  else if o.cls = 2 then [0x80 + o.sub] else []

/-- The reaction of an occurrence: its class is the highest among its own and its rows'. The forced
record's only reaction is SAFE_REQ (R307). -/
def reactionOf (s : State) (o : Occurrence) : Reaction :=
  if o.forced then { cls := 2, safe := true, degrade := 0, latch := false }
  else (rowsOf o).foldl (fun a r => a.union (rowReaction s r)) { noReaction with cls := o.cls }

/-- The row field of a record: the first row selected, 0xFF for none (Table 16-1). -/
def rowField (o : Occurrence) : Nat := (rowsOf o).headD 0xFF

/-! ## FLT records -/

/-- The cause layout of FLT W0 [31:0] (Table 06-11). -/
def causeBits (cls sub cause engine slot : Nat) (coincident : Bool) : Nat :=
  packN [(30, 2, cls), (24, 6, sub), (16, 8, cause), (8, 8, engine), (5, 1, b2n coincident), (0, 5, slot)]

/-- The station of an engine, else 0 (Table 06-4). -/
def engineStation (sub cause engine : Nat) : Nat :=
  if sub = 1 && decide (cause ≤ 6) then engine % 64
  else if sub = 8 && (decide (cause ≤ 4) || cause == 6) then engine % 64 else 0

/-- An FLT record of an occurrence (R302). -/
def fltRec (o : Occurrence) (cls slot : Nat) (coincident : Bool) : Rec :=
  { mkRec 8 o.time 68 (engineStation o.sub o.cause o.engine)
      (causeBits cls o.sub o.cause o.engine slot coincident) [BitVec.ofNat 64 o.detail] with
    injected := o.injected, owner := o.owner, ctxs := o.ctxs }

/-- No FLT record is formed before the first boundary since the reset, nor with a stamp from before it (R74,
R302). -/
def emitFlt (o : Occurrence) (cls slot : Nat) (coincident : Bool) (s : State) : State :=
  if s.ttb.running && decide (s.ttb.startT ≤ o.time) then s.emit 4 o.time (fltRec o cls slot coincident) else s

/-! ## Outputs -/

/-- Whether two codes differ in both bits (R309). -/
def bothBits (a b : Nat) : Bool := a % 2 != b % 2 && a / 2 % 2 != b / 2 % 2

/-- The intermediate value between two codes that differ in both bits (R309). -/
def midClass (a b : Nat) : Nat := if a = 3 ∨ b = 3 then 2 else 0

/-- 50 ns have passed since the last change of FAULT_CLASS (R49). -/
def classRested (now : Nat) (x : SignalBox) : Bool :=
  match x.fcAt with
  | some t => decide (t + 50 ≤ now)
  | none => true

/-- The next value of FAULT_CLASS on its way from one code to another (R49, R309). -/
def classStep (a b : Nat) : Nat := if bothBits a b then midClass a b else b

/-- FAULT_CLASS makes its next change toward fcTarget; `fcMid` tells that a further one waits. -/
def stepClass (now : Nat) (x : SignalBox) : SignalBox :=
  let c := classStep x.faultClass x.fcTarget
  { x with
    faultClass := c, fcMid := c != x.fcTarget,
    fcAt := if c = x.faultClass then x.fcAt else some now }

/-- FAULT_CLASS moves toward `target`: at once, or when 50 ns have passed since its last change (R49, R309). -/
def moveClass (now target : Nat) (x : SignalBox) : SignalBox :=
  let x := { x with fcTarget := target }
  if classRested now x then stepClass now x else { x with fcMid := x.faultClass != target }

/-- The class that FAULT_CLASS shows (Table 16-5). -/
def classInForce (x : SignalBox) : Nat :=
  if x.state = 3 then 3
  else if x.recs.any (fun r => r.valid && r.inForce && r.cls == 2) then 2
  else if x.cAt.isSome then 1 else 0

/-- The outputs follow Table 16-5 once they have been taken over (R308). -/
def refresh (s : State) : State :=
  let x := s.sbx
  if !x.taken then s
  else
    let on := x.recs.filter fun r => r.valid && r.inForce
    { s with sbx := moveClass s.now (classInForce x) { x with
      safeReq := x.state == 3 || x.forced || on.any (·.safe),
      degrade := on.foldl (fun a r => a ||| r.degrade) 0 } }

/-- FAULT_CLASS leaves a value that it has held for at least 50 ns (R49, R309). -/
def execFaultClassIntermediateEnd (s : State) : Host.Outcome State Fault Refusal :=
  next (when (s.core && s.sbx.fcMid && classRested s.now s.sbx)
    (fun s => { s with sbx := stepClass s.now s.sbx }) s)

/-- HEARTBEAT changes level at every whole multiple of its period (R310); several multiples passed by a
forward step give one change. -/
def execHeartbeatToggle (s : State) : Host.Outcome State Fault Refusal :=
  let p := hbPeriodNs s.sbx.cfg
  next (when (s.core && s.sbx.taken && s.sbx.state == 1
      && decide (s.sbx.hbLast / p < s.now / p))
    (fun s => { s with sbx := { s.sbx with heartbeat := !s.sbx.heartbeat, hbLast := s.now } }) s)

/-- The Signal Box takes the outputs over at the first boundary T, if the firmware runs and no F record
exists (R367). -/
def takeOverOutputs (t : Nat) (s : State) : State :=
  if s.sbx.state = 0 && s.dsp.boot.state == 1 && !s.sbx.recs.any (fun r => r.valid && r.cls == 3) then
    refresh { s with sbx := { s.sbx with state := 1, taken := true, hbLast := t } }
  else s

/-! ## The fatal state -/

/-- The Signal Box enters the fatal state (R315): the Conductor cores halt, take-over begins (R22), and every epoch
from the running one on is marked. Before the first boundary since the reset start-up continues (Table 20-5), and a
later F occurrence then halts the cores. -/
def enterFatal (s : State) : State :=
  let s := { s with sbx := { s.sbx with state := 3 } }
  let s := if s.ttb.running then
      { s with
        dsp := { s.dsp with halted := true, takeover := true },
        tkl := { s.tkl with auto := true } }
    else s
  refresh (s.markFault s.now)

/-! ## Placing an occurrence -/

def State.frec (s : State) (k : Nat) : FRec := s.sbx.recs.getD k FRec.reset

def State.setRec (s : State) (k : Nat) (r : FRec) : State :=
  { s with sbx := { s.sbx with recs := s.sbx.recs.set k r } }

/-- A record takes in one more occurrence: the reaction becomes the union, or that of the real
occurrences where a real and an injected one share the record (R305, R317). -/
def absorb (r : FRec) (o : Occurrence) (x : Reaction) : FRec :=
  let shared := r.coincident || r.injected != o.injected
  let real : Reaction :=
    { cls := r.realCls, safe := r.realSafe, degrade := r.realDegr, latch := r.realLatch }
  let real := if o.injected then real else real.union x
  let all : Reaction :=
    ({ cls := r.cls, safe := r.safe, degrade := r.degrade, latch := r.latched } : Reaction).union x
  let u := if shared then real else all
  { r with
    cls := u.cls, safe := u.safe, degrade := u.degrade, latched := u.latch,
    realCls := real.cls, realSafe := real.safe, realDegr := real.degrade, realLatch := real.latch,
    coincident := shared, injected := r.injected && !shared, forced := r.forced || o.forced,
    lastTime := o.time }

/-- A record that has become shared counts once and yields one more FLT record (R317). -/
def noteCoincident (old : FRec) (o : Occurrence) (k : Nat) (s : State) : State :=
  let r := s.frec k
  if r.coincident && !old.coincident then
    let s := { s with sbx := { s.sbx with coincident := sat 16 (s.sbx.coincident + 1) } }
    emitFlt { o with
      sub := r.sub, cause := r.cause, engine := r.engine, injected := false } r.cls k true s
  else s

/-- Recurrence (R305 rule 1). -/
def recur (k : Nat) (o : Occurrence) (x : Reaction) (s : State) : State :=
  let r := s.frec k
  let s := s.setRec k { absorb r o x with repeats := sat 16 (r.repeats + 1) }
  noteCoincident r o k s

/-- Merge (R305 rule 2, and rule 3 where no slot is left). -/
def merge (k : Nat) (o : Occurrence) (x : Reaction) (overflow : Bool) (s : State) : State :=
  let r := s.frec k
  let m := absorb r o x
  let fill := r.second == 0
  let s := s.setRec k { m with
    merges := sat 16 (r.merges + 1),
    second := if fill then causeBits x.cls o.sub o.cause o.engine 0 false else r.second,
    secDetail := if fill then o.detail else r.secDetail,
    overflow := r.overflow || overflow,
    inForce := r.inForce || overflow,
    exitTime := if overflow && !r.inForce then 0 else r.exitTime }
  let s := { s with sbx := { s.sbx with mergeTotal := sat 16 (s.sbx.mergeTotal + 1) } }
  noteCoincident r o k s

/-- A new record in slot `k` (R305 rule 3, R306). In the model the reaction is applied and the containment
ended at the receipt, so the record is in handling for what was detected up to then. -/
def newRecord (k : Nat) (o : Occurrence) (x : Reaction) (s : State) : State :=
  let r : FRec := { FRec.reset with
    valid := true, inForce := true, injected := o.injected, forced := o.forced, latched := x.latch,
    outcome := o.outcome, safe := x.safe, row := rowField o, cls := x.cls, sub := o.sub,
    cause := o.cause, engine := o.engine, detect := o.time, detail := o.detail,
    epoch := s.epochAt o.time, degrade := x.degrade, lastTime := o.time,
    handling := min s.now (o.time + 1000000),
    realCls := if o.injected then 0 else x.cls, realSafe := !o.injected && x.safe,
    realDegr := if o.injected then 0 else x.degrade, realLatch := !o.injected && x.latch }
  emitFlt o x.cls k false (s.setRec k r)

/-- The record with the least, or greatest, detection time among the slots listed. -/
def oldestOf (s : State) : List Nat → Option Nat
  | [] => none
  | k :: r => match oldestOf s r with
    | none => some k
    | some j => if (s.frec j).detect < (s.frec k).detect then some j else some k

def latestOf (s : State) : List Nat → Option Nat
  | [] => none
  | k :: r => match latestOf s r with
    | none => some k
    | some j => if (s.frec k).detect < (s.frec j).detect then some j else some k

/-- Rule 3: the lowest free slot; else the oldest record that may be displaced; else a merge into the
latest record. -/
def placeNew (o : Occurrence) (x : Reaction) (s : State) : State × Nat :=
  let ks := List.range 32
  match ks.find? (fun k => !(s.frec k).valid) with
  | some k => (newRecord k o x s, k)
  | none =>
    match oldestOf s (ks.filter fun k =>
        !((s.frec k).inForce || (s.frec k).cls == 3 || (s.frec k).forced)) with
    | some k =>
      (newRecord k o x { s with sbx := { s.sbx with overwritten := sat 16 (s.sbx.overwritten + 1) } }, k)
    | none =>
      let k := (latestOf s ks).getD 0
      (merge k o x true s, k)

/-- Rule 1: the record in force of the same cause. -/
def sameCause (s : State) (o : Occurrence) : Option Nat :=
  (List.range 32).find? fun k =>
    let r := s.frec k
    r.valid && r.inForce && r.sub == o.sub && r.cause == o.cause && r.engine == o.engine

/-- Rule 2: the record in handling of the same subsystem and engine, or of the fault in whose containment the
occurrence arose. -/
def inHandling (s : State) (o : Occurrence) : Option Nat :=
  (List.range 32).find? fun k =>
    let r := s.frec k
    r.valid && decide (o.time ≤ r.handling)
      && ((r.sub, r.engine) == (o.sub, o.engine) || some (r.sub, r.engine) == o.arises)

/-- The slot of an occurrence of class U or F by the first rule that applies (R305). -/
def place (o : Occurrence) (x : Reaction) (s : State) : State × Nat :=
  match sameCause s o with
  | some k => (recur k o x s, k)
  | none => match inHandling s o with
    | some k => (merge k o x false s, k)
    | none => placeNew o x s

/-! ## Escalation -/

/-- Whether an occurrence counts toward escalation (R311). -/
def counts (s : State) (o : Occurrence) (cls : Nat) : Bool :=
  cls == 2 && !o.outcome && !o.forced && (!o.injected || bit s.sbx.cfg 2)

/-- The F record of an escalation (R311): a further one in force recurs (R305 rule 1). -/
def placeEscalation (o : Occurrence) (s : State) : State :=
  let x := { noReaction with cls := 3 }
  match sameCause s o with
  | some k => recur k o x s
  | none => (placeNew o x s).1

/-- The counted occurrence is noted, as long as the longest window reaches; it escalates when the esc_count-th one
before it lies within the window (R311). -/
def escalate (o : Occurrence) (slot : Nat) (s : State) : State :=
  let hit := match s.sbx.escTimes[escCount s - 1]? with
    | some t => decide (o.time ≤ t + escWindow s)
    | none => false
  let times := o.time :: s.sbx.escTimes.filter fun t => decide (o.time ≤ t + 4000 * 1000000)
  let slots := (slot :: s.sbx.escSlots).take 5
  let s := { s with sbx := { s.sbx with escTimes := times, escSlots := slots } }
  if hit then
    let n := (times.filter fun t => decide (o.time ≤ t + escWindow s)).length
    let bits := packN ((List.range 5).map fun i => (5 * i, 5, slots.getD i 0))
    let e : Occurrence := { occ 12 6 0 (n * 2 ^ 32 + bits) with time := o.time }
    let s := s.markFault o.time
    enterFatal (placeEscalation e s)
  else s

/-- Counted occurrences in the last esc_window_ms (Table 16-10). -/
def escLevel (s : State) : Nat :=
  (s.sbx.escTimes.filter fun t => decide (s.now ≤ t + escWindow s)).length

/-! ## Receipt -/

/-- A C occurrence (R300, R302). -/
def receiveC (o : Occurrence) (s : State) : State :=
  let e := s.epochAt o.time
  let key := (e, o.sub, o.cause)
  let first := !s.sbx.cPairs.contains key
  let s := { s with sbx := { s.sbx with
    ccount := s.sbx.ccount.modify o.sub fun n => wrap 32 (n + 1),
    cepoch := s.sbx.cepoch.set o.sub e, cAt := some s.now } }
  let s := if s.ttb.running && first then
      emitFlt o 1 0 false { s with sbx := { s.sbx with cPairs := key :: s.sbx.cPairs } }
    else s
  refresh s

/-- The Signal Box applies an occurrence (R300, R305). The answer is the slot of its record, 0 for none.
A block whose boot failed makes no record (R366). -/
def receive (o : Occurrence) (s : State) : State × Nat :=
  let x := reactionOf s o
  if s.dsp.boot.state = 2 || x.cls = 0 then (s, 0)
  else if x.cls = 1 then (receiveC o s, 0)
  else
    let s := s.markFault o.time
    let (s, k) := place o x s
    let s := if x.cls = 3 then enterFatal s else s
    let s := if counts s o x.cls then escalate o k s else s
    (refresh s, k)

/-- A U record with no update for quiet_ms leaves force (R312). -/
def execQuietPeriodExpire (slot : Nat) (s : State) : Host.Outcome State Fault Refusal :=
  let r := s.frec slot
  next (when (s.core && r.valid && r.inForce && r.cls == 2 && !r.latched && !r.forced
      && decide (r.lastTime + quietNs s ≤ s.now))
    (fun s =>
      let s := s.setRec slot { r with inForce := false, exitTime := s.now }
      refresh { s with sbx := { s.sbx with recovery := sat 16 (s.sbx.recovery + 1) } }) s)

/-- quiet_ms after the latest C occurrence, C is no longer in force (R300). -/
def execCQuietExpire (s : State) : Host.Outcome State Fault Refusal :=
  next (match s.sbx.cAt with
    | some t => when (s.core && decide (t + quietNs s ≤ s.now))
        (fun s => refresh { s with sbx := { s.sbx with cAt := none } }) s
    | none => s)

/-- A Conductor pair's watchdog has not been kicked for 4 ms. DESIGN CHOICE: no command stands for a kick, so that the
last one known is the start of the pair, or the last expiry. -/
def watchdogDue (s : State) (pair : Nat) : Bool := decide (s.dsp.kickAt.getD pair 0 + 4000000 ≤ s.now)

def watchdogExpire (pair : Nat) (s : State) : State :=
  ({ s with dsp := { s.dsp with kickAt := s.dsp.kickAt.set pair s.now } } : State).raise 12 2 pair

/-- A Conductor pair whose watchdog has not been kicked for 4 ms (R304); cores that are halted have none. -/
def execConductorWatchdogExpire (pair : Nat) (s : State) : Host.Outcome State Fault Refusal :=
  next (when (s.core && s.dsp.coresRun && !s.dsp.halted && decide (pair < 2) && watchdogDue s pair)
    (watchdogExpire pair) s)

/-- A lockstep miscompare is a fatal fault (R7). -/
def execLockstepMiscompare (pair : Nat) (s : State) : Host.Outcome State Fault Refusal :=
  next (when (s.core && s.dsp.coresRun && !s.dsp.halted && decide (pair < 2)) (fun s => s.raise 12 1 pair) s)

/-! ## Commands -/

/-- SBX_CONFIG. A new hb_period applies from the next multiple of the new period (R310). -/
def sbxConfig (pk : List Word) (t : Ticket) (s : State) : State :=
  let w := clampSbxCfg (pw pk 1)
  let s := { s with sbx := { s.sbx with
    cfg := w, hbLast := if fld w 16 6 = fld s.sbx.cfg 16 6 then s.sbx.hbLast else s.now } }
  s.complete t statusDone 0 w

def execSbxConfig (w : Nat) (s : State) : Host.Outcome State Fault Refusal :=
  next (issue 0x90 w sbxConfig s)

/-- Slots freed: the forced record stays while the forced safe state holds, and does not count (R313). -/
def clearSlots (ks : List Nat) (s : State) : State × Nat :=
  let ks := ks.filter fun k => (s.frec k).valid && !((s.frec k).forced && s.sbx.forced)
  (refresh (forEach ks (fun k s => s.setRec k FRec.reset) s), ks.length)

def sbxClear (pk : List Word) (t : Ticket) (s : State) : State :=
  let (s, n) := clearSlots (if paramBit pk 31 then List.range 32 else [param pk 0 5]) s
  s.complete t statusDone n 0

def execSbxClear (w : Nat) (s : State) : Host.Outcome State Fault Refusal :=
  next (issue 0x92 w sbxClear s)

/-- REACT_SET; a row that does not exist changes nothing and returns result2 0 (R307). -/
def reactSet (pk : List Word) (t : Ticket) (s : State) : State :=
  let r := param pk 0 8
  if r < 0x8F then
    let w := clampReact (pw pk 1)
    let s := { s with sbx := { s.sbx with react := s.sbx.react.set r w } }
    s.complete t statusDone r w
  else s.complete t statusDone r 0

def execReactSet (w : Nat) (s : State) : Host.Outcome State Fault Refusal :=
  next (issue 0x93 w reactSet s)

/-- Word `i` of a fault record (Table 16-1). -/
def frecWord (k : Nat) (r : FRec) : Nat → Word
  | 0 => pack [(63, 1, b2n r.valid), (62, 1, b2n r.inForce), (61, 1, b2n r.injected),
      (60, 1, b2n r.forced), (59, 1, b2n r.overflow), (58, 1, b2n r.latched), (57, 1, b2n r.outcome),
      (56, 1, b2n r.safe), (48, 8, r.row), (32, 16, r.repeats),
      (0, 32, if r.valid then causeBits r.cls r.sub r.cause r.engine k r.coincident else 0)]
  | 1 => BitVec.ofNat 64 r.detect
  | 2 => BitVec.ofNat 64 r.detail
  | 3 => pack [(32, 32, r.epoch), (16, 16, r.merges), (0, 16, r.degrade.toNat)]
  | 4 => pack [(0, 32, r.second)]
  | 5 => BitVec.ofNat 64 r.lastTime
  | 6 => BitVec.ofNat 64 r.exitTime
  | 7 => BitVec.ofNat 64 r.secDetail
  | _ => 0

end Sys2Proof.Machine
end

