-- ==== Sys2Proof/Machine/Time.lean ====
section
/-! DEFINITION. The Timetable: its configuration, advance and discipline of block time, PPS (chapter "Time base
and epochs"). -/

namespace Sys2Proof.Machine

/-! ## Configuration -/

/-- TTB_CFG after its clamps (Table 04-2). -/
def clampTtbCfg (w : Word) : Word :=
  pack [(52, 12, clamp 1 3600 (fld w 52 12)), (44, 8, clamp 10 100 (fld w 44 8)),
    (24, 20, clamp 10 1000000 (fld w 24 20)), (16, 8, clamp 2 255 (fld w 16 8)), (14, 2, fld w 14 2),
    (8, 6, clamp 1 63 (fld w 8 6)), (0, 8, clamp 25 250 (fld w 0 8))]

def holdoverNs (t : Timetable) : Nat := fld t.cfg 52 12 * 1000000000
/-- Largest slew in ppb. -/
def slewPpb (t : Timetable) : Int := fld t.cfg 44 8 * 10000
def stepThrNs (t : Timetable) : Int := fld t.cfg 24 20 * 1000
def lockWinNs (t : Timetable) : Int := fld t.cfg 16 8 * 10
def ppsTolNs (t : Timetable) : Int := fld t.cfg 8 6 * 100
def ppsHoldEn (t : Timetable) : Bool := bit t.cfg 15
def ppsChkEn (t : Timetable) : Bool := bit t.cfg 14
/-- Sub-nanosecond units in 1 ns: a TIME_CLK period of 1000 / tclk_mhz ns is 1000 × 10^9 of them. -/
def accUnit (t : Timetable) : Nat := fld t.cfg 0 8 * 1000000000

/-- TTB_EPOCH_CFG after its clamps (Table 04-5). -/
def clampEpochCfg (w : Word) : Word :=
  pack [(44, 20, clamp 1000 1000000 (fld w 44 20)), (28, 16, fld w 28 16),
    (24, 4, clamp 1 15 (fld w 24 4)), (16, 8, clamp 110 255 (fld w 16 8)), (12, 4, fld w 12 4),
    (8, 1, fld w 8 1), (0, 5, min 16 (fld w 0 5))]

/-! The edges that lead up to a boundary are judged by the settings in force since the last one (R84); the
streams that are stamped and numbered follow the generation in force. -/

def nominalNs (t : Timetable) : Nat := fld t.eff 44 20 * 1000
def fsyncEn (t : Timetable) (i : Nat) : Bool := bit t.epochCfg (28 + i)
def missLimit (t : Timetable) : Nat := fld t.eff 24 4
def timeoutPct (t : Timetable) : Nat := fld t.eff 16 8
def framesPerEpoch (t : Timetable) : Nat := fld t.eff 12 4 + 1
def masterOf (t : Timetable) : Nat := fld t.eff 0 5

/-- The settings of the generation in force govern the edges from now on (R84): a new master drops the interval of
the old one and restarts synth_run. -/
def useEpochCfg (t : Timetable) : Timetable :=
  let t' := { t with eff := t.epochCfg }
  if masterOf t' = masterOf t then t' else { t' with interval := none, lastReal := none, synthRun := 0 }

/-! ## Advance and discipline -/

/-- Order of Table 04-7: LOCKED, SLEWING, HOLDOVER, FREERUN. -/
def badness : TimeState → Nat
  | .locked => 0
  | .slewing => 1
  | .holdover => 2
  | .freerun => 3

def worse (a b : TimeState) : TimeState := if badness a < badness b then b else a

/-- Code of a time state (Table 04-1). -/
def timeStateCode : TimeState → Nat
  | .freerun => 0
  | .locked => 1
  | .slewing => 2
  | .holdover => 3

def enterState (x : TimeState) (t : Timetable) : Timetable := { t with state := x, worst := worse t.worst x }

/-- Rate correction of one TIME_CLK period in ppb: the learned error, and the slew at exactly slew_max
against an offset or a phase error that stands (R75, R77). -/
def rateOf (t : Timetable) : Int :=
  let against := fun x : Int => if 0 < x then - slewPpb t else if x < 0 then slewPpb t else 0
  let slew : Int := match t.state with
    | .slewing => if t.stepWait then 0 else against t.offset
    | .holdover => if (t.ppsPhase.natAbs : Int) ≤ lockWinNs t * accUnit t then 0 else against t.ppsPhase
    | _ => 0
  slew - t.freqCorr

/-- One TIME_CLK period (R73). -/
def advance (t : Timetable) : Timetable :=
  let r := rateOf t
  let acc := t.acc + (1000 * (1000000000 + r)).toNat
  let slewed := 1000 * (r + t.freqCorr)
  { t with
    time := (t.time + acc / accUnit t) % 2 ^ 64, acc := acc % accUnit t,
    ppsPhase := if t.state == .holdover then t.ppsPhase + slewed else t.ppsPhase }

/-- Before the first boundary, block time is set to TIME_NS (R74). -/
def setTime (timeNs : Nat) (t : Timetable) : Timetable :=
  enterState .locked { t with time := timeNs, acc := 0, offset := 0, everValid := true, stepWait := false }

/-- A forward step has been announced with the boundary to come (R75). -/
def stepAnnounced (t : Timetable) : Bool := t.announced.any (·.step)

/-- After the first boundary (R75): an offset a long way behind, or one whose step has been announced, waits for
the step; any other offset beyond lock_win is slewed. -/
def compareTime (o : Int) (t : Timetable) : Timetable :=
  let t := { t with everValid := true }
  if (o.natAbs : Int) ≤ lockWinNs t then enterState .locked { t with stepWait := false }
  else enterState .slewing { t with
    stepWait := decide (o < - stepThrNs t) || (stepAnnounced t && decide (o < 0)) }

/-- TIME_VALID is 0 (R77). -/
def loseValid (t : Timetable) : Timetable :=
  if t.state == .locked || t.state == .slewing then
    enterState .holdover
      { t with timeValid := false, stepWait := false, holdoverAt := t.time, ppsPhase := 0 }
  else { t with timeValid := false }

/-- What the Timetable learns of the frequency error while LOCKED, within slew_max (R75, R77). -/
def learn (free : Nat) (t : Timetable) : Timetable :=
  if t.state == .locked then
    { t with freqCorr := clampI (- slewPpb t) (slewPpb t) (Config.learnedFreq free) }
  else t

/-- One TIME_CLK edge with TIME_VALID at 1. -/
def validEdge (timeNs free : Nat) (t : Timetable) : Timetable :=
  let o : Int := (t.time : Int) - timeNs
  let t := { t with timeValid := true, timeNs := timeNs, offset := o }
  learn free (
    if t.anyBoundary then compareTime o t
    else if !t.everValid || decide (lockWinNs t < o.natAbs) then setTime timeNs t
    else enterState .locked t)

/-- A time on the scale before a setting of block time, on the scale after it. -/
def moved (before after n : Nat) : Nat := ((n : Int) + after - before).toNat

/-- The Timetable's own times on the scale after a setting. -/
def shiftTimetable (f : Nat → Nat) (t : Timetable) : Timetable :=
  { t with
    prevMaster := t.prevMaster.map f, lastReal := t.lastReal.map f, lastAccepted := t.lastAccepted.map f,
    ppsAt := t.ppsAt.map f, announced := t.announced.map fun b => { b with t := f b.t, edge := f b.edge } }

/-- A station's own times on the scale after a setting. -/
def shiftStation (f : Nat → Nat) (x : Station) : Station :=
  { x with
    lastStamp := f x.lastStamp, tLc := f x.tLc, lastHand := f x.lastHand, clearAt := f x.clearAt,
    lastEdge := f x.lastEdge, active := { x.active with since := f x.active.since } }

/-- A setting of block time before the first boundary (R74) moves what has been timed so far with it: the base of
boot_us (Table 20-10), the moment of R364, edges already stamped, a boundary already announced, and the ages that
the stations and the governor keep. DESIGN CHOICE: no rule says what becomes of them. -/
def shiftTimes (before after : Nat) (s : State) : State :=
  if before = after then s
  else
    let f := moved before after
    { s with
      ttb := shiftTimetable f s.ttb, stn := s.stn.map (shiftStation f),
      dsp := { s.dsp with kickAt := s.dsp.kickAt.map f, boot := { s.dsp.boot with started := f s.dsp.boot.started } },
      sbx := { s.sbx with refillAt := f s.sbx.refillAt, fcAt := s.sbx.fcAt.map f } }

/-- A TIME_CLK edge (R73-R77). -/
def timeAdvance (timeNs : Nat) (valid : Bool) (s : State) : State :=
  let t := advance s.ttb
  if valid then
    let t' := validEdge timeNs s.free t
    shiftTimes t.time t'.time { s.draw with ttb := t' }
  else { s with ttb := loseValid { t with timeNs := timeNs } }

def execTimeValidFall (s : State) : Host.Outcome State Fault Refusal :=
  next (when (s.timeRuns && (s.ttb.state == .locked || s.ttb.state == .slewing))
    (fun s => { s with ttb := loseValid s.ttb }) s)

/-- The last offset as the 64-bit detail of "time reference lost". -/
def execHoldoverExpire (s : State) : Host.Outcome State Fault Refusal :=
  next (when (s.timeRuns && s.ttb.state == .holdover && decide (s.ttb.holdoverAt + holdoverNs s.ttb ≤ s.now))
    (fun s => ({ s with ttb := enterState .freerun s.ttb } : State).raise 2 1 0 (unsigned 64 s.ttb.offset)) s)

/-- Distance of a time from the nearest whole second, signed. -/
def secondPhase (t : Nat) : Int :=
  if t % 1000000000 ≤ 500000000 then (t % 1000000000 : Nat) else (t % 1000000000 : Nat) - 1000000000

/-- A PPS_IN edge (R77): it steers phase in HOLDOVER, and it is checked while TIME_VALID is 1. -/
def ppsEdge (s : State) : State :=
  let p := secondPhase s.now
  let t := { s.ttb with ppsAt := some s.now }
  let t := if t.state == .holdover && ppsHoldEn t then { t with ppsPhase := p * accUnit t } else t
  if t.timeValid && ppsChkEn t && decide (ppsTolNs t < p.natAbs) then
    ({ s with ttb := { t with ppsErr := sat 16 (t.ppsErr + 1) } } : State).raise 2 2 0 (unsigned 64 p)
  else { s with ttb := t }

def execPpsEdge (s : State) : Host.Outcome State Fault Refusal := next (when s.timeRuns ppsEdge s)

/-- The upper part of block time, once per millisecond and ahead of each wrap of the coarse count (R79). -/
def execUpperTimeMessage (s : State) : Host.Outcome State Fault Refusal :=
  let t := s.ttb
  next (when (s.timeRuns && (decide (t.time < t.upperAt) || decide (t.upperAt + 1000000 ≤ t.time)
      || decide (2 ^ 33 - t.time % 2 ^ 33 ≤ 1000000)))
    (fun s => { s with ttb := { s.ttb with upper := t.time / 2 ^ 33, upperAt := t.time } }) s)

end Sys2Proof.Machine
end

