-- ==== Sys2Proof/Machine/Regs.lean ====
section
/-! DEFINITION. The register window: what a read of each word returns, without side effect, and the
configuration fingerprint (chapters "Start-up and configuration" and "Management chain"). An offset that
is not listed reads 0 (R3, R374). -/

namespace Sys2Proof.Machine

def blkVersion : Nat := 0x0204005A

def nat64 (n : Nat) : Word := BitVec.ofNat 64 n

/-- Word `i` of a table at `base` with words `step` bytes apart: the index that an offset names. -/
def slotAt (off base step count : Nat) : Option Nat :=
  if base ≤ off ∧ off < base + step * count ∧ (off - base) % step = 0 then some ((off - base) / step)
  else none

/-- Bytes 8i to 8i + 7, byte 8i in [63:56]. -/
def beWord (b : List Byte) (i : Nat) : Word := nat64 (ofBe ((b.drop (8 * i)).take 8))

/-! ## Stations (Table 05-2) -/

def stnStateCode (x : Station) : Nat :=
  match x.st with
  | .notEnum => 0
  | .running => 1
  | .parked => 2
  | .failed => 3

def fill256 (n size : Nat) : Nat := if size = 0 then 0 else sat 8 (n * 256 / size)

def stnStatus (x : Station) : Word :=
  pack [(62, 2, stnStateCode x), (61, 1, b2n x.inReset), (60, 1, b2n x.flushInc), (55, 5, x.curCtx),
    (32, 16, x.curTag), (24, 8, fill256 (traceFill x) (traceSize x)), (16, 8, fill256 (opFill x) (opSize x)),
    (0, 16, x.pathDelay)]

/-- Offset `o` of the block of station `n`; a station at or beyond enum_count reads 0 (R375). -/
def stnReg (s : State) (n o : Nat) : Word :=
  let x := s.station n
  if s.dsp.enumCount ≤ n then 0
  else match o with
    | 0x000 => x.cfg
    | 0x008 => x.evselLo
    | 0x010 => x.evselHi
    | 0x018 => x.accFilt
    | 0x020 => stnStatus x
    | 0x028 => pack [(32, 32, x.lostTrace), (0, 32, x.lostOp)]
    | 0x030 => pack [(48, 16, x.ctxOverrun), (32, 16, x.eccCorr), (16, 16, x.eccUncorr), (0, 16, x.parkCount)]
    | _ =>
      match slotAt o 0x40 8 32, slotAt o 0x140 8 16, slotAt o 0x1C0 8 64 with
      | some i, _, _ => x.tagmap.getD i 0
      | _, some i, _ => x.thresh.getD i 0
      | _, _, some i =>
        let v := x.win.getD (i / 8) SnoopWin.reset
        match i % 8 with
        | 0 => v.base
        | 1 => v.limit
        | 2 => v.ctl
        | 3 => v.row
        | 4 => v.col
        | _ => 0
      | _, _, _ => 0

/-! ## Timetable -/

/-- TTB_STATUS (Table 04-3). -/
def ttbStatus (t : Timetable) : Word :=
  let seen := match t.ppsAt with | some p => decide (t.time ≤ p + 2000000000) | none => false
  pack [(62, 2, timeStateCode t.state), (61, 1, b2n t.timeValid), (60, 1, b2n seen),
    (32, 24, unsigned 24 t.freqCorr), (0, 32, unsigned 32 (clampI (-(2 ^ 31) + 1) (2 ^ 31 - 1) t.offset))]

/-- TTB_COUNTS (Table 04-4). -/
def ttbCounts (t : Timetable) : Word :=
  pack [(48, 16, t.stepCount), (32, 16, t.ppsErr), (16, 16, t.early), (0, 16, t.synth)]

def ttbReg (s : State) (o : Nat) : Word :=
  let t := s.ttb
  match o with
  | 0x100 => nat64 t.time
  | 0x108 => ttbStatus t
  | 0x110 => ttbCounts t
  | 0x118 => t.epochCfg
  | 0x120 => pack [(32, 32, t.epoch), (24, 8, t.synthRun), (23, 1, b2n t.running)]
  | 0x128 => nat64 t.epochT
  | _ => 0

/-! ## Start-up, Junction, token line -/

/-- BOOT_STATUS and BIST_STATUS (Table 20-10). -/
def bootStatus (b : Boot) : Word :=
  pack [(62, 2, b.state), (61, 1, b.slot), (52, 4, b.failB), (48, 4, b.failA), (0, 32, sat 32 b.bootUs)]

def bistStatus (b : Bist) : Word :=
  pack [(63, 1, b2n b.done), (62, 1, b2n b.blocking), (32, 16, b.words), (11, 1, b2n b.sbxOk),
    (10, 1, b2n b.trngOk), (8, 2, b.condOk.toNat), (4, 4, b.decFail.toNat), (0, 4, b.arrFail.toNat)]

/-- Live sidings and free pool space (SDG_POOL_STATUS). -/
def poolStatus (s : State) : Word :=
  let used := sumOf (fun d => if d.state = 0 then 0 else 2 ^ d.sizeCode) s.sdg.desc
  pack [(48, 16, (s.sdg.desc.filter isLive).length), (12, 16, 2048 - used)]

def routeWord (s : State) (lo : Nat) : Word :=
  pack ((List.range 32).map fun i => (2 * i, 2, s.jct.route.getD (lo + i) 0))

def jctReg (s : State) (o : Nat) : Word :=
  match o with
  | 0x200 => s.jct.cfg
  | 0x208 => pack [(57, 7, holdingSrc s), (56, 1, b2n (!s.myd.inq.isEmpty)), (0, 32, s.jct.overrun)]
  | 0x210 => nat64 s.jct.released
  | 0x218 => nat64 (maskOf ((List.range 64).filter (inMerge s)))
  | 0x220 => routeWord s 0
  | 0x228 => routeWord s 32
  | _ => 0

/-- TKL_STATUS (Table 19-7). -/
def tklStatus (s : State) : Word :=
  let x := s.tkl
  pack [(63, 1, b2n x.addrValid), (58, 5, x.addr), (55, 3, x.verOp), (52, 3, 2), (49, 3, 1),
    (48, 1, b2n s.dsp.takeover), (47, 1, b2n x.auto), (46, 1, b2n s.sbx.forced), (45, 1, b2n x.clash),
    (16, 16, x.crcErr), (0, 16, x.verRej)]

def tklReg (s : State) (o : Nat) : Word :=
  match o with
  | 0x300 => s.tkl.cfg
  | 0x308 => tklStatus s
  | _ => match slotAt o 0x310 8 4 with
    | some i => beWord s.dsp.fp i
    | none => 0

/-! ## Ports -/

/-- Queued bytes of a lane (R345). -/
def laneQueued (l : Lane) : Nat :=
  let size := fun f : Option Frame => match f with | some f => f.sent + f.bytes.length | none => 0
  size l.cur + size l.next

def memReg (s : State) (o : Nat) : Word :=
  let m := s.mem
  match o with
  | 0x600 => pack [(56, 8, outstanding s 0), (48, 8, outstanding s 1), (40, 8, outstanding s 2),
      (32, 8, outstanding s 3), (0, 9, m.txns.length)]
  | 0x608 => pack [(48, 16, m.rdErr), (32, 16, m.rspErr), (16, 16, m.timeouts), (0, 16, m.proto)]
  | _ => 0

def expReg (s : State) (o : Nat) : Word :=
  match slotAt o 0 8 2, slotAt o 0x100 8 34 with
  | some x, _ =>
    let l := s.exp.lanes.getD x Lane.reset
    pack [(32, 32, l.frames), (0, 24, laneQueued l)]
  | _, some i =>
    let x := s.exp.sess.getD (i / 2) Session.reset
    if i % 2 = 0 then
      pack [(63, 1, b2n x.isOpen), (62, 1, b2n x.enc), (60, 2, x.lanes), (59, 1, b2n x.ended),
        (56, 3, x.cause), (48, 8, x.siding), (0, 32, x.id)]
    else nat64 x.seq
  | _, _ => if o = 0x10 then pack [(32, 32, s.exp.discarded)] else 0

/-! ## Verdicts, tracks, Tensor Checker, Pilot, Weighbridge -/

def readyItems (s : State) (t : Nat) : Nat :=
  (s.wtp.items.filter fun i => i.track == t && i.phase == 1).length

def verdictReg (s : State) (o : Nat) : Word :=
  let w := s.wtp
  match o with
  | 0x00 => pack [(32, 32, w.passCnt), (0, 32, w.mismCnt)]
  | 0x08 => pack [(32, 32, w.incCnt), (0, 32, w.lateCnt)]
  | 0x10 => pack [(32, 32, w.skipCnt), (0, 32, w.wdrCnt)]
  | 0x18 => pack [(32, 32, w.dropped), (0, 32, w.notArr)]
  | 0x20 => pack [(32, 32, w.trackLost), (0, 32, w.noStn)]
  | 0x28 => pack [(32, 32, w.actFull)]
  | 0x30 => pack ((56, 8, sat 8 (heldVrd s / 16)) :: (List.range 4).map fun t => (8 * t, 8, sat 8 (readyItems s t)))
  | 0x38 => w.lastMm
  | 0x40 => pack [(32, 32, w.shortEp), (0, 32, w.shortCnt)]
  | _ => 0

def trackReg (s : State) (o : Nat) : Word :=
  if o = 0x100 then
    pack [(4, 4, maskOf ((List.range 4).filter fun t => (s.track t).state == 2)),
      (0, 4, maskOf ((List.range 4).filter fun t => (s.track t).state == 1))]
  else if o < 0x100 then
    let x := s.track (o / 0x40)
    match o % 0x40 with
    | 0x00 => pack [(62, 2, x.state), (56, 6, x.cause), (0, 32, x.wdEpoch)]
    | 0x08 => pack [(48, 16, x.actCorr), (32, 16, x.actUncorr), (16, 16, x.wstCorr), (0, 16, x.wstUncorr)]
    | 0x10 => pack [(32, 32, x.retry), (0, 32, x.katEpoch)]
    | 0x18 => pack [(32, 32, x.clipLow), (0, 32, x.clipHigh)]
    | 0x20 => pack [(32, 16, x.tagFail), (0, 8, x.slotValid.toNat)]
    | _ => 0
  else 0

/-- Bytes of the plan store in use. -/
def planStoreUsed (s : State) : Nat :=
  sumOf (fun x : PlanSlot => match x.plan with | some p => p.totalLen | none => 0) s.wtp.slots

def planWord (x : PlanSlot) : Word :=
  let code := if x.deferred then 3 else x.state
  match x.plan with
  | some p => pack [(62, 2, code), (56, 1, b2n (x.owner == 16)), (52, 4, if x.owner < 16 then x.owner else 0),
      (48, 4, p.stream), (40, 8, p.planId), (0, 16, p.layers.length)]
  | none => pack [(62, 2, code)]

def wtpReg (s : State) (o : Nat) : Word :=
  let w := s.wtp
  match o with
  | 0x000 => w.cover
  | 0x008 => w.frac
  | 0x010 => pack [(0, 21, planStoreUsed s)]
  | _ => match slotAt o 0x100 8 32, slotAt o 0x200 8 64 with
    | some i, _ =>
      let x := w.slots.getD (i / 2) PlanSlot.reset
      if i % 2 = 0 then planWord x
      else match x.plan with | some p => beWord p.digest 0 | none => 0
    | _, some n => w.cov.getD n 0
    | _, _ => 0

/-- A model slot is in use while an armed stream names it or a frame of it is in progress (R240). -/
def modelInUse (s : State) (k : Nat) : Bool :=
  (s.plt.streams.any fun x => bit x.word 63 && fld x.word 61 2 == k)
    || s.plt.frames.any fun f => f.slot == k && f.track.isSome && !f.judged

def modelWord (s : State) (k : Nat) : Word :=
  let x := s.plt.models.getD k PSlot.reset
  let code := if x.deferred then 3 else match x.model with
    | none => 0
    | some _ => if modelInUse s k then 2 else 1
  match x.model with
  | some m => pack [(62, 2, code), (61, 1, b2n (x.owner == 16)), (56, 4, if x.owner < 16 then x.owner else 0),
      (48, 8, m.layers.length), (32, 16, m.bundle), (0, 32, m.steps)]
  | none => pack [(62, 2, code)]

def streamStat (x : PStream) : Word :=
  pack [(63, 1, b2n (bit x.word 63 && x.owner == 16)),
    (56, 4, if bit x.word 63 && decide (x.owner < 16) then x.owner else 0),
    (32, 6, match x.zones with | some z => z.zones.length | none => 0), (0, 32, x.frame)]

def pilotReg (s : State) (o : Nat) : Word :=
  let p := s.plt
  match o with
  | 0x000 => pack [(32, 32, p.judged), (0, 32, p.implaus)]
  | 0x008 => pack [(48, 16, p.skBudget), (32, 16, p.skSram), (16, 16, p.skInput), (0, 16, p.skOther)]
  | 0x010 => pack [(32, 32, p.noHost), (16, 16, p.overrun)]
  | _ => match slotAt o 0x100 8 4, slotAt o 0x200 8 16, slotAt o 0x280 8 16 with
    | some k, _, _ => modelWord s k
    | _, some i, _ => (p.streams.getD i PStream.reset).word
    | _, _, some i => streamStat (p.streams.getD i PStream.reset)
    | _, _, _ => 0

def wbrReg (s : State) (o : Nat) : Word :=
  let w := s.wbr
  match o with
  | 0x000 => pack [(32, 32, w.lateElems), (16, 16, w.satEv), (0, 16, w.underEv)]
  | 0x008 => w.sat
  | 0x010 => w.under
  | _ => match slotAt o 0x100 8 128 with
    | some i => if i % 2 = 0 then w.sel.getD (i / 2) 0 else w.q.getD (i / 2) 0
    | none => 0

/-! ## Dispatcher -/

/-- A ready packet waits under R264. -/
def windowHeld (s : State) (w : Nat) : Bool :=
  (headPacket s w).isSome && ((s.win w).isOpen || departing s w) && !roomToIssue s w

/-- Free words of a command FIFO: packets that have not issued and the one being assembled hold theirs
(R253). -/
def fifoUsed (x : CmdWin) : Nat :=
  sumOf (fun p => p.words.length) x.ready + (match x.asm with | some a => if a.drop then 0 else a.need | none => 0)

def wstatus (s : State) (w : Nat) : Word :=
  let x := s.win w
  pack [(63, 1, b2n x.isOpen), (62, 1, b2n (windowHeld s w)), (48, 8, x.compl), (32, 16, x.refused),
    (16, 16, x.lostRep), (8, 8, sat 8 x.abandoned), (0, 7, 64 - fifoUsed x)]

def dspReg (s : State) (o : Nat) : Word :=
  let d := s.dsp
  match o with
  | 0x00 => pack [(32, 32, d.activeGen), (31, 1, b2n (!(d.pending.isEmpty && d.frozen.isEmpty))),
      (30, 1, b2n d.takeover), (29, 1, b2n d.commitHeld.isSome), (0, 16, d.heldQ.length)]
  | 0x08 => pack [(0, 32, d.fwVersion)]
  | _ => match slotAt o 0x10 8 4, slotAt o 0x80 8 17 with
    | some i, _ => beWord d.fwHash i
    | _, some w => wstatus s w
    | _, _ => 0

/-! ## Interlocking -/

/-- ILK_ID[i]: device_id, q_id and the manufacturing trace data (R287, Table 15-10). -/
def identityWord (s : State) (i : Nat) : Word :=
  let fuse := fun k : Nat => (s.ilk.fuses.getD k 0).toNat
  let trace := fun k : Nat => pack [(0, 32, fuse (9 + 2 * k)), (32, 32, if k < 3 then fuse (10 + 2 * k) else 0)]
  match s.ilk.identity with
  | none => 0
  | some d =>
    if i = 0 then beWord d.deviceId 0
    else if i ≤ 4 then beWord (beBytes 32 d.qx) (i - 1)
    else if i ≤ 8 then beWord (beBytes 32 d.qy) (i - 5)
    else trace (i - 9)

/-- Contexts and key slots of an owner. -/
def ctxMaskOf (s : State) (p : Nat) : Nat := maskOf ((List.range 32).filter fun c => s.ctxOwner c == p)

def keyMaskOf (s : State) (p : Nat) : Nat :=
  maskOf ((List.range 8).filter fun i => match s.ilk.keys.getD i none with
    | some k => k.owner == p
    | none => false)

def partWord (s : State) (p : Nat) : Word :=
  let x := s.part p
  pack [(62, 2, x.state), (61, 1, b2n x.mirror), (60, 1, b2n (s.exp.sess.getD p Session.reset).isOpen),
    (48, 8, (s.win p).compl), (32, 8, keyMaskOf s p), (0, 32, ctxMaskOf s p)]

def winErr (s : State) (p : Nat) : Word :=
  pack [(48, 16, s.ilk.refused.getD p 0), (0, 48, s.ilk.lastAddr.getD p 0)]

def windowWord (s : State) (p k : Nat) : Word :=
  let x := (s.ilk.win.getD p []).getD (k / 2) Window.reset
  if k % 2 = 0 then x.base else x.size

/-- Window bytes still to zero-write, in units of 4 KiB (ILK_SCRUB). -/
def scrubLeft (s : State) : Nat :=
  let size := fun x : Window => if bit x.base 1 then winSize x else 0
  sumOf (fun j : Job => match j.purpose with
    | .scrub p k => (j.len - j.issued + sumOf size (((s.ilk.win.getD p []).drop (k + 1)))) / 4096
    | _ => 0) s.mem.jobs

def ilkReg (s : State) (o : Nat) : Word :=
  let x := s.ilk
  let dev := (x.fuses.getD 8 0).toNat
  match o with
  | 0x000 => pack [(63, 1, b2n x.identity.isSome), (61, 2, x.trng), (60, 1, b2n x.testState), (59, 1, dev),
      (58, 1, dev / 2), (0, 32, x.serial)]
  | 0x008 => nat64 x.switchTs
  | 0x010 => pack [(57, 7, x.switchSrc), (0, 32, x.switchSeq)]
  | 0x018 => nat64 x.rint.toNat
  | 0x020 => nat64 x.rint.toNat
  | 0x028 => pack [(63, 1, b2n x.scrubActive), (59, 4, x.scrubPart), (24, 24, x.scrubFail), (0, 24, sat 24 (scrubLeft s))]
  | 0x030 => pack [(48, 16, x.rctFails), (32, 16, x.aptFails), (0, 32, x.blocks)]
  | 0x038 => x.unobs
  | _ => match slotAt o 0x40 8 13, slotAt o 0x100 8 32, slotAt o 0x200 8 136, slotAt o 0x700 8 17 with
    | some i, _, _, _ => identityWord s i
    | _, some i, _, _ => if i % 2 = 0 then partWord s (i / 2) else nat64 (s.part (i / 2)).pint.toNat
    | _, _, some i, _ => windowWord s (i / 8) (i % 8)
    | _, _, _, some p => winErr s p
    | _, _, _, _ => 0

/-! ## Ledger, Signal Box, Sidings -/

def ldgReg (s : State) (o : Nat) : Word :=
  let x := s.ldg
  match o with
  | 0x000 =>
    let on := match x.sweep with | some w => decide (w.pos < 1048576) | none => false
    pack [(63, 1, b2n on), (62, 1, b2n x.phase), (32, 16, x.withdrawn), (0, 32, x.lastEpoch)]
  | 0x008 => pack [(32, 32, x.eccCorr), (16, 16, x.eccUncorr), (8, 8, x.lateDelta), (0, 6, x.lastBank)]
  | _ => match slotAt o 0x100 8 32, slotAt o 0x200 8 34, slotAt o 0x800 8 256 with
    | some c, _, _ => x.ctx.getD c 0
    | _, some i, _ => if i % 2 = 0 then x.cfg.addr.getD (i / 2) 0 else x.cfg.ctl.getD (i / 2) 0
    | _, _, some i => x.cfg.chain.getD i 0
    | _, _, _ => 0

def sbxReg (s : State) (o : Nat) : Word :=
  let x := s.sbx
  let slots := fun f : FRec → Bool => maskOf ((List.range 32).filter fun k => f (s.frec k))
  match o with
  | 0x000 => x.cfg
  | 0x008 => pack [(62, 2, x.state), (61, 1, b2n x.forced), (60, 1, b2n x.safeReq), (58, 2, x.faultClass),
      (57, 1, b2n x.heartbeat), (56, 1, b2n x.cAt.isSome), (32, 16, x.degrade.toNat)]
  | 0x010 => pack [(32, 32, slots (·.valid)), (0, 32, slots fun r => r.valid && r.inForce)]
  | 0x018 => pack [(48, 16, x.recovery), (32, 16, x.overwritten), (16, 16, x.mergeTotal), (0, 16, escLevel s)]
  | 0x020 => pack [(32, 32, x.injected), (16, 16, x.coincident)]
  | 0x028 => x.govCfg
  | 0x030 => pack [(48, 8, x.naturalRate), (44, 4, x.vtBand), (24, 8, x.busy.getD 3 0), (16, 8, x.busy.getD 2 0),
      (8, 8, x.busy.getD 1 0), (0, 8, x.busy.getD 0 0)]
  | _ => match slotAt o 0x40 8 13, slotAt o 0x100 8 0x8F, slotAt o 0x800 8 256 with
    | some j, _, _ => pack [(32, 32, x.cepoch.getD j 0), (0, 32, x.ccount.getD j 0)]
    | _, some r, _ => x.react.getD r 0
    | _, _, some i => frecWord (i / 8) (s.frec (i / 8)) (i % 8)
    | _, _, _ => 0

/-- SDG_CFG (Table 08-7). -/
def sdgCfgWord (s : State) (i : Nat) : Word :=
  let d := s.siding i
  pack [(62, 2, d.state), (60, 2, d.consumer), (58, 2, producerOf s i), (57, 1, b2n d.autoRel),
    (56, 1, b2n (decide (i < 4))), (48, 5, ownerCode d.owner), (44, 4, d.sizeCode), (40, 4, d.slot),
    (12, 11, d.base / 4096)]

def sdgReg (s : State) (i o : Nat) : Word :=
  let d := s.siding i
  match o with
  | 0x00 => sdgCfgWord s i
  | 0x08 => pack [(52, 1, b2n d.itemOpen), (32, 20, d.itemStart), (0, 20, d.wr)]
  | 0x10 => pack [(63, 1, b2n d.markValid), (62, 1, b2n d.markLost), (40, 20, d.mark), (20, 20, d.rd), (0, 20, d.rel)]
  | 0x18 => pack [(63, 1, b2n d.intEn), (62, 1, b2n (sidingPending d)), (40, 20, d.intLevel), (20, 20, d.avail),
      (0, 20, d.level)]
  | 0x20 => if i < 4 then pack [(17, 1, b2n d.xoff), (16, 1, b2n d.wmEn), (8, 8, d.hi), (0, 8, d.lo)] else 0
  | 0x28 => pack [(48, 16, d.eccCorr), (32, 16, d.eccUncorr), (16, 16, d.withdrawn), (8, 8, d.framing), (0, 8, d.underrun)]
  | 0x30 => pack [(48, 16, d.faultDisc), (7, 41, d.memBase / 128), (0, 5, d.memSize)]
  | 0x38 => pack [(32, 32, d.memWr), (0, 32, d.memRd)]
  | _ => 0

/-- A slot block (Table 08-14); SDG_POP reads 0 here, its own step hands out words. -/
def slotReg (s : State) (page k o : Nat) : Word :=
  match slotSiding s page k with
  | none => 0
  | some i =>
    let d := s.siding i
    match o with
    | 0x00 => pack [(8, 1, 1), (0, 8, i)]
    | 0x10 => pack [(20, 20, d.avail), (0, 20, d.level)]
    | 0x18 => pack [(0, 32, d.memWr)]
    | _ => 0

/-! ## Pages -/

/-- The Root page (Table 20-7); `view` is the station behind the aperture. -/
def rootReg (s : State) (view o : Nat) : Word :=
  if o < 0x100 then
    match o with
    | 0x00 => nat64 blkVersion
    | 0x08 => bootStatus s.dsp.boot
    | 0x10 => bistStatus s.dsp.bist
    | 0x18 => pack [(0, 7, s.dsp.enumCount)]
    | 0x20 => poolStatus s
    | _ => 0
  else if o < 0x200 then ttbReg s o
  else if o < 0x300 then jctReg s o
  else if o < 0x400 then tklReg s o
  else if o < 0x600 then
    match slotAt o 0x400 8 33 with | some i => (s.myd.streams.getD i Stream.reset).cfg | none => 0
  else if o < 0x700 then memReg s o
  else if o < 0x800 then verdictReg s (o - 0x700)
  else if o < 0xA00 then trackReg s (o - 0x800)
  else if o < 0xC00 then dspReg s (o - 0xA00)
  else if o < 0x1000 then pilotReg s (o - 0xC00)
  else if o < 0x1400 then expReg s (o - 0x1000)
  else if o < 0x1800 then wtpReg s (o - 0x1400)
  else if o < 0x2000 then ilkReg s (o - 0x1800)
  else if o < 0x2800 then wbrReg s (o - 0x2000)
  else if o < 0x2C00 then stnReg s view (o - 0x2800)
  else if o < 0x2E00 then stnReg s ((o - 0x2C00) / 8) 0x20
  else if o < 0x3000 then 0
  else if o < 0x4000 then ldgReg s (o - 0x3000)
  else if o < 0x5000 then sbxReg s (o - 0x4000)
  else if o < 0x8000 then 0
  else if o < 0xC000 then sdgReg s ((o - 0x8000) / 0x40) ((o - 0x8000) % 0x40)
  else slotReg s 16 ((o - 0xC000) / 0x40) ((o - 0xC000) % 0x40)

/-- The privileged page of partition `n` (Table 20-8). -/
def privReg (s : State) (n o : Nat) : Word :=
  match o with
  | 0x000 => wstatus s n
  | 0x100 => partWord s n
  | 0x108 => nat64 (s.part n).pint.toNat
  | 0x110 => winErr s n
  | _ => match slotAt o 0x120 8 8 with
    | some i => windowWord s n i
    | none => if 0x400 ≤ o ∧ o < 0x800 then slotReg s n ((o - 0x400) / 0x40) ((o - 0x400) % 0x40) else 0

/-- The user page of partition `n` (Table 20-9): what an observe read returns, which latches nothing and
is denied what user code may not read (R145), the latch of an entry that is not live among it (R283). -/
def userReg (s : State) (n o : Nat) : Word :=
  let sel := s.ldg.userSel.getD n 0
  let show_ := fun i : Nat => if userMayRead s n i then readCounter s i else deniedRead
  match o with
  | 0x00 => sel
  | 0x08 => show_ (fld sel 0 20)
  | 0x10 => show_ (fld sel 0 20 / 2 * 2)
  | 0x18 => if (s.part n).state = 1 then s.ldg.userHi.getD n 0 else deniedRead
  | 0x100 => pack [(4, 1, b2n ((s.part n).state == 1)), (0, 4, n)]
  | _ => 0

/-! ### The Sealed Meter page (Tables 17-9, 17-10) -/

/-- A tally in the read format (Table 17-4). -/
def tallyWord (t : Tally) (map : Word) : Word :=
  pack [(63, 1, b2n t.lost), (62, 1, b2n t.sat), (61, 1, fld map 63 1), (0, 56, t.count)]

def meterState (m : Meter) : Nat := if m.inReset then 4 else m.state

/-- The first 32 bytes of an audit record (R329). -/
def auditHead (a : Audit) : List Byte :=
  leBytes 2 0x4144 ++ leBytes 1 a.kind ++ leBytes 1 0 ++ leBytes 4 a.seals ++ leBytes 8 a.seq
    ++ leBytes 8 a.time ++ leBytes 8 a.detail

/-- Word `j` of slot `i` of the audit ring: bytes of the record, byte 8j in bits [7:0]. -/
def auditWord (m : Meter) (i j : Nat) : Word :=
  match m.audit.find? fun a => a.seq % 256 == i with
  | some a => nat64 (leAt (auditHead a ++ a.chain) (8 * j) 8)
  | none => 0

/-- Bytes in the program store. -/
def meterReg (s : State) (o : Nat) : Word :=
  let m := s.mtr
  match o with
  | 0x00 => pack [(32, 1, b2n m.romImage), (0, 32, m.version)]
  | 0x08 => pack [(61, 3, meterState m), (60, 1, b2n m.sealOpen), (59, 1, b2n m.key.isSome), (0, 32, m.seals)]
  | 0x70 => nat64 s.ttb.time
  | 0x78 => ttbStatus s.ttb
  | 0x80 => ttbCounts s.ttb
  | 0x88 => s.ttb.cfg
  | 0x90 => pack [(32, 32, m.img.length), (2, 1, b2n m.imgValid), (1, 1, b2n m.imgFail)]
  | 0xA0 => nat64 m.evSeq
  | 0xA8 => nat64 m.audSeq
  | _ =>
    match slotAt o 0x10 8 4, slotAt o 0x30 8 8, slotAt o 0x1000 8 256, slotAt o 0x1800 8 256,
      slotAt o 0x2000 8 2048 with
    | some i, _, _, _, _ => beWord m.fp i
    | _, some i, _, _, _ =>
      match m.key with
      | none => 0
      | some (_, x, y) => if i < 4 then beWord (beBytes 32 x) i else beWord (beBytes 32 y) (i - 4)
    | _, _, some t, _, _ => m.map.getD t 0
    | _, _, _, some t, _ => tallyWord (m.tally.getD t Tally.reset) (m.map.getD t 0)
    | _, _, _, _, some i => auditWord m (i / 8) (i % 8)
    | _, _, _, _, _ => 0

/-- A read of the word at byte address `a` of the register window (Table 00-4), without side effect. -/
def pageReg (s : State) (view a : Nat) : Word :=
  let o := a % 0x10000
  if a < 0x10000 then rootReg s view o
  else if 0x100000 ≤ a ∧ a < 0x200000 then privReg s ((a - 0x100000) / 0x10000) o
  else if 0x200000 ≤ a ∧ a < 0x300000 then userReg s ((a - 0x200000) / 0x10000) o
  else if 0x300000 ≤ a ∧ a < 0x310000 then meterReg s o
  else 0

/-- The word that a read returns: 0 while the core macro is in reset or off (R44). -/
def readReg (s : State) (view a : Nat) : Word := if s.core then pageReg s view a else 0

/-! ## The configuration fingerprint (R358, R377) -/

/-- Bits of a field. -/
def fieldMask (fs : List (Nat × Nat)) : Nat := fs.foldl (fun m f => m ||| (2 ^ f.2 - 1) * 2 ^ f.1) 0

def maskWord (m : Nat) (w : Word) : Word := w &&& BitVec.ofNat 64 m

/-- Offsets of a station block that hold E fields, each with its E bits (Tables 05-3 to 05-10). -/
def stnEFields : List (Nat × Nat) :=
  [(0x00, fieldMask [(27, 5), (0, 24)]), (0x08, 2 ^ 64 - 1), (0x10, 2 ^ 64 - 1), (0x18, 2 ^ 64 - 1)]
  ++ (List.range 32).map (fun i => (0x40 + 8 * i, 2 ^ 64 - 1))
  ++ (List.range 16).map (fun i => (0x140 + 8 * i, 2 ^ 64 - 1))
  ++ (List.range 8).flatMap (fun w => (List.range 3).map fun j => (0x1C0 + 0x40 * w + 8 * j, 2 ^ 64 - 1))

/-- The Root-page registers below the aperture that hold E or Q fields, in ascending order, with the bits
of those fields. -/
def lowEFields : List (Nat × Nat) :=
  [(0x118, 2 ^ 64 - 1), (0x200, 0xFF)]
  ++ (List.range 33).map (fun i => (0x400 + 8 * i, fieldMask [(36, 12)]))
  ++ (List.range 16).map (fun i => (0xE00 + 8 * i, 2 ^ 64 - 1))
  ++ [(0x1400, 2 ^ 64 - 1)]
  ++ (List.range 64).flatMap (fun i => [(0x2100 + 0x10 * i, fieldMask [(16, 48)]), (0x2108 + 0x10 * i, 2 ^ 64 - 1)])

def highEFields : List (Nat × Nat) :=
  (List.range 17).flatMap (fun k => [(0x3200 + 0x10 * k, 2 ^ 64 - 1), (0x3208 + 0x10 * k, 2 ^ 64 - 1)])
  ++ (List.range 256).map (fun i => (0x3800 + 8 * i, 2 ^ 64 - 1))
  ++ [(0x4028, fieldMask [(8, 8)])]
  ++ (List.range 256).flatMap (fun i =>
      [(0x8000 + 0x40 * i, fieldMask [(60, 2), (57, 1), (48, 5), (44, 4)]),
       (0x8030 + 0x40 * i, fieldMask [(7, 41), (0, 5)])])

/-- Order 1 of Table 19-5. -/
def fpRegs (s : State) : List Word :=
  (lowEFields.map fun f => maskWord f.2 (rootReg s 0 f.1))
  ++ (List.range 64).flatMap (fun n => stnEFields.map fun f => maskWord f.2 (stnReg s n f.1))
  ++ highEFields.map fun f => maskWord f.2 (rootReg s 0 f.1)

def digestOr (o : Option (List Byte)) : List Byte := o.getD (List.replicate 32 0)

/-- The fingerprint of the configuration in force in `s`. -/
def fingerprint (s : State) : List Byte :=
  sha256 (wordsBytes (fpRegs s)
    ++ s.wtp.slots.flatMap (fun x => digestOr (if x.state = 2 then x.plan.map (·.digest) else none))
    ++ s.plt.models.flatMap (fun x => digestOr (x.model.map (·.digest)))
    ++ s.plt.streams.flatMap (fun x => digestOr (x.zones.map (·.digest)))
    ++ s.dsp.fwHash)

end Sys2Proof.Machine
end

