-- ==== Sys2Proof/Machine/Boot.lean ====
section
/-! DEFINITION. Booting the Conductor firmware from the boot window (R272, R365, R366). -/

namespace Sys2Proof.Machine

def modBoot (f : Boot → Boot) (s : State) : State := { s with dsp := { s.dsp with boot := f s.dsp.boot } }

def firmwareMagic : Nat := 0x4657
def firmwareMost : Nat := 524288

/-- The image slots A and B of the boot window. -/
def slotAddr (s : State) (slot : Nat) : Nat := s.params.bootBase + slot * 0x100000

/-- The ROM reads the 128-byte header of a slot. -/
def readSlot (slot : Nat) (s : State) : State :=
  addJob clsOther 16 false (slotAddr s slot) 128 [] (.boot slot false)
    (modBoot (fun b => { b with slot := slot, phase := 1, header := [], code := [] }) s)

/-- The Conductor cores leave reset and boot from slot A. -/
def startBoot (s : State) : State :=
  let s := { s with dsp := { s.dsp with coresRun := true, kickAt := [s.now, s.now] } }
  readSlot 0 (modBoot (fun _ => { Boot.reset with started := s.now }) s)

/-- Magic, version and length of a header (Table 14-10). -/
def headerFits (h : List Byte) : Bool :=
  leAt h 0 2 == firmwareMagic && leAt h 2 1 == 1 && imageLen h % 64 == 0 && decide (imageLen h ≤ firmwareMost)

/-- A read of the boot window ends: a header that fits is followed by the read of its code. -/
def bootJobEnd (j : Job) (slot : Nat) (code : Bool) (s : State) : State :=
  if j.err != 0 then modBoot (fun b => { b with phase := 4 }) s
  else if code then modBoot (fun b => { b with phase := 3, code := j.data }) s
  else
    let s := modBoot (fun b => { b with header := j.data }) s
    if headerFits j.data && decide (0 < imageLen j.data) then
      addJob clsOther 16 false (slotAddr s slot + 128) (imageLen j.data) [] (.boot slot true)
        (modBoot (fun b => { b with phase := 2 }) s)
    else modBoot (fun b => { b with phase := 3 }) s

/-- Why a slot fails: 0 accepted, 1 read error or timeout, 2 magic, version or length, 3 signature (Table 20-10). -/
def bootReason (b : Boot) : Nat :=
  if b.phase = 4 then 1
  else if !headerFits b.header then 2
  else if imageOk firmwareMagic firmwareMost Config.firmwareKey b.header b.code then 0 else 3

/-- The accepted image starts: version and hash are written, generation 0 has its fingerprint, and the tracks are in
self-test (Table 09-10). -/
def startFirmware (s : State) : State :=
  let b := s.dsp.boot
  let us := sat 32 ((s.now - b.started) / 1000)
  let test := fun x : Track => { x with state := 3 }
  let s := { s with trk := s.trk.map test }
  let s := { s with dsp := { s.dsp with
    fwVersion := imageVersion b.header, fwHash := imageHash b.header b.code,
    boot := { b with state := 1, bootUs := us, phase := 0 } } }
  { s with dsp := { s.dsp with fp := fingerprint s } }

/-- A slot that failed: slot B is tried after slot A, and after slot B the boot has failed (R365, R366). -/
def failSlot (reason : Nat) (s : State) : State :=
  if s.dsp.boot.slot = 0 then readSlot 1 (modBoot (fun b => { b with failA := reason }) s)
  else
    let s := modBoot (fun b => { b with failB := reason, state := 2, phase := 0 }) s
    { s with dsp := { s.dsp with coresRun := false } }

/-- The ROM has read a slot and verifies it. -/
def firmwareBoot (s : State) : State :=
  if bootReason s.dsp.boot = 0 then startFirmware s else failSlot (bootReason s.dsp.boot) s

def execFirmwareBootComplete (s : State) : Host.Outcome State Fault Refusal :=
  next (when (s.core && s.dsp.boot.state == 0 && decide (3 ≤ s.dsp.boot.phase)) firmwareBoot s)

end Sys2Proof.Machine
end

