-- ==== Sys2Proof/Machine/Entries.lean ====
section
/-! DEFINITION. The words of a Weighbridge entry: their fields and their clamps (Table 13-2, R251, R373). -/

namespace Sys2Proof.Machine

/-! ## Fields -/

def selStation (w : Word) : Nat := fld w 57 6
def selWindow (w : Word) : Nat := fld w 54 3
def selCtx (w : Word) : Nat := fld w 49 5
def selType (w : Word) : Nat := fld w 47 2
def selScale (w : Word) : Nat := fld w 43 4
def selPersist (w : Word) : Nat := fld w 39 4
def selRow (w : Word) : Nat := fld w 16 23
def selOwner (w : Word) : Nat := if bit w 4 then 16 else fld w 0 4

/-- Station, window and ctx of an entry as one number (R243). -/
def selPlace (w : Word) : Nat := fld w 49 14
def placeOf (n w c : Nat) : Nat := n * 256 + w * 32 + c

def qZp (w : Word) : Int := signed 16 (fld w 48 16)
def qLo (w : Word) : Int := signed 16 (fld w 32 16)
def qHi (w : Word) : Int := signed 16 (fld w 16 16)
def qSatThr (w : Word) : Nat := fld w 8 8
def qMin (w : Word) : Nat := fld w 0 8

/-! ## Element types (R244, R245) -/

def elemBits (t : Nat) : Nat := if t = 2 then 16 else if t = 3 then 4 else 8
def typeMin (t : Nat) : Int := if t = 1 then 0 else -(2 ^ (elemBits t - 1) : Nat)
def typeSpan (t : Nat) : Nat := 2 ^ elemBits t

/-! ## Clamps -/

/-- The SEL word with its clamps, its en and its configurer, 16 for Root. An entry that en 0 frees has no
configurer (DESIGN CHOICE, log 98). -/
def clampSel (en : Bool) (owner : Nat) (w : Word) : Word :=
  pack [(63, 1, b2n en), (43, 20, fld w 43 20), (39, 4, max 1 (fld w 39 4)), (16, 23, fld w 16 23),
    (4, 1, b2n (en && owner == 16)), (0, 4, if en && decide (owner < 16) then owner else 0)]

/-- The Q word, clamped to the type of the SEL word. -/
def clampQ (sel w : Word) : Word :=
  let r : Int × Int := (typeMin (selType sel), typeMin (selType sel) + ((typeSpan (selType sel) : Nat) : Int) - 1)
  let lo := clampTo r (qLo w)
  let hi := clampTo r (qHi w)
  let p : Int × Int := if hi < lo then r else (lo, hi)
  pack [(48, 16, unsigned 16 (clampTo r (qZp w))), (32, 16, unsigned 16 p.1), (16, 16, unsigned 16 p.2),
    (8, 8, max 1 (fld w 8 8)), (0, 8, max 1 (fld w 0 8))]

/-- Every Q word clamped to the element type now in force (R373). -/
def clampEntries (w : Weigh) : Weigh := { w with q := List.zipWith clampQ w.sel w.q }

end Sys2Proof.Machine
end

