-- ==== Sys2Proof/Machine/Generation.lean ====
section
/-! DEFINITION. The configuration generation: what each E-class write does when it applies, and how a
generation becomes active (R16, R266, R358). -/

namespace Sys2Proof.Machine

/-- TTB_EPOCH_CFG applies (R84): epoch_en stays 1 once set. Before the first boundary its settings govern the edges
at once, after it from the next boundary on. The moment at which epoch_en applies counts as the previous master
edge (R364). -/
def applyEpochCfg (w : Word) (s : State) : State :=
  let t := s.ttb
  let w := clampEpochCfg w
  let on := bit w 8 || bit t.epochCfg 8
  let t' := { t with epochCfg := put w 8 1 (b2n on) }
  let t' := if t.running then t' else useEpochCfg t'
  let t' := if on && !t.running && !t.armed then { t' with armed := true, prevMaster := some t.time, edgeCount := 0 }
    else t'
  { s with ttb := t' }

def modPlanSlot (k : Nat) (f : PlanSlot → PlanSlot) (s : State) : State :=
  { s with wtp := { s.wtp with slots := s.wtp.slots.modify k f } }

def modStream (i : Nat) (f : Stream → Stream) (s : State) : State :=
  { s with myd := { s.myd with streams := s.myd.streams.modify i f } }

def modPStream (i : Nat) (f : PStream → PStream) (s : State) : State :=
  { s with plt := { s.plt with streams := s.plt.streams.modify i f } }

/-- Of two streams that name one siding, the higher-numbered reads back siding_en 0 (Table 06-15). `used` are
the sidings of the streams before. -/
def clampStreams : List Nat → List Stream → List Stream
  | _, [] => []
  | used, x :: r =>
    match streamSiding x with
    | some k =>
      if used.contains k then { x with cfg := put x.cfg 39 1 0 } :: clampStreams used r
      else x :: clampStreams (k :: used) r
    | none => x :: clampStreams used r

/-- Some fields of a MYD_STREAM_CFG word apply. -/
def writeStream (i : Nat) (mask val : Word) (s : State) : State :=
  let s := modStream i (fun x => { x with cfg := (x.cfg &&& ~~~ mask) ||| (val &&& mask) }) s
  { s with myd := { s.myd with streams := clampStreams [] s.myd.streams } }

def pModel (s : State) (k : Nat) : Option PModel := (s.plt.models.getD k PSlot.reset).model

def pSlotOf (w : Word) : Nat := fld w 61 2

/-- The model input that bounds a stream's vertices: that of its model slot; DESIGN CHOICE (R234): the largest input
of Table 12-1 while the slot is empty. -/
def zoneBounds (s : State) (x : PStream) : Nat × Nat :=
  match pModel s (pSlotOf x.word) with
  | some m => (m.inW, m.inH)
  | none => (1024, 576)

/-- The zones of each stream clamped to the model input in force (R234); a change of the model clamps them again
(R373). -/
def clampTables (s : State) : State :=
  let zones := fun x : PStream => x.zones.map fun z =>
    { z with zones := z.zones.map (clampZone (zoneBounds s x).1 (zoneBounds s x).2) }
  { s with plt := { s.plt with streams := s.plt.streams.map fun x => { x with zones := zones x } } }

def noRuns : List Nat := List.replicate 32 0

/-- A Pilot stream entry applies; a change of its model slot restarts the runs of its zones (R237). -/
def setPStream (w : Word) (owner : Nat) (x : PStream) : PStream :=
  { x with
    word := w, owner := if bit w 63 then owner else 0,
    runs := if fld w 61 2 = fld x.word 61 2 then x.runs else noRuns }

/-- What one E-class write does when it applies (R266). -/
def applyE (e : EWrite) (s : State) : State :=
  match e with
  | .epochCfg w => applyEpochCfg w s
  | .govBudget r => { s with sbx := { s.sbx with govCfg := put s.sbx.govCfg 8 8 r } }
  | .stnCfg n cfg lo hi acc => s.modStation n (writeStnCfg cfg lo hi acc)
  | .stnReg n o w => s.modStation n (writeStnReg o w)
  | .ldgChain i on off =>
    let f := fun w : Word => (w &&& ~~~ off) ||| on
    { s with ldg := { s.ldg with cfg := { s.ldg.cfg with chain := s.ldg.cfg.chain.modify i f } } }
  | .ldgSnap k addr ctl =>
    { s with ldg := { s.ldg with cfg := { s.ldg.cfg with
      addr := s.ldg.cfg.addr.set k addr, ctl := s.ldg.cfg.ctl.set k ctl } } }
  | .ldgClear m => { s with ldg := { s.ldg with clearReq := s.ldg.clearReq ||| m } }
  | .planArm k => modPlanSlot k (fun x => if x.plan.isSome then { x with state := 2 } else x) s
  | .planDisarm k => modPlanSlot k (fun x => if x.plan.isSome then { x with state := 1 } else x) s
  | .cover w => { s with wtp := { s.wtp with cover := w } }
  | .zones i z => modPStream i (fun x => { x with zones := some z, runs := noRuns }) s
  | .pltStream i w owner => modPStream i (setPStream w owner) s
  | .pltDue ms => { s with jct := { s.jct with cfg := put s.jct.cfg 0 8 ms } }
  | .wbrSel i w => { s with wbr := { s.wbr with sel := s.wbr.sel.set i w } }
  | .wbrQ i w => { s with wbr := { s.wbr with q := s.wbr.q.set i w } }
  | .myd i mask val => writeStream i mask val s

/-- All writes of a list, in order; a field is clamped against the partner in force once all have applied (R373). -/
def applyAll (ws : List EWrite) (s : State) : State :=
  let s := forEach ws applyE s
  clampTables { s with wbr := clampEntries s.wbr }

/-- The pending writes become active together as the next generation, which then has its fingerprint; with
no pending write there is no new generation (R266, R358). -/
def activate (ws : List EWrite) (s : State) : State :=
  if ws.isEmpty then s
  else
    let s := applyAll ws s
    let s := { s with dsp := { s.dsp with activeGen := wrap 32 (s.dsp.activeGen + 1) } }
    { s with dsp := { s.dsp with fp := fingerprint s } }

end Sys2Proof.Machine
end

