-- ==== Sys2Proof/Machine/Sampling.lean ====
section
/-! DEFINITION. The sampling decision of an epoch: tracks and routes, fractions, quotas, positions, filter
masks and the reservation of activation SRAM (chapter "Check plans and coverage"). -/

namespace Sys2Proof.Machine

/-! ## Tracks and routes -/

def inService (s : State) : List Nat := (List.range 4).filter fun t => (s.track t).state == 1

/-- The track of a station among the tracks in service (R187). -/
def routeOf (tracks : List Nat) (n : Nat) : Option Nat :=
  if tracks.contains (homeTrack n) then some (homeTrack n) else tracks[n % 16 % tracks.length]?

/-- A station that the plans reach: enumerated and not failed (R200). -/
def reachable (s : State) (n : Nat) : Bool := inMerge s n

/-- Frame windows exist for a stream that is the master stream or enabled (R207). -/
def hasFrames (s : State) (stream : Nat) : Bool := masterOf s.ttb == stream || fsyncEn s.ttb stream

/-! ## Layers of the epoch -/

/-- The descriptors that a layer uses: role and descriptor. -/
def usedDescs (l : Layer) : List (Nat × Desc) :=
  if l.kind = 4 then [(0, l.descA), (1, l.descB), (2, l.descO)]
  else if l.kind = 5 then [(0, l.descA)]
  else if l.kind = 0xFF then [] else [(0, l.descA), (2, l.descO)]

def stnWin (s : State) (n w : Nat) : SnoopWin := (s.station n).win.getD w SnoopWin.reset

/-- Whether the station still delivers what the layer needs; otherwise it is skipped for the epoch
(R204). -/
def observable (s : State) (owner : Nat) (l : Layer) : Bool :=
  ((usedDescs l).all fun d =>
    let v := stnWin s l.station d.2.window
    winEn v.ctl && bit v.ctl 34 && bit v.ctl 37 && winPitch v.ctl == d.2.rowPitch)
  && stnOpShare (s.station l.station) != 0 && s.ctxOwner l.ctx == owner

/-- Layers of the plan in slot `k` with their places. -/
def planLayersAt (s : State) (k : Nat) : List (Nat × Layer) :=
  match (s.wtp.slots.getD k PlanSlot.reset).plan with
  | some p => (List.range p.layers.length).filterMap fun i => p.layers[i]?.map fun l => (i, l)
  | none => []

def slotPlan (s : State) (k : Nat) : Option Plan := (s.wtp.slots.getD k PlanSlot.reset).plan

def armed (s : State) (k : Nat) : Bool := (s.wtp.slots.getD k PlanSlot.reset).state == 2

/-- Layers of an armed plan that are checked in the epoch. -/
def activeLayers (s : State) (k : Nat) : List (Nat × Layer) :=
  if armed s k then
    (planLayersAt s k).filter fun x =>
      x.2.checkable && observable s (s.wtp.slots.getD k PlanSlot.reset).owner x.2
  else []

def armedSlots (s : State) : List Nat := (List.range 16).filter (armed s)

/-- Streams of the armed plans with a layer at a station that `p` picks (Table 16-2). -/
def streamsAt (s : State) (p : Nat → Bool) : List Nat :=
  ((armedSlots s).filterMap fun k =>
    if (planLayersAt s k).any (fun x => p x.2.station) then (slotPlan s k).map (·.stream) else none).eraseDups

/-! ## Quotas and positions -/

/-- Quota before the lane rule (R197). -/
def baseQuota (f : Nat) (l : Layer) : Nat :=
  if l.kind = 5 then 1 else min l.positions (ceilDiv (f * l.positions) 1024)

/-- One round of the lane rule: one more position for each layer that can take one, until the sum
reaches `r`. -/
def laneRound (r : Nat) : Nat → List (Layer × Nat) → List (Layer × Nat)
  | _, [] => []
  | sum, (l, q) :: rest =>
    if sum < r && decide (q < l.positions) then (l, q + 1) :: laneRound r (sum + 1) rest
    else (l, q) :: laneRound r sum rest

def laneRule (r : Nat) : Nat → List (Layer × Nat) → List (Layer × Nat)
  | 0, qs => qs
  | n + 1, qs =>
    if r ≤ sumOf (·.2) qs then qs else laneRule r n (laneRound r (sumOf (·.2) qs) qs)

/-- Kinds 0x00-0x03 take part in the lane rule (R197). -/
def inLaneRule (l : Layer) : Bool := decide (l.kind ≤ 3)

/-- Lanes that the layers of a lane map reach. -/
def lanesOf (m : LaneMap) (ls : List Layer) : List Nat := (ls.flatMap fun l => m.lanesReached l).eraseDups
def colsOf (m : LaneMap) (ls : List Layer) : List Nat := (ls.flatMap fun l => m.colsReached l).eraseDups

/-- Quotas of the active layers of one lane map (R197). -/
def mapQuotas (laneEn : Bool) (f : Nat) (m : LaneMap) (ls : List Layer) : List (Layer × Nat) :=
  let qs := ls.map fun l => (l, baseQuota f l)
  if laneEn then
    let part := qs.filter fun x => inLaneRule x.1
    let r := (lanesOf m (part.map (·.1))).length
    let part := laneRule r r part
    qs.map fun x => (part.find? fun y => y.1 == x.1).getD x
  else qs

/-- The first unchosen position from `start` on, in raster order with wrap, whose lane is `lam` (R198). -/
def findPos (m : LaneMap) (l : Layer) (chosen : List Nat) (lam start : Nat) : Option Nat :=
  ((List.range l.positions).map fun d => (start + d) % l.positions).find? fun p =>
    !chosen.contains p && (m.lanesAt l p).contains lam

/-- The lane of the next position: the first one pending, else the first in order, that the layer reaches
with an unchosen position (R198). -/
def pickLane (m : LaneMap) (l : Layer) (chosen pending : List Nat) (o : Nat) : Option Nat :=
  let can := fun lam => (findPos m l chosen lam 0).isSome
  match pending.find? can with
  | some lam => some lam
  | none => ((List.range m.nLanes).map fun k => (o + k) % m.nLanes).find? can

/-- Positions of one layer: `n` more of them from draw `i` on. -/
def choose (seed : BitVec 64) (m : LaneMap) (l : Layer) (o : Nat) :
    (n i : Nat) → (chosen pending : List Nat) → List Nat × List Nat
  | 0, _, chosen, pending => (chosen, pending)
  | n + 1, i, chosen, pending =>
    let start := drawOf seed l.station l.layer i % l.positions
    match pickLane m l chosen pending o with
    | none => (chosen, pending)
    | some lam =>
      match findPos m l chosen lam start with
      | none => (chosen, pending)
      | some p => choose seed m l o n (i + 1) (chosen ++ [p]) (pending.filter fun x => x != lam)

/-- Positions of the layers of a lane map, in plan order (R198). -/
def chooseAll (seed : BitVec 64) (m : LaneMap) (o : Nat) : List Nat → List (Nat × Layer × Nat) → List (Nat × Layer × List Nat)
  | _, [] => []
  | pending, (i, l, q) :: rest =>
    let (ps, pending) := choose seed m l o q 0 [] pending
    (i, l, ps) :: chooseAll seed m o pending rest

/-- Quotas and positions of the active layers of slot `k` at lane map `mi`, with fraction `f`. Kind 0x05 takes
one run, whose positions are those that acc_mask delivers whole. -/
def mapChoice (s : State) (seed : BitVec 64) (laneEn : Bool) (f k mi : Nat) : List (Nat × Layer × Nat × List Nat) :=
  match (slotPlan s k).bind fun p => p.lanemaps[mi]? with
  | none => []
  | some m =>
    let ls := (activeLayers s k).filter fun x => x.2.lanemap == mi
    let qs := mapQuotas laneEn f m (ls.map (·.2))
    let quota := fun l : Layer => ((qs.find? fun y => y.1 == l).getD (l, 1)).2
    let o := drawOf seed m.station 0xFFFF mi % m.nLanes
    let pending := (List.range m.nLanes).map fun d => (o + d) % m.nLanes
    let dealt := chooseAll seed m o pending
      ((ls.filter fun x => x.2.kind != 5).map fun x => (x.1, x.2, quota x.2))
    dealt.map (fun x => (x.1, x.2.1, x.2.2.length, x.2.2))
      ++ (ls.filter fun x => x.2.kind == 5).map fun x =>
        (x.1, x.2, 1, x.2.tapPositions (s.station x.2.station).accFilt)

/-! ## Needed beats -/

/-- Beats that one layer needs in a frame window: role and offset from element (0, 0, 0) (R199). -/
def layerNeed (l : Layer) (ps : List Nat) : List (Nat × Nat) :=
  (ps.flatMap fun p => l.inputNeed p ++ l.outputNeed p).eraseDups

/-- Beat offset of element (0, 0, 0) of a tensor within its window. -/
def originOf (v : SnoopWin) (d : Desc) : Nat := (d.addr / 64 + 2 ^ 42 - fld v.base 6 42) % 2 ^ 42

/-- The places of a layer's needed beats among those of one frame window: slot, station, window, ctx, ordinal and
beat offset (R208). -/
def needKeys (s : State) (k : Nat) (l : Layer) (ps : List Nat) : List (Nat × Nat × Nat × Nat × Nat × Nat) :=
  (layerNeed l ps).map fun x =>
    let d := l.descOf x.1
    (k, l.station, d.window, l.ctx, d.ordinal, originOf (stnWin s l.station d.window) d + x.2)

/-- Bytes of the tap beats of a run. -/
def tapBytes (l : Layer) (ps : List Nat) : Nat := if l.kind = 5 then 128 * ps.length * l.tapBeats else 0

/-! ## Fractions -/

/-- Active layers by lane map that a track serves: slot and lane map. -/
def trackMaps (s : State) (tracks : List Nat) (t : Nat) : List (Nat × Nat) :=
  (armedSlots s).flatMap fun k =>
    match slotPlan s k with
    | none => []
    | some p => (List.range p.lanemaps.length).filterMap fun mi =>
      match p.lanemaps[mi]? with
      | some m => if reachable s m.station && routeOf tracks m.station == some t then some (k, mi) else none
      | none => none

/-- What a track plans at fraction `f`: slot and the layers with quotas and positions. -/
def trackChoice (s : State) (seed : BitVec 64) (tracks : List Nat) (t f : Nat) :
    List (Nat × Nat × Layer × Nat × List Nat) :=
  (trackMaps s tracks t).flatMap fun x =>
    (mapChoice s seed (bit s.wtp.cover 63) f x.1 x.2).map fun y => (x.1, y)

/-- Frame windows of a slot that open in an epoch (R200). -/
def windowsPerEpoch (s : State) (k : Nat) : Nat :=
  match slotPlan s k with
  | some p => if hasFrames s p.stream then framesPerEpoch s.ttb else 0
  | none => 0

/-- Array steps that a choice costs in an epoch (R200). -/
def choiceCost (s : State) (c : List (Nat × Nat × Layer × Nat × List Nat)) : Nat :=
  sumOf (fun x => let n := windowsPerEpoch s x.1
    n * x.2.2.1.steps x.2.2.2.1 + (if n = 0 then 0 else x.2.2.1.onceSteps)) c

/-- Activation SRAM that two consecutive frame windows of a choice occupy (R209): a beat that several sample sets need
is stored once (R208), and a plan without frame windows needs none. -/
def choiceReserve (s : State) (c : List (Nat × Nat × Layer × Nat × List Nat)) : Nat :=
  let c := c.filter fun x => windowsPerEpoch s x.1 != 0
  2 * (64 * ((c.flatMap fun x => needKeys s x.1 x.2.2.1 x.2.2.2.2).eraseDups).length
    + sumOf (fun x => tapBytes x.2.2.1 x.2.2.2.2) c)

def coverTarget (w : Word) : Nat := fld w 32 11
def coverFloor (w : Word) : Nat := fld w 16 11
def coverShare (w : Word) : Nat := fld w 0 8

/-- The interval in force, in ns (R82, R200). -/
def intervalOf (t : Timetable) : Nat := t.interval.getD (nominalNs t)

/-- Whether a choice fits the track's step budget and its SRAM. The budget in steps is
budget_rate × 0.01 steps per ns × interval × check_share / 100. -/
def fits (s : State) (c : List (Nat × Nat × Layer × Nat × List Nat)) : Bool :=
  decide (choiceCost s c * 10000 ≤ budgetRate s * intervalOf s.ttb * coverShare s.wtp.cover)
    && decide (choiceReserve s c ≤ 4 * 2 ^ 20)

/-- The fraction of a track and whether it is short: the largest from target down to floor that fits, else
floor (R200). -/
def fraction (s : State) (seed : BitVec 64) (tracks : List Nat) (t : Nat) : Nat × Bool :=
  let hi := coverTarget s.wtp.cover
  let lo := coverFloor s.wtp.cover
  match ((List.range (hi - lo + 1)).map (hi - ·)).find? fun f => fits s (trackChoice s seed tracks t f) with
  | some f => (f, false)
  | none => (lo, true)

/-! ## Filter masks -/

/-- Masks by station and window: rows and columns. -/
def addMask (n w rows cols : Nat) : List (Nat × Nat × Nat × Nat) → List (Nat × Nat × Nat × Nat)
  | [] => [(n, w, rows, cols)]
  | (a, b, r, c) :: rest =>
    if a = n ∧ b = w then (a, b, r ||| rows, c ||| cols) :: rest else (a, b, r, c) :: addMask n w rows cols rest

/-- What one layer adds to the masks (R199): the input window of kind 0x05 is passed whole. -/
def layerMasks (s : State) (l : Layer) (ps : List Nat) (m : List (Nat × Nat × Nat × Nat)) :
    List (Nat × Nat × Nat × Nat) :=
  if l.kind = 5 then addMask l.station l.descA.window (2 ^ 64 - 1) (2 ^ 64 - 1) m
  else (layerNeed l ps).foldl (fun m x =>
    let d := l.descOf x.1
    let v := stnWin s l.station d.window
    let o := originOf v d + x.2
    addMask l.station d.window (2 ^ (o / winPitch v.ctl % 64)) (2 ^ (o % winPitch v.ctl % 64)) m) m

/-- Windows that an armed plan names (R199). -/
def namedWindows (s : State) : List (Nat × Nat) :=
  ((armedSlots s).flatMap fun k => (planLayersAt s k).flatMap fun x =>
    (usedDescs x.2).map fun d => (x.2.station, d.2.window)).eraseDups

/-! ## The decision -/

/-- The seed of an epoch (R196): bytes 0-7 of SHA-256 over the fingerprint and the epoch. -/
def seedOf (fp : List Byte) (e : Nat) : BitVec 64 :=
  BitVec.ofNat 64 (ofBe ((sha256 (fp ++ leBytes 4 e)).take 8))

/-- The state as it will be configured at the next boundary. -/
def upcoming (s : State) : State :=
  let s := activate (s.dsp.frozen ++ s.dsp.pending) s
  { s with ttb := useEpochCfg s.ttb, sbx := { s.sbx with govCfg := put s.sbx.govCfg 8 8 (budgetRate s) } }

/-- The decision of epoch `e` for a configuration `s` in force at its opening (R196-R200, R209, R214). A
layer at a station that is failed or not enumerated has quota 0. -/
def decideEpoch (s : State) (e : Nat) : EpochPlan :=
  let tracks := inService s
  let seed := seedOf s.dsp.fp e
  let pick := (List.range 4).map fun t => if tracks.contains t then fraction s seed tracks t else (0, false)
  let choice := fun t => if tracks.contains t then trackChoice s seed tracks t (pick.getD t (0, false)).1 else []
  let all := (List.range 4).flatMap choice
  let lost := (List.range 16).flatMap fun k =>
    ((activeLayers s k).filter fun x => !reachable s x.2.station).map fun x => (k, x.1, 0, [])
  let skips := (List.range 16).flatMap fun k =>
    ((planLayersAt s k).filter fun x => !(activeLayers s k).contains x).map fun x => (k, x.1)
  { epoch := e, seed := seed, frac := pick.map (·.1), short := pick.map (·.2), inTracks := tracks,
    layers := all.map (fun x => (x.1, x.2.1, x.2.2.2.1, x.2.2.2.2)) ++ lost, skips := skips,
    reserve := (List.range 4).map fun t => choiceReserve s (choice t),
    masks := all.foldl (fun m x => layerMasks s x.2.2.1 x.2.2.2.2 m) [],
    budget := budgetRate s, share := coverShare s.wtp.cover, floor := coverFloor s.wtp.cover,
    armed := (List.range 16).flatMap fun k => (activeLayers s k).map fun x => (k, x.1),
    extra := List.replicate 4 0,
    plans := (armedSlots s).filterMap fun k => (slotPlan s k).map fun p => (k, p), told := false }

/-- An epoch for which nothing is planned: the epoch service is halted (R315). -/
def idleEpoch (s : State) (e : Nat) : EpochPlan :=
  { epoch := e, seed := seedOf s.dsp.fp e, frac := List.replicate 4 0, short := List.replicate 4 false,
    inTracks := inService s, layers := [], skips := [], reserve := List.replicate 4 0, masks := [],
    budget := budgetRate s, share := coverShare s.wtp.cover, floor := coverFloor s.wtp.cover,
    armed := [], extra := List.replicate 4 0, plans := [], told := false }

/-- The decision of the epoch that the next boundary opens, from what is known now (R214). -/
def prepared (s : State) (e : Nat) : EpochPlan :=
  if s.fatal then idleEpoch (upcoming s) e else decideEpoch (upcoming s) e

/-- The filter masks of a window: the union of two epochs' needs where an armed plan names it, else all
ones (R97, R199). -/
def maskFor (named : List (Nat × Nat)) (a b : List (Nat × Nat × Nat × Nat)) (n w : Nat) : Word × Word :=
  if named.contains (n, w) then
    let get := fun m : List (Nat × Nat × Nat × Nat) =>
      match m.find? fun x => x.1 == n && x.2.1 == w with | some x => x.2.2 | none => (0, 0)
    (nat64 ((get a).1 ||| (get b).1), nat64 ((get a).2 ||| (get b).2))
  else (BitVec.allOnes 64, BitVec.allOnes 64)

/-- The masks of every window take their values at a boundary (R199). -/
def writeMasks (s : State) : State :=
  let named := namedWindows s
  let a := match s.wtp.cur with | some p => p.masks | none => []
  let b := match s.wtp.old.head? with | some p => p.masks | none => []
  { s with stn := (List.range s.stn.length).map fun n =>
      let x := s.station n
      { x with win := (List.range x.win.length).map fun w =>
          let m := maskFor named a b n w
          { x.win.getD w SnoopWin.reset with row := m.1, col := m.2 } } }

end Sys2Proof.Machine
end

