-- ==== Sys2Proof/Machine/Chunks.lean ====
section
/-! DEFINITION. Chunks of weight and Pilot bundles: how they are read, decrypted and checked (chapter "Tracks
and array arithmetic"). -/

namespace Sys2Proof.Machine

/-- Fields of a chunk header (Table 09-6). -/
def chunkBundle (b : List Byte) : Nat := leAt b 4 4
def chunkLen (b : List Byte) : Nat := min 65536 (leAt b 20 4)

/-- Bytes of a whole chunk, from its header: header, ciphertext and tag. -/
def chunkTotal (b : List Byte) : Nat := 32 + chunkLen b + 16

/-- The key that the key slots hold for a bundle (R182). -/
def bundleKey (s : State) (bundle : Nat) : Option (List Byte) :=
  (s.ilk.keys.filterMap id).findSome? fun k => if k.bundle = bundle then some k.key else none

def holdsKey (s : State) (bundle : Nat) : Bool := (bundleKey s bundle).isSome

/-- The plaintext of a chunk; none for a bad tag, magic, version or bundle_id (R181, R183). -/
def openChunk (s : State) (b : List Byte) : Option (List Byte) :=
  if leAt b 0 2 != 0x5742 || leAt b 2 1 != 1 then none
  else match bundleKey s (chunkBundle b) with
    | none => none
    | some key =>
      gcmOpen key ((b.drop 8).take 12) (b.take 32) ((b.drop 32).take (chunkLen b))
        ((b.drop (32 + chunkLen b)).take 16)

/-- The sequencer reads a chunk: first its header (R210). -/
def fetchChunk (t item : Nat) (pilot : Bool) (owner bundle index : Nat) (s : State) : State :=
  addJob clsFetch owner false (Config.chunkAddr bundle index) 32 [] (.chunk t item pilot index false) s

def fetchChunks (t item : Nat) (pilot : Bool) (owner bundle : Nat) (l : List Nat) (s : State) : State :=
  forEach l (fun i s => fetchChunk t item pilot owner bundle i s) s

/-- Chunk indexes of `n` chunks from `first` on. -/
def chunkRun (first n : Nat) : List Nat := (List.range n).map (first + ·)

end Sys2Proof.Machine
end

