-- ==== Sys2Proof/Machine/Verdicts.lean ====
section
/-! DEFINITION. What a track computes for one sample set: operands from the held beats, exact sums,
requantised codes and their comparison, and the projection check of a tap run (chapters "Tracks and array
arithmetic" and "Check plans and coverage"). -/

namespace Sys2Proof.Machine

/-! ## Operands -/

/-- A beat that the track holds for the item. -/
def beatOf (it : WorkItem) (role off : Nat) : Option (BitVec 512) :=
  (it.beats.find? fun b => b.role == role && b.offset == off).map (·.data)

def heldAll (it : WorkItem) (need : List (Nat × Nat)) : Bool := need.all fun n => (beatOf it n.1 n.2).isSome

/-- The input band of a position is complete (R208). -/
def inputOk (it : WorkItem) (pos : Nat) : Bool := heldAll it (it.layer.inputNeed pos)

/-- Raw bits of element (y, x, c) of a tensor, where its beat is held (R194). -/
def elemRaw (it : WorkItem) (role y x c : Nat) : Option Nat :=
  let b := it.layer.elemAt role y x c
  (beatOf it role (b / 512)).map fun d => d.toNat / 2 ^ (b % 512) % 2 ^ it.layer.bitsOf role

def inValue (it : WorkItem) (role y x c : Nat) : Int :=
  actValue it.layer.opTypes ((elemRaw it role y x c).getD 0)

/-- Activation of tap (ky, kx) and channel `c` at a position; pad_value outside the input (R171). -/
def tapValue (it : WorkItem) (pos ky kx c : Nat) : Int :=
  let l := it.layer
  match tapPlace (pos / l.wOut) l.stride l.pad ky l.inRows, tapPlace (pos % l.wOut) l.stride l.pad kx l.inCols with
  | some y, some x => inValue it 0 y x c
  | _, _ => l.padValue

/-- Activation of reduction element `k`: taps in raster order, channels innermost; a depthwise layer has one
channel per output (R172, R194). -/
def redValue (it : WorkItem) (pos k c : Nat) : Int :=
  let l := it.layer
  if l.depthwise then tapValue it pos (k / 3) (k % 3) c
  else tapValue it pos (k / l.cIn / l.kernel) (k / l.cIn % l.kernel) (k % l.cIn)

/-! ## Sums and codes -/

/-- The column sum of output channel `c` (R173). -/
def columnSum (it : WorkItem) (w tab : List Byte) (pos c : Nat) : Int :=
  let l := it.layer
  biasAt tab c + sumInt (fun k =>
    (redValue it pos k c - l.zpA) * (weightAt w l.depthwise l.cOut l.opTypes k c - l.zpW)) l.depth

/-- The output code of channel `c` (R177, R180). -/
def outCode (it : WorkItem) (w tab : List Byte) (pos c : Nat) : Code :=
  let l := it.layer
  let v : Int :=
    if l.kind = 4 then
      let y := pos / l.wOut
      let x := pos % l.wOut
      (inValue it 0 y x c - l.zpA) * l.mA + (inValue it 1 y x c - l.zpB) * l.mB
    else accMode l.accMode (columnSum it w tab pos c) * multAt tab c
  toCode v (shiftAt tab c) l.rndMode l.zpOut l.clampLo l.clampHi

/-- The code observed from the host, where its beat is held. -/
def observed (it : WorkItem) (pos c : Nat) : Option Int :=
  (elemRaw it 2 (pos / it.layer.wOut) (pos % it.layer.wOut) c).map (outValue it.layer.outType)

/-! ## A sample set -/

/-- What a sample set's computation found: elements compared and differing, the first difference with both
values, clamps, and the column sums after acc_mode (R212, R246). -/
structure SampleResult where
  checked  : Nat
  mism     : Nat
  first    : Nat
  recomp   : Int
  obs      : Int
  clipLow  : Nat
  clipHigh : Nat
  sums     : List Int
  deriving DecidableEq, Repr

def noResult : SampleResult :=
  { checked := 0, mism := 0, first := 0, recomp := 0, obs := 0, clipLow := 0, clipHigh := 0, sums := [] }

/-- One compared element joins the result. -/
def noteElem (index : Nat) (y obs : Int) (r : SampleResult) : SampleResult :=
  if y = obs then { r with checked := r.checked + 1 }
  else if r.mism = 0 then
    { r with checked := r.checked + 1, mism := 1, first := index, recomp := y, obs := obs }
  else { r with checked := r.checked + 1, mism := r.mism + 1 }

def noteClip (c : Code) (r : SampleResult) : SampleResult :=
  { r with
    clipLow := r.clipLow + (if c.clip = 1 then 1 else 0),
    clipHigh := r.clipHigh + (if c.clip = 2 then 1 else 0) }

/-- The channels that `done` names, in ascending order; a channel whose output beat is missing is computed and
not compared (R179, R211). -/
def compareChannels (it : WorkItem) (w tab : List Byte) (pos : Nat) (done : Nat → Bool) : SampleResult :=
  ((List.range it.layer.cOut).filter done).foldl (fun r c =>
    let code := outCode it w tab pos c
    let r := noteClip code r
    let r := if it.layer.kind = 4 then r
      else { r with sums := r.sums ++ [accMode it.layer.accMode (columnSum it w tab pos c)] }
    match observed it pos c with
    | some o => noteElem c code.y o r
    | none => r) noResult

/-! ## A tap run (R202) -/

def tapData (it : WorkItem) (i : Nat) : Option (BitVec 1024) := (it.taps.find? fun t => t.index == i).map (·.data)

/-- All tap beats and all input beats of a position have been delivered. -/
def tapReady (it : WorkItem) (pos : Nat) : Bool :=
  ((List.range it.layer.tapBeats).all fun j => (tapData it (pos * it.layer.tapBeats + j)).isSome) && inputOk it pos

/-- The host's accumulator of channel `c`. -/
def tapAcc (it : WorkItem) (pos c : Nat) : Int :=
  match tapData it (pos * it.layer.tapBeats + c / 32) with
  | some d => signed 32 (d.toNat / 2 ^ (32 * (c % 32)))
  | none => 0

def projection (seed : BitVec 64) (l : Layer) (j c : Nat) : Nat :=
  drawOf seed l.station l.layer (2 ^ 32 + 128 * c + j) % m31

/-- The projected weight w2[k][j]. -/
def projWeight (seed : BitVec 64) (l : Layer) (w : List Byte) (k j : Nat) : Nat :=
  sum31 (fun c => lift31 (weightAt w l.depthwise l.cOut l.opTypes k c - l.zpW) * projection seed l j c) l.cOut

def tapLhs (seed : BitVec 64) (it : WorkItem) (pos j : Nat) : Nat :=
  sum31 (fun c => lift31 (tapAcc it pos c) * projection seed it.layer j c) it.layer.cOut

def tapRhs (seed : BitVec 64) (it : WorkItem) (w tab : List Byte) (pos j : Nat) : Nat :=
  let l := it.layer
  let a := sum31 (fun k => lift31 (redValue it pos k 0 - l.zpA) * projWeight seed l w k j) l.depth
  let b := if l.tapBias then sum31 (fun c => lift31 (biasAt tab c) * projection seed l j c) l.cOut else 0
  reduce31 (a + b)

/-- The positions of a run among `done`, compared in raster order. -/
def compareRun (seed : BitVec 64) (it : WorkItem) (w tab : List Byte) (done : List Nat) : SampleResult :=
  (done.filter (tapReady it)).foldl (fun r pos =>
    let same := (List.range 128).all fun j => tapLhs seed it pos j == tapRhs seed it w tab pos j
    let rhs : Int := (tapRhs seed it w tab pos 0 : Nat)
    let lhs : Int := (tapLhs seed it pos 0 : Nat)
    if same then { r with checked := r.checked + 1 }
    else if r.mism = 0 then
      { r with checked := r.checked + 1, mism := 1, first := pos, recomp := rhs, obs := lhs }
    else { r with checked := r.checked + 1, mism := r.mism + 1 }) noResult

/-! ## Passes of an item (R170) -/

/-- Whether anything of a sample set can be computed: its input band is complete. -/
def computable (it : WorkItem) (x : Sample) : Bool := x.lost == 0 && inputOk it x.pos

/-- Sample sets that the array works on, in ascending order. -/
def worked (it : WorkItem) : List Sample := it.samples.filter fun x => !x.done && computable it x

/-- Positions of a run that can be compared. -/
def runReady (it : WorkItem) : List Nat := it.run.filter (tapReady it)

/-- Weight tiles as passes: an element-wise layer has one visit per position. -/
def passTiles (l : Layer) : Nat := if l.kind = 4 ∨ l.kind = 5 then 1 else l.tiles

/-- Passes of the whole item: positions by tiles, or the positions of its run. -/
def passTotal (it : WorkItem) (n : Nat) : Nat :=
  if it.layer.kind = 5 then (runReady it).length else passTiles it.layer * n

/-- The tile whose passes complete channel `c`: the last slice of its column tile. -/
def lastTile (l : Layer) (c : Nat) : Nat :=
  if l.kind = 4 then 0
  else if l.depthwise then c / 14
  else (ceilDiv l.depth (kMode l.opTypes) - 1) * ceilDiv l.cOut 128 + c / 128

end Sys2Proof.Machine
end

