-- ==== Sys2Proof/Machine/Checker.lean ====
section
/-! DEFINITION. The Tensor Checker in operation: frame windows, attribution of beats, work items, verdicts,
coverage results, and the checking commands (chapters "Check plans and coverage" and "Checking in operation
and verdicts"). -/

namespace Sys2Proof.Machine

/-! ## Epoch plans and windows -/

/-- The sampling decision of epoch `e`. -/
def epochPlan (s : State) (e : Nat) : Option EpochPlan := (s.wtp.cur.toList ++ s.wtp.old).find? fun p => p.epoch == e

/-- The plan of slot `k` is among the armed plans of an epoch. -/
def planIn (k : Nat) (e : EpochPlan) : Bool := e.plans.any fun x => x.1 == k

def modFrameWin (id : Nat) (f : FrameWin → FrameWin) (s : State) : State :=
  { s with wtp := { s.wtp with windows := s.wtp.windows.map fun x => if x.id == id then f x else x } }

def modItem (id : Nat) (f : WorkItem → WorkItem) (s : State) : State :=
  { s with wtp := { s.wtp with items := s.wtp.items.map fun x => if x.id == id then f x else x } }

def itemById (s : State) (id : Nat) : Option WorkItem := s.wtp.items.find? fun x => x.id == id

/-- The item leaves the track. -/
def dropItem (it : WorkItem) (s : State) : State :=
  let s := { s with wtp := { s.wtp with items := s.wtp.items.filter fun x => x.id != it.id } }
  if (s.track it.track).running == some it.id then
    s.modTrack it.track fun x => { x with running := none, retrying := none }
  else s

/-- The number under which the Tensor Checker owes a record (R113). Records of one due time stand in its order, which
depends on the plans and the sampling alone (R68): station, plan slot, layer, epoch, sample_set. -/
def vrdKeyOf (station slot layerIx epoch num : Nat) : Nat :=
  ((station * 16 + slot) * 2 ^ 16 + layerIx) * 2 ^ 72 + epoch * 2 ^ 40 + num

def vrdKey (it : WorkItem) (num : Nat) : Nat := vrdKeyOf it.layer.station it.slot it.layerIx it.epoch num

/-- A sample set withdrawn under R14: no record; it counts as received (R212, R219). -/
def withdrawSample (it : WorkItem) (x : Sample) (s : State) : State :=
  let s := { s with wtp := { s.wtp with wdrCnt := wrap 32 (s.wtp.wdrCnt + 1) } }
  let s := s.modStat it.epoch fun e => { e with received := e.received + 1 }
  let s := modItem it.id (fun i =>
    { i with samples := i.samples.map fun y => if y.num == x.num then { y with done := true } else y }) s
  s.unowe 1 (vrdKey it x.num)

/-- All that has not committed of an item is withdrawn. -/
def withdrawAll (it : WorkItem) (s : State) : State :=
  forEach (it.samples.filter fun x => !x.done) (withdrawSample it) s

/-! ### A frame start -/

/-- A frame start of a plan's stream: the slot's latest window ends, and the next one begins, frame_lag after
the stamp (R195). -/
def frameWindowAt (stream stamp : Nat) (s : State) : State :=
  let close := fun x : FrameWin =>
    if x.stream == stream && x.closeAt.isNone then { x with closeAt := some (stamp + x.lag) } else x
  let s := { s with wtp := { s.wtp with windows := s.wtp.windows.map close } }
  forEach (List.range 16) (fun k s =>
    match slotPlan s k with
    | none => s
    | some p =>
      if p.stream != stream then s
      else
        let w : FrameWin := {
          id := s.wtp.nextId, slot := k, stream := stream, nf := 0, epoch := 0, lag := p.lagUs * 1000,
          openAt := stamp + p.lagUs * 1000,
          closeAt := none, opened := false, closed := false, counts := [], runs := [] }
        { s with wtp := { s.wtp with
          windows := s.wtp.windows ++ [w], nextId := s.wtp.nextId + 1 } }) s

/-! ### Opening -/

/-- Sample sets of a layer in frame window `nf` (R206). -/
def sampleSets (l : Layer) (nf q : Nat) (ps : List Nat) : List Sample :=
  if l.kind = 5 then [{ num := nf, pos := 0, done := false, lost := 0, held := none }]
  else (List.range ps.length).map fun i =>
    { num := nf * q + i, pos := ps.getD i 0, done := false, lost := 0, held := none }

/-- The work item of one planned layer in a frame window (R206). -/
def makeItem (s : State) (w : FrameWin) (p : Plan) (ix q : Nat) (ps : List Nat) (l : Layer) : WorkItem :=
  let org := fun d : Desc => originOf (stnWin s l.station d.window) d
  { id := s.wtp.nextId, slot := w.slot, layerIx := ix, layer := l, plan := p.planId,
    owner := (s.wtp.slots.getD w.slot PlanSlot.reset).owner, stream := p.stream, bundle := p.bundle,
    window := w.id, nf := w.nf, epoch := w.epoch, track := s.jct.route.getD l.station 0,
    samples := sampleSets l w.nf q ps, run := if l.kind = 5 then ps else [],
    org := [org l.descA, org l.descB, org l.descO],
    need := if l.kind = 5 then (ps.flatMap l.inputNeed).eraseDups else layerNeed l ps,
    beats := [], gone := [], taps := [], tapOn := false, tapEnd := false, due := none, obs := 0,
    phase := 0, asked := false, chunks := [], raw := [], fetch := [], passes := 0 }

/-- One planned layer's item joins the checker, and its sample sets count as planned (R219). A layer that has lost a
chunk in the epoch is withdrawn at once (R183). -/
def addItem (w : FrameWin) (p : Plan) (x : Nat × Nat × Nat × List Nat) (s : State) : State :=
  match p.layers[x.2.1]? with
  | none => s
  | some l =>
    if x.1 != w.slot || x.2.2.1 = 0 then s
    else
      let it := makeItem s w p x.2.1 x.2.2.1 x.2.2.2 l
      let s := { s with wtp := { s.wtp with items := s.wtp.items ++ [it], nextId := s.wtp.nextId + 1 } }
      let s := s.modStat w.epoch fun e => { e with planned := e.planned + it.samples.length }
      if s.wtp.badLayers.contains (w.epoch, w.slot, x.2.1) then withdrawAll it s else s

/-- A frame window opens (R195): it belongs to the epoch in which it opens and follows that epoch's plan. In the
fatal state the tracks take no new work item (R315). -/
def openWindow (w : FrameWin) (s : State) : State :=
  let e := s.epochAt w.openAt
  let nf := (s.wtp.windows.filter fun x => x.slot == w.slot && x.opened && x.epoch == e).length
  let w := { w with opened := true, epoch := e, nf := nf }
  let s := modFrameWin w.id (fun x => { x with opened := true, epoch := e, nf := nf }) s
  match epochPlan s e, slotPlan s w.slot with
  | some ep, some p => if s.fatal || !planIn w.slot ep then s else forEach ep.layers (addItem w p) s
  | _, _ => s

/-- The earliest window of the slot that has not opened, if its time has come and no boundary stands before
it. -/
def windowToOpen (s : State) (k : Nat) : Option FrameWin :=
  match s.wtp.windows.find? fun x => x.slot == k && !x.opened with
  | some w =>
    let clear := match s.ttb.announced with | some b => decide (w.openAt < b.t) | none => true
    if w.openAt ≤ s.now && clear then some w else none
  | none => none

def execFrameWindowOpen (slot : Nat) (s : State) : Host.Outcome State Fault Refusal :=
  next (if s.core then withSome (windowToOpen s slot) openWindow s else s)

/-! ## Verdicts -/

/-- Verdict codes (Table 06-9). -/
def vPass : Nat := 0
def vMismatch : Nat := 1
def vIncomplete : Nat := 2
def vLate : Nat := 3
def vSkipped : Nat := 4

/-- Reasons of INCOMPLETE (Table 11-7); no counter of it names the reason of R315. -/
def lostNone : Nat := 0
def lostDropped : Nat := 1
def lostNotArrived : Nat := 2
def lostTrack : Nat := 3
def lostStation : Nat := 4
def lostFull : Nat := 5

def verdictDetail (epoch plan stream layer : Nat) : Nat :=
  packN [(32, 32, epoch), (24, 8, plan), (20, 4, stream), (0, 16, layer)]

/-- The counters of the verdict registers advance at the commit (Table 11-7). -/
def countVerdict (code reason : Nat) (w : Checker) : Checker :=
  let up := fun n => wrap 32 (n + 1)
  match code with
  | 0 => { w with passCnt := up w.passCnt }
  | 1 => { w with mismCnt := up w.mismCnt }
  | 2 =>
    let w := { w with incCnt := up w.incCnt }
    match reason with
    | 1 => { w with dropped := up w.dropped }
    | 3 => { w with trackLost := up w.trackLost }
    | 4 => { w with noStn := up w.noStn }
    | 5 => { w with actFull := up w.actFull }
    | 0 => w
    | _ => { w with notArr := up w.notArr }
  | 3 => { w with lateCnt := up w.lateCnt }
  | _ => { w with skipCnt := up w.skipCnt }

/-- The cause of a verdict event in Table 16-2, and the rows that it selects: PASS and SKIPPED have neither, and a
LATE verdict with a difference selects both of its rows (R213, R307). -/
def verdictRows (code : Nat) (differs : Bool) (stream : Nat) : Nat × List Nat :=
  let row := fun k => 8 * stream + k
  match code with
  | 1 => (1, [row 0])
  | 2 => (4, [row 2])
  | 3 => if differs then (3, [row 0, row 1]) else (2, [row 1])
  | _ => (0, [])

/-- The verdict event at the commit, for every code (R218). -/
def verdictEvent (code : Nat) (differs : Bool) (slot station stream owner layer epoch detail : Nat) (s : State) : State :=
  let (cause, rows) := verdictRows code differs stream
  s.post (eventOcc 8 cause station detail rows owner (.verdict code differs stream slot owner station layer epoch))

/-- A commit: counters, event, and the count of received verdicts of its epoch (R218, R219). -/
def noteCommit (code reason epoch plan slot stream station layer owner : Nat) (differs : Bool) (s : State) : State :=
  let s := { s with wtp := countVerdict code reason s.wtp }
  let s := if code = vMismatch || (code = vLate && differs) then
      { s with wtp := { s.wtp with
        lastMm := pack [(32, 32, epoch), (24, 8, plan), (16, 6, station), (0, 16, layer)] } }
    else s
  let s := s.modStat epoch fun e => { e with received := e.received + 1 }
  let s := if code = vLate then s.markLate epoch else s
  verdictEvent code differs slot station stream owner layer epoch (verdictDetail epoch plan stream layer) s

/-- A VRD record (Tables 06-9 and 11-3). -/
def vrdRec (s : State) (code epoch plan station layer num owner due obs : Nat) (trk : Option Nat)
    (r : SampleResult) : Rec :=
  let full := code = vMismatch || (code = vLate && r.mism != 0)
  { mkRec 6 due 65 station (packN [(29, 3, code), (16, 8, plan), (0, 16, layer)])
      [pack [(32, 32, epoch), (0, 32, num)],
        pack [(48, 16, r.checked), (32, 16, if full then r.mism else 0), (0, 32, if full then r.first else 0)],
        pack [(32, 32, if full then unsigned 32 r.recomp else 0), (0, 32, if full then unsigned 32 r.obs else 0)]] with
    owner := owner, own := some epoch, trailer := some (trailerWord s trk obs) }

/-- The last verdict deadline of an epoch (R70). -/
def noteDue (epoch due : Nat) (s : State) : State := s.modStat epoch fun e => { e with lastDue := max e.lastDue due }

/-! ### What a commit leaves behind -/

/-- Column sums widen the sampled accumulator range of the station, window and ctx that desc_o names, for the entry
that names them when the record of the next epoch closes (R246). -/
def noteSums (it : WorkItem) (sums : List Int) (s : State) : State :=
  let place := placeOf it.layer.station it.layer.descO.window it.layer.ctx
  match sums.map (clampI (-2 ^ 31) (2 ^ 31 - 1)) with
  | x :: xs =>
    let lo := xs.foldl min x
    let hi := xs.foldl max x
    let same := fun r : AccRange => r.place == place && r.epoch == it.epoch
    let f := fun r : AccRange => if same r then { r with lo := min r.lo lo, hi := max r.hi hi } else r
    let rs := if s.wbr.ranges.any same then s.wbr.ranges.map f
      else s.wbr.ranges ++ [{ place := place, epoch := it.epoch, lo := lo, hi := hi }]
    { s with wbr := { s.wbr with ranges := rs } }
  | [] => s

/-- Clip counters of the producing track (R179). -/
def noteClips (t lo hi : Nat) (s : State) : State :=
  s.modTrack t fun x => { x with clipLow := wrap 32 (x.clipLow + lo), clipHigh := wrap 32 (x.clipHigh + hi) }

/-- The positions that a PASS or MISMATCH covers (R201). -/
def noteCovered (it : WorkItem) (ps : List Nat) (s : State) : State :=
  { s with wtp := { s.wtp with covered := s.wtp.covered ++ ps.map fun p =>
      { epoch := it.epoch, slot := it.slot, layerIx := it.layerIx, pos := p } } }

/-- A sample set commits: its record is handed over, and what the block keeps of it is noted. DESIGN CHOICE (R72): the
track that holds its item counts as having produced the record, also where the item never started (LATE, or lost with
its track). -/
def commitSample (it : WorkItem) (x : Sample) (code reason : Nat) (r : SampleResult) (s : State) : State :=
  let l := it.layer
  let s := noteCommit code reason it.epoch it.plan it.slot it.stream l.station l.layer it.owner (r.mism != 0) s
  let s := noteSums it r.sums (noteClips it.track r.clipLow r.clipHigh s)
  let s := if code = vPass || code = vMismatch then
      noteCovered it (if l.kind = 5 then runReady it else [x.pos]) s
    else s
  let s := modItem it.id (fun i =>
    { i with samples := i.samples.map fun y => if y.num == x.num then { y with done := true } else y }) s
  let due := it.due.getD s.now
  noteDue it.epoch due (s.emitVrd (vrdKey it x.num)
    (vrdRec s code it.epoch it.plan l.station l.layer x.num it.owner due it.obs (some it.track) r))

/-! ### Coverage -/

/-- Armed checkable layers of one lane map of a slot in an epoch, planned or not: place and layer (R201). -/
def mapLayers (p : Plan) (ep : EpochPlan) (k mi : Nat) : List (Nat × Layer) :=
  (ep.armed.filter fun x => x.1 == k).filterMap fun x =>
    match p.layers[x.2]? with
    | some l => if l.lanemap == mi then some (x.2, l) else none
    | none => none

/-- Lanes missed, and whether all columns were met, by one lane map (R201). -/
def mapCoverage (s : State) (p : Plan) (ep : EpochPlan) (k mi : Nat) (m : LaneMap) : Nat × Bool :=
  let ls := mapLayers p ep k mi
  let met := fun f : Layer → Nat → List Nat => ls.flatMap fun x =>
    (s.wtp.covered.filter fun c => c.epoch == ep.epoch && c.slot == k && c.layerIx == x.1).flatMap fun c =>
      f x.2 c.pos
  let lanes := met m.lanesAt
  let cols := met m.colsAt
  (((lanesOf m (ls.map (·.2))).filter fun x => !lanes.contains x).length,
    (colsOf m (ls.map (·.2))).all fun x => cols.contains x)

/-- Lane maps of station `n` with armed layers: lanes missed and columns complete, over all of them. -/
def stationCoverage (s : State) (ep : EpochPlan) (n : Nat) : Option (Nat × Bool) :=
  let maps := ep.plans.flatMap fun x =>
    (List.range x.2.lanemaps.length).filterMap fun mi =>
      match x.2.lanemaps[mi]? with
      | some m =>
        if m.station == n && !(mapLayers x.2 ep x.1 mi).isEmpty then some (mapCoverage s x.2 ep x.1 mi m) else none
      | none => none
  if maps.isEmpty then none else some (sumOf (·.1) maps, maps.all (·.2))

/-- A coverage-shortfall fault (R216, Table 16-2). -/
def shortfall (cause engine epoch low : Nat) (streams : List Nat) (owner : Nat) (s : State) : State :=
  let s := { s with wtp := { s.wtp with shortEp := epoch, shortCnt := wrap 32 (s.wtp.shortCnt + 1) } }
  s.post (outcomeOcc 8 cause engine (packN [(32, 32, epoch), (16, 16, maskOf streams), (0, 12, low)])
    (streams.map fun i => 8 * i + 3) owner)

/-- Streams of the plans armed in an epoch with a layer at station `n` (Table 16-2). -/
def coveredStreams (ep : EpochPlan) (n : Nat) : List Nat :=
  (ep.plans.filterMap fun x => if x.2.layers.any (fun l => l.station == n) then some x.2.stream else none).eraseDups

/-- The coverage result of one station (R201, Table 10-10). -/
def tellCoverage (ep : EpochPlan) (n : Nat) (s : State) : State :=
  match stationCoverage s ep n with
  | none => s
  | some (missed, cols) =>
    let w := pack [(63, 1, b2n (missed == 0)), (62, 1, b2n cols), (32, 12, sat 12 missed), (0, 32, ep.epoch)]
    let s := { s with wtp := { s.wtp with cov := s.wtp.cov.set n w } }
    if missed = 0 && cols then s
    else shortfall 6 n ep.epoch (sat 12 missed) (coveredStreams ep n) 16 s

/-- Every verdict of epoch `e`, which is over, has committed. -/
def epochSettled (s : State) (e : Nat) : Bool :=
  match (s.stat e).bind (·.closedAt) with
  | none => false
  | some t =>
    !(s.wtp.windows.any fun w => if w.opened then w.epoch == e && !w.closed else decide (w.openAt < t))
      && !s.wtp.items.any fun i => i.epoch == e

/-! ### Sampled accumulator ranges in STS records -/

/-- No sample set of epoch `e` is still to commit. -/
def epochOver (s : State) (e : Nat) : Bool := (s.stat e).isNone || epochSettled s e

def prevEpoch (e : Nat) : Nat := (e + 2 ^ 32 - 1) % 2 ^ 32

/-- The key under which the Weighbridge owes the record of an entry and epoch. -/
def stsKey (epoch entry : Nat) : Nat := epoch * 64 + entry

/-- The record of an entry with the range of the frame windows opened one epoch earlier (R246, Table 06-10). -/
def stsRec (s : State) (o : OwedSts) : Rec :=
  let range := match s.wbr.ranges.find? fun r => r.place == o.place && r.epoch == prevEpoch o.epoch with
    | some r => pack [(32, 32, unsigned 32 r.hi), (0, 32, unsigned 32 r.lo)]
    | none => 0x80000000_7FFFFFFF#64
  { mkRec 7 o.due 66 o.station o.specific (o.body.set 3 range) with
    ctx := o.ctx, own := some o.epoch, trailer := some (trailerWord s none (o.due - 2000000)) }

/-- Closed statistics are handed over once their sampled range is complete (R246, R248); a range is kept while a
record can still need it. -/
def sendSts (s : State) : State :=
  let due := s.wbr.owedSts.filter fun o => epochOver s (prevEpoch o.epoch)
  let s := forEach due (fun o s => s.emit 2 (stsKey o.epoch o.entry) (stsRec s o)) s
  let kept := s.wbr.owedSts.filter fun o => !epochOver s (prevEpoch o.epoch)
  let wanted := fun r : AccRange =>
    let e := wrap 32 (r.epoch + 1)
    r.epoch == s.ttb.epoch || e == s.ttb.epoch || s.wbr.toClose.any (fun c => c.epoch == e)
      || kept.any (fun o => o.epoch == e)
  { s with wbr := { s.wbr with owedSts := kept, ranges := s.wbr.ranges.filter wanted } }

/-- The coverage results of epochs that are complete are written (R201, R216), and the statistics that waited for
them are handed over. -/
def settleCoverage (s : State) : State :=
  let done := forEach s.wtp.old (fun ep s =>
    if ep.told || !epochSettled s ep.epoch then s
    else
      let s := forEach (List.range 64) (tellCoverage ep) s
      let f := fun x : EpochPlan => if x.epoch == ep.epoch then { x with told := true } else x
      { s with wtp := { s.wtp with
        old := s.wtp.old.map f, covered := s.wtp.covered.filter fun c => c.epoch != ep.epoch,
        windows := s.wtp.windows.filter fun w => !(w.opened && w.epoch == ep.epoch),
        badLayers := s.wtp.badLayers.filter fun x => x.1 != ep.epoch } }) s
  sendSts done

/-! ### The weight stage (R210) -/

/-- The chunks that an item needs: weights, and the table of its channels. -/
def itemChunks (l : Layer) : List Nat :=
  if l.kind = 4 then [l.tChunk]
  else if l.kind = 5 && !l.tapBias then chunkRun l.wChunk l.wChunks
  else (chunkRun l.wChunk l.wChunks ++ [l.tChunk]).eraseDups

/-- Sample sets with complete inputs, in ascending order: the array works on these. -/
def computables (it : WorkItem) : List Sample := it.samples.filter (computable it)

/-- Nothing of the item can be computed. -/
def nothingToRun (it : WorkItem) : Bool :=
  if it.layer.kind = 5 then (runReady it).isEmpty else (computables it).isEmpty

/-- Order of two ready items: due time, station, plan slot, layer. -/
def before (a b : WorkItem) : Bool :=
  let key := fun i : WorkItem => [i.due.getD 0, i.layer.station, i.slot, i.layerIx]
  decide (key a < key b)

/-- The first of some items in that order. -/
def firstItem (l : List WorkItem) : Option WorkItem :=
  l.foldl (fun a i => match a with
    | none => some i
    | some b => if before i b then some i else some b) none

/-- Chunks of at most 64 KiB that weight-stage SRAM holds: 2 MiB (Table 09-1). -/
def stageRoom : Nat := 32

/-- Chunks that weight-stage SRAM holds or awaits for work items. The chunks of a Pilot frame pass through it layer by
layer and are not counted (DESIGN CHOICE, log 130). -/
def stageUse (s : State) (t : Nat) : Nat :=
  ((s.wtp.items.filter fun i => i.track == t && i.asked).flatMap fun i =>
    (i.chunks.map (·.1) ++ i.fetch).map fun c => (i.bundle, c)).eraseDups.length

/-- An item's chunks: those that an item of the same layer still holds, and the others fetched. -/
def askChunks (it : WorkItem) (s : State) : State :=
  let held := (s.wtp.items.filter fun j =>
    j.track == it.track && j.slot == it.slot && j.layerIx == it.layerIx && j.id != it.id).flatMap (·.chunks)
  let need := itemChunks it.layer
  let mine := need.filterMap fun c => held.find? fun x => x.1 == c
  let left := need.filter fun c => !mine.any fun x => x.1 == c
  let s := modItem it.id (fun i => { i with asked := true, chunks := mine, fetch := left }) s
  fetchChunks it.track it.id false it.owner it.bundle left s

/-- The chunks of the next ready item are fetched where weight-stage SRAM has room (R210). -/
def fetchNext (t : Nat) (s : State) : State :=
  match firstItem (s.wtp.items.filter fun i => i.track == t && i.phase == 1 && !i.asked && !nothingToRun i) with
  | none => s
  | some it =>
    if (s.track t).state == 1
        && (stageUse s t == 0 || decide (stageUse s t + (itemChunks it.layer).length ≤ stageRoom)) then askChunks it s
    else s

def fetchReady (t : Nat) (s : State) : State := forEach (List.range s.wtp.items.length) (fun _ s => fetchNext t s) s

/-- The item leaves its track, and with it its chunks. -/
def leaveTrack (it : WorkItem) (s : State) : State := fetchReady it.track (dropItem it s)

/-- An item whose sample sets have all committed leaves its track (R210). -/
def settleItem (id : Nat) (s : State) : State :=
  match itemById s id with
  | some it => if it.samples.all (·.done) && it.due.isSome then settleCoverage (leaveTrack it s) else s
  | none => s

/-! ## Attribution -/

/-- The places that a beat offset takes in the tensors of the item: every descriptor that matches (R195). -/
def placesIn (it : WorkItem) (win ordinal off : Nat) : List (Nat × Nat) :=
  (usedDescs it.layer).filterMap fun d =>
    let o := it.org.getD d.1 0
    if d.2.window = win ∧ d.2.ordinal = ordinal ∧ o ≤ off ∧ it.need.contains (d.1, off - o) then some (d.1, off - o)
    else none

/-- What a held beat occupies: one place for all items that need it (R208). -/
def beatKey (it : WorkItem) (b : HeldBeat) : Nat × Nat × Nat × Nat × Nat × Nat :=
  let d := it.layer.descOf b.role
  (it.window, it.layer.station, d.window, it.layer.ctx, d.ordinal, it.org.getD b.role 0 + b.offset)

/-- Some sample set of the item that has not committed uses the beat (R208). -/
def beatInUse (it : WorkItem) (b : HeldBeat) : Bool :=
  it.samples.any fun x => !x.done
    && (it.layer.kind == 5 || (it.layer.inputNeed x.pos ++ it.layer.outputNeed x.pos).contains (b.role, b.offset))

/-- Bytes of operands that a track holds: those whose band is not freed. -/
def heldBytes (s : State) (t : Nat) : Nat :=
  let mine := s.wtp.items.filter fun i => i.track == t
  64 * ((mine.flatMap fun i => (i.beats.filter (beatInUse i)).map (beatKey i)).eraseDups).length
    + 128 * sumOf (fun i : WorkItem => i.taps.length) mine

/-- Space of a track for operands: the reservation of the epoch (R209), and what the beats of stations remapped to
it may take (R217), within its 4 MiB. -/
def reserveOf (s : State) (t : Nat) : Nat :=
  match s.wtp.cur with | some p => min (4 * 2 ^ 20) (p.reserve.getD t 0 + p.extra.getD t 0) | none => 0

/-- A needed beat has arrived, or a gap marker has reported it; a beat without space counts as lost. Beats of
sample sets already lost are not stored. -/
def noteArrival (space : Bool) (stamp : Nat) (role off : Nat) (data : Option (BitVec 512)) (it : WorkItem) : WorkItem :=
  if it.gone.any (fun g => g.1 == role && g.2.1 == off) || (beatOf it role off).isSome then it
  else
    let it := { it with obs := max it.obs stamp }
    match data with
    | some d =>
      if space then { it with beats := it.beats ++ [{ role := role, offset := off, stamp := stamp, data := d }] }
      else { it with gone := it.gone ++ [(role, off, lostFull)] }
    | none => { it with gone := it.gone ++ [(role, off, lostDropped)] }

/-- Tap beats of the run that the layer compares. -/
def neededTaps (it : WorkItem) : List Nat :=
  it.run.flatMap fun p => (List.range it.layer.tapBeats).map fun j => p * it.layer.tapBeats + j

/-- Every needed beat has arrived or been reported (R207). -/
def allAccounted (it : WorkItem) : Bool :=
  (it.need.all fun n => (beatOf it n.1 n.2).isSome || it.gone.any fun g => g.1 == n.1 && g.2.1 == n.2)
    && (neededTaps it).all fun i => (tapData it i).isSome || it.gone.any fun g => g.1 == 3 && g.2.1 == i

/-- Why a sample set lacks operands: the lowest reason among its missing needs. -/
def sampleReason (it : WorkItem) (x : Sample) : Nat :=
  let need := if it.layer.kind = 5 then it.need ++ (neededTaps it).map fun i => (3, i)
    else it.layer.inputNeed x.pos ++ it.layer.outputNeed x.pos
  let rs := it.gone.filterMap fun g => if need.contains (g.1, g.2.1) then some g.2.2 else none
  match rs with
  | [] => 0
  | r :: rest => rest.foldl min r

/-- The observation point of an item is fixed (R207): it becomes ready, its chunks are fetched, its records are owed,
and those of sample sets lost before are handed over. DESIGN CHOICE (R72): no track produced the record of a sample
set that was lost while its beats gathered. -/
def readyItem (id obs : Nat) (s : State) : State :=
  match itemById s id with
  | none => s
  | some it =>
    let due := obs + 2000000
    let it := { it with obs := obs, due := some due, phase := 1 }
    let s := modItem id (fun _ => it) s
    let s := noteDue it.epoch due s
    let s := forEach it.samples (fun x s =>
      match x.held with
      | some r => s.emitVrd (vrdKey it x.num) { r with ts := due, trailer := some (trailerWord s none obs) }
      | none => if x.done then s else s.owe 1 (vrdKey it x.num) due) s
    fetchReady it.track (settleItem id s)

/-- Items of a window that have all they need become ready. -/
def readyItems' (window : Nat) (s : State) : State :=
  forEach (s.wtp.items.filter fun i => i.window == window && i.phase == 0 && allAccounted i)
    (fun i s => readyItem i.id i.obs s) s

/-- Windows in which a stamp lies. -/
def windowsOf (s : State) (stamp : Nat) : List FrameWin :=
  s.wtp.windows.filter fun w =>
    w.opened && !w.closed && decide (w.openAt ≤ stamp)
      && (match w.closeAt with | some c => decide (stamp < c) | none => true)

/-- The count of a window for one station, snoop window, context and offset. -/
def countOf (w : FrameWin) (key : Nat × Nat × Nat × Nat) : Nat :=
  match w.counts.find? fun c => c.1 == key with | some c => c.2 | none => 0

def setCount (key : Nat × Nat × Nat × Nat) (n : Nat) (w : FrameWin) : FrameWin :=
  { w with counts := (key, n) :: w.counts.filter fun c => c.1 != key }

/-- One arrival, or one dropped offset, at one frame window (R195). -/
def arriveIn (n win ctx off stamp : Nat) (data : Option (BitVec 512)) (w : FrameWin) (s : State) : State :=
  let k := countOf w (n, win, ctx, off) + 1
  let s := modFrameWin w.id (setCount (n, win, ctx, off) k) s
  let s := forEach (s.wtp.items.filter fun i =>
      i.window == w.id && i.phase == 0 && i.layer.station == n && i.layer.ctx == ctx) (fun i s =>
    forEach (placesIn i win k off) (fun x s =>
      let known := s.wtp.items.any fun j => j.track == i.track
        && j.beats.any fun b => beatKey j b == (w.id, n, win, ctx, k, off)
      let space := known || decide (heldBytes s i.track + 64 ≤ reserveOf s i.track)
      modItem i.id (noteArrival space stamp x.1 x.2 data) s) s) s
  readyItems' w.id s

/-- A checker beat reaches its track (R195). -/
def checkerBeat (n win ctx off stamp : Nat) (data : Option (BitVec 512)) (s : State) : State :=
  forEach (windowsOf s stamp) (fun w s =>
    match s.wtp.windows.find? fun x => x.id == w.id with
    | some w => arriveIn n win ctx off stamp data w s
    | none => s) s

/-- The run count of a station and context in a window. -/
def runOf (w : FrameWin) (n ctx : Nat) : Nat :=
  match w.runs.find? fun r => r.1 == (n, ctx) with | some r => r.2 | none => 0

def setRun (n ctx k : Nat) (w : FrameWin) : FrameWin :=
  { w with runs := ((n, ctx), k) :: w.runs.filter fun r => r.1 != (n, ctx) }

/-- An accumulator beat, or one reported by a gap marker, at one frame window (R202). `starts` are the tap runs that
have begun since the item before; the beat belongs to the last of them, if there is one. -/
def tapIn (n ctx index stamp : Nat) (starts : List (Nat × Nat)) (data : Option (BitVec 1024)) (w : FrameWin) (s : State) :
    State :=
  let inside := fun x : Nat × Nat => decide (w.openAt ≤ x.2)
  let w := (starts.filter inside).foldl (fun w x => setRun n x.1 (runOf w n x.1 + 1) w) w
  let s := modFrameWin w.id (fun x => { x with runs := w.runs }) s
  let fresh := match starts.getLast? with | some x => inside x | none => false
  let mine := s.wtp.items.filter fun i => i.window == w.id && i.phase == 0 && i.layer.station == n && i.layer.kind == 5
  let s := forEach mine (fun i s =>
    let ends := i.tapOn && (i.layer.ctx != ctx || !starts.isEmpty)
    let begins := i.layer.ctx == ctx && fresh && runOf w n ctx == i.layer.descO.ordinal
    let on := begins || (i.tapOn && !ends)
    let s := modItem i.id (fun i => { i with tapOn := i.tapOn || begins, tapEnd := i.tapEnd || ends }) s
    if on && !(i.tapEnd || ends) && (neededTaps i).contains index then
      let space := decide (heldBytes s i.track + 128 ≤ reserveOf s i.track)
      modItem i.id (fun i =>
        let i := { i with obs := max i.obs stamp }
        match data with
        | some d => if space then { i with taps := i.taps ++ [{ index := index, stamp := stamp, data := d }] }
          else { i with gone := i.gone ++ [(3, index, lostFull)] }
        | none => { i with gone := i.gone ++ [(3, index, lostDropped)] }) s
    else s) s
  readyItems' w.id s

def tapBeat (n ctx index stamp : Nat) (starts : List (Nat × Nat)) (data : Option (BitVec 1024)) (s : State) : State :=
  forEach (windowsOf s stamp) (fun w s =>
    match s.wtp.windows.find? fun x => x.id == w.id with
    | some w => tapIn n ctx index stamp starts data w s
    | none => s) s

/-! ### Closing -/

/-- A station still holds operand items stamped before `t`. -/
def operandsBefore (s : State) (t : Nat) : Bool :=
  (List.range 64).any fun n => inMerge s n && !asParked (s.station n)
    && (s.station n).op.any fun i => decide (opStamp i < t)

/-- One record of a layer that has no beats to wait for (R207). -/
def windowRecord (w : FrameWin) (p : Plan) (ix code reason t : Nat) (s : State) : State :=
  match p.layers[ix]? with
  | none => s
  | some l =>
    let owner := (s.wtp.slots.getD w.slot PlanSlot.reset).owner
    let s := s.modStat w.epoch fun e => { e with planned := e.planned + 1 }
    let s := noteCommit code reason w.epoch p.planId w.slot p.stream l.station l.layer owner false s
    let due := t + 2000000
    let s := noteDue w.epoch due s
    s.emitVrd (vrdKeyOf l.station w.slot ix w.epoch w.nf)
      (vrdRec s code w.epoch p.planId l.station l.layer w.nf owner due t none noResult)

/-- A frame window closes (R207): its items take what has arrived, and layers without beats yield their
records. -/
def closeWindow (w : FrameWin) (t : Nat) (s : State) : State :=
  let s := modFrameWin w.id (fun x => { x with closed := true }) s
  let s := forEach (s.wtp.items.filter fun i => i.window == w.id && i.phase == 0) (fun i s =>
    let miss : List (Nat × Nat) := (i.need ++ (neededTaps i).map fun x => (3, x)).filter fun n : Nat × Nat =>
      !(if n.1 = 3 then (tapData i n.2).isSome else (beatOf i n.1 n.2).isSome)
        && !i.gone.any fun g => g.1 == n.1 && g.2.1 == n.2
    readyItem i.id t
      (modItem i.id (fun i => { i with gone := i.gone ++ miss.map fun n => (n.1, n.2, lostNotArrived) }) s)) s
  let s := match epochPlan s w.epoch, slotPlan s w.slot with
    | some ep, some p =>
      let s := forEach (ep.skips.filter fun x => x.1 == w.slot) (fun x s => windowRecord w p x.2 vSkipped 0 t s) s
      forEach (ep.layers.filter fun x => x.1 == w.slot && x.2.2.1 == 0)
        (fun x s => windowRecord w p x.2.1 vIncomplete lostStation t s) s
    | _, _ => s
  settleCoverage s

/-- The window of the slot whose close has come. -/
def windowToClose (s : State) (k : Nat) : Option (FrameWin × Nat) :=
  match s.wtp.windows.find? fun x => x.slot == k && x.opened && !x.closed with
  | some w =>
    match w.closeAt with
    | some t => if t ≤ s.now && !operandsBefore s t then some (w, t) else none
    | none => none
  | none => none

def execFrameWindowClose (slot : Nat) (s : State) : Host.Outcome State Fault Refusal :=
  next (if s.core then withSome (windowToClose s slot) (fun x => closeWindow x.1 x.2) s else s)

/-! ## Commits -/

/-- Weight bytes and channel table of an item, from its chunks. -/
def weightBytes (it : WorkItem) : List Byte :=
  (List.range it.layer.wChunks).flatMap fun i =>
    match it.chunks.find? fun c => c.1 == it.layer.wChunk + i with | some c => c.2 | none => []

def tableBytes (it : WorkItem) : List Byte :=
  match it.chunks.find? fun c => c.1 == it.layer.tChunk with | some c => c.2 | none => []

/-- Place of a sample set among those that the array works on. -/
def rankOf (it : WorkItem) (x : Sample) : Nat := ((computables it).filter fun y => decide (y.num < x.num)).length

/-- Channel `c` of a sample set has been compared after the passes run so far. -/
def channelDone (it : WorkItem) (x : Sample) (c : Nat) : Bool :=
  decide (lastTile it.layer c * (computables it).length + rankOf it x + 1 ≤ it.passes)

/-- What has been compared of a sample set so far; `seed` is its epoch's. -/
def resultNow (s : State) (it : WorkItem) (x : Sample) : SampleResult :=
  if it.phase != 3 then noResult
  else if it.layer.kind = 5 then
    let seed := match epochPlan s it.epoch with | some p => p.seed | none => 0
    compareRun seed it (weightBytes it) (tableBytes it) ((runReady it).take it.passes)
  else if computable it x then
    compareChannels it (weightBytes it) (tableBytes it) x.pos (channelDone it x)
  else noResult

/-- Nothing of the sample set is left to compute. -/
def sampleFinished (it : WorkItem) (x : Sample) : Bool :=
  it.phase == 3 &&
    (if it.layer.kind = 5 then decide ((runReady it).length ≤ it.passes)
    else !computable it x || (List.range it.layer.cOut).all (channelDone it x))

/-- Everything of the sample set was compared (Table 11-2 row 4). -/
def wholeCompared (it : WorkItem) (r : SampleResult) : Bool :=
  if it.layer.kind = 5 then r.checked == it.run.length else r.checked == it.layer.cOut

/-- The code of a sample set that commits in time (Table 11-2). -/
def codeOf (it : WorkItem) (r : SampleResult) : Nat :=
  if r.mism != 0 then vMismatch else if wholeCompared it r then vPass else vIncomplete

/-- Corrected and uncorrectable words of activation SRAM (Table 16-2). -/
def actEcc (t : Nat) (ecc : Ecc) (s : State) : State :=
  match ecc with
  | .ok => s
  | .corrected => (s.modTrack t fun x => { x with actCorr := sat 16 (x.actCorr + 1) }).raise 7 3 t
  | .uncorrectable => (s.modTrack t fun x => { x with actUncorr := sat 16 (x.actUncorr + 1) }).raise 7 5 t

/-- The next sample set of the track's item commits, in ascending order (R210, R211), while the record store
has room (R220). -/
def sampleSetCommit (t : Nat) (ecc : Ecc) (s : State) : State :=
  match (s.track t).running.bind (itemById s) with
  | none => s
  | some it =>
    match it.samples.find? fun x => !x.done with
    | none => s
    | some x =>
      if !sampleFinished it x || decide (4096 ≤ heldVrd s) || decide (it.due.getD 0 < s.now) then s
      else
        let s := actEcc t ecc s
        let r := resultNow s it x
        let s := if ecc = .uncorrectable then (noteClips t r.clipLow r.clipHigh s).containing 7 t (withdrawSample it x)
          else
            commitSample it x (codeOf it r) (sampleReason it x) r s
        settleItem it.id s

def execSampleSetCommit (t : Nat) (ecc : Ecc) (s : State) : Host.Outcome State Fault Refusal :=
  next (when s.core (sampleSetCommit t ecc) s)

/-- The item with the earliest due time among those whose due time has come. -/
def overdueItem (s : State) : Option WorkItem :=
  (s.wtp.items.filter fun i => match i.due with | some d => decide (d ≤ s.now) | none => false).foldl
    (fun a i => match a with
      | none => some i
      | some b => if i.due.getD 0 < b.due.getD 0 then some i else some b) none

/-- At the due time every uncommitted sample set of the item commits LATE and the rest is discarded
(R213). -/
def verdictDeadline (s : State) : State :=
  match overdueItem s with
  | none => s
  | some it =>
    let s := forEach (it.samples.filter fun x => !x.done) (fun x s =>
      commitSample it x vLate 0 (resultNow s it x) s) s
    settleCoverage (leaveTrack it s)

def execVerdictDeadline (s : State) : Host.Outcome State Fault Refusal := next (when s.core verdictDeadline s)

/-! ## Preparation -/

/-- The preparation of the next epoch from what is known now; once its master edge is stamped it is fixed
(R214). -/
def prepareEpoch (s : State) : State :=
  let e := if s.ttb.running then wrap 32 (s.ttb.epoch + 1) else nextEpoch s.ttb
  { s with wtp := { s.wtp with prep := some (prepared s e) } }

/-- What the check of a word of a Conductor pair's SRAM shows (R13, Table 16-2), from a free value: bit 2 is the pair;
below it, 1 is a corrected word, 2 an uncorrectable one. -/
def conductorFault (v : BitVec 3) : List Occurrence :=
  let pair := v.toNat / 4
  if v.toNat % 4 = 1 then [occ 12 3 pair] else if v.toNat % 4 = 2 then [occ 12 4 pair] else []

/-- DESIGN CHOICE (log 123): a word of a Conductor pair's SRAM is read, and checked, in the preparation of an epoch,
with a free outcome. -/
def conductorRead (s : State) : State :=
  let found := if s.core then conductorFault (Config.conductorCheck s.free) else []
  { s.draw with sbx := { s.sbx with
      inbox := s.sbx.inbox ++ found.map fun o => { o with time := s.now, arises := s.sbx.arising } } }

def execEpochPreparation (s : State) : Host.Outcome State Fault Refusal :=
  next (when (s.fw && s.ttb.announced.isNone && (s.ttb.running || s.ttb.armed))
    (fun s => conductorRead (prepareEpoch s)) s)

end Sys2Proof.Machine
end

