-- ==== Sys2Proof/Machine/PilotNet.lean ====
section
/-! DEFINITION. What a Pilot frame computes: the layers of its model over the captured pixels, the detections
of the head, and the zones that they occupy (chapter "Pilot sentinel inference"). -/

namespace Sys2Proof.Machine

/-! ## The input (R228) -/

def pWindow (w : Word) : Nat := fld w 52 3
def pStation (w : Word) : Nat := fld w 55 6
def pResStation (w : Word) : Nat := fld w 46 6
def pResWindow (w : Word) : Nat := fld w 43 3
def pCtx (w : Word) : Nat := fld w 38 5
def pDec (w : Word) : Nat := 2 ^ fld w 36 2
def pX0 (w : Word) : Nat := fld w 24 12
def pY0 (w : Word) : Nat := fld w 12 12
def pReadyNs (w : Word) : Nat := fld w 0 12 * 100000

/-- Byte place of an input pixel's channel: beat offset in the camera window and byte of the beat. -/
def pixelAt (w : Word) (pitch y x c : Nat) : Nat × Nat :=
  let b := 3 * (pX0 w + pDec w * x) + c
  (pitch * (pY0 w + pDec w * y) + b / 64, b % 64)

/-- Beat offsets that hold a needed pixel. -/
def pixelBeats (w : Word) (pitch inW inH : Nat) : List Nat :=
  (List.range inH).flatMap fun y =>
    let lo := (pixelAt w pitch y 0 0).1
    let hi := (pixelAt w pitch y (inW - 1) 2).1
    (List.range (hi + 1 - lo)).map (lo + ·)

/-- One input code. -/
def pixel (beats : List (Nat × BitVec 512)) (w : Word) (pitch y x c : Nat) : Int :=
  let (o, i) := pixelAt w pitch y x c
  match beats.find? fun b => b.1 == o with
  | some b => (b.2.toNat / 2 ^ (8 * i) % 256 : Nat)
  | none => 0

/-! ## Layers (R225) -/

/-- A feature map: codes in raster order, channels innermost. -/
def mapAt (m : List Int) (w c y x ch : Nat) : Int := m.getD ((y * w + x) * c + ch) 0

/-- What the layers read: the model, the input codes, and the maps of the layers before; and the clamps so far
(R177). -/
structure NetView where
  model    : PModel
  input    : List Int
  maps     : List (List Int)
  clipLow  : Nat
  clipHigh : Nat
  deriving DecidableEq, Repr

/-- A code of a source. -/
def srcCode (v : NetView) (src y x ch : Nat) : Int :=
  let (_, w, c) := srcShape v.model.inH v.model.inW v.model.layers src
  mapAt (if src = 0xFF then v.input else v.maps.getD src []) w c y x ch

/-- The code of a tap of a convolution; outside the input the value that the spec leaves open. -/
def srcTap (v : NetView) (ix : Nat) (l : PLayer) (y x ky kx ch : Nat) : Int :=
  let (h, w, _) := srcShape v.model.inH v.model.inW v.model.layers l.srcA
  match tapPlace y l.stride l.pad ky h, tapPlace x l.stride l.pad kx w with
  | some iy, some jx => srcCode v l.srcA iy jx ch
  | _, _ => clampTo (actRange (if l.srcA = 0xFF then 1 else 0)) (Config.pilotPad v.model.bundle ix)

def pClamp (l : PLayer) : Int × Int := clampPair (signedRange 8) l.clampLo l.clampHi

/-- A code that a layer of code 0x03-0x05 moves, as the signed code that later layers read: the eight bits of an
input pixel are unchanged (R225). -/
def movedCode (v : NetView) (src y x ch : Nat) : Int := signed 8 (unsigned 8 (srcCode v src y x ch))

def plainCode (y : Int) : Code := { y := y, clip := 0 }

/-- One output code of a layer, and whether the requantiser clamped it. `wt` and `tab` are its weights and channel
table. -/
def layerCode (v : NetView) (ix : Nat) (l : PLayer) (wt tab : List Byte) (y x c : Nat) : Code :=
  let zpA := srcZp v.model.inZp v.model.layers l.srcA
  let (lo, hi) := pClamp l
  match l.op with
  | 0 =>
    let acc := biasAt tab c + sumInt (fun k =>
      (srcTap v ix l y x (k / l.cIn / l.kernel) (k / l.cIn % l.kernel) (k % l.cIn) - zpA)
        * weightAt wt false l.cOut 0 k c) (l.kernel * l.kernel * l.cIn)
    toCode (acc * multAt tab c) (shiftAt tab c) 0 l.zpOut lo hi
  | 1 =>
    let acc := biasAt tab c + sumInt (fun k =>
      (srcTap v ix l y x (k / 3) (k % 3) c - zpA) * weightAt wt true l.cOut 0 k c) 9
    toCode (acc * multAt tab c) (shiftAt tab c) 0 l.zpOut lo hi
  | 2 =>
    let zpB := srcZp v.model.inZp v.model.layers l.srcB
    let u := (srcCode v l.srcA y x c - zpA) * signed 32 (leAt tab 0 4)
      + (srcCode v l.srcB y x c - zpB) * signed 32 (leAt tab 4 4)
    toCode u (min 63 (leAt tab 8 1)) 0 l.zpOut lo hi
  | 3 =>
    let (_, _, ca) := srcShape v.model.inH v.model.inW v.model.layers l.srcA
    plainCode (if c < ca then movedCode v l.srcA y x c else movedCode v l.srcB y x (c - ca))
  | 4 => plainCode (movedCode v l.srcA (y / 2) (x / 2) c)
  | 5 =>
    plainCode (max (max (movedCode v l.srcA (2 * y) (2 * x) c) (movedCode v l.srcA (2 * y) (2 * x + 1) c))
      (max (movedCode v l.srcA (2 * y + 1) (2 * x) c) (movedCode v l.srcA (2 * y + 1) (2 * x + 1) c)))
  | _ => plainCode 0

def chunkOf (chunks : List (Nat × List Byte)) (i : Nat) : List Byte :=
  match chunks.find? fun c => c.1 == i with | some c => c.2 | none => []

/-- The map of one layer. -/
def layerMap (v : NetView) (ix : Nat) (l : PLayer) (chunks : List (Nat × List Byte)) : List Code :=
  let wt := (List.range l.wChunks).flatMap fun i => chunkOf chunks (l.wChunk + i)
  let tab := chunkOf chunks l.tChunk
  (List.range l.hOut).flatMap fun y => (List.range l.wOut).flatMap fun x =>
    (List.range l.cOut).map fun c => layerCode v ix l wt tab y x c

/-- One more layer: its map, and its clamps at the low and at the high end. -/
def runLayer (v : NetView) (ix : Nat) (l : PLayer) (chunks : List (Nat × List Byte)) : NetView :=
  let codes := if l.op = 6 then [] else layerMap v ix l chunks
  let clips := fun k : Nat => (codes.filter fun c => c.clip == k).length
  { v with maps := v.maps ++ [codes.map (·.y)], clipLow := v.clipLow + clips 1, clipHigh := v.clipHigh + clips 2 }

/-- All maps of a model. -/
def runModel (m : PModel) (input : List Int) (chunks : List (Nat × List Byte)) : NetView :=
  (List.range m.layers.length).foldl (fun v i =>
    match m.layers[i]? with
    | some l => runLayer v i l chunks
    | none => v) { model := m, input := input, maps := [], clipLow := 0, clipHigh := 0 }

/-! ## Detections and zones (R232, R233) -/

/-- Channel `j` of the heatmap at column `u` and row `v`; outside the map -128. -/
def heat (n : NetView) (src : Nat) (j : Nat) (u v : Int) : Int :=
  let (h, w, _) := srcShape n.model.inH n.model.inW n.model.layers src
  if 0 ≤ u ∧ u < w ∧ 0 ≤ v ∧ v < h then srcCode n src v.toNat u.toNat j else -128

def isPeak (n : NetView) (src j u v : Nat) : Bool :=
  let c := heat n src j u v
  decide (n.model.thr.getD j 0 < c)
    && [-1, 0, 1].all fun dv : Int => [-1, 0, 1].all fun du : Int => decide (heat n src j (u + du) (v + dv) ≤ c)

/-- Detections: class and doubled point. -/
def detections (n : NetView) : List (Nat × Int × Int) :=
  match n.model.layers.getLast? with
  | none => []
  | some l =>
    let (h, w, c) := srcShape n.model.inH n.model.inW n.model.layers l.srcA
    (List.range c).flatMap fun j => (List.range h).flatMap fun v => (List.range w).filterMap fun u =>
      if isPeak n l.srcA j u v then
        some (j, ((2 * u + 1) * n.model.headS : Nat), ((2 * v + 1) * n.model.headS : Nat))
      else none

/-- Whether an edge of a polygon in doubled coordinates changes sides. -/
def crosses (px py ax ay bx by_ : Int) : Bool :=
  decide (py < ay) != decide (py < by_) &&
    (let lhs := (px - ax) * (by_ - ay)
     let rhs := (py - ay) * (bx - ax)
     if ay < by_ then decide (lhs < rhs) else decide (rhs < lhs))

def insidePoly (vs : List (Nat × Nat)) (px py : Int) : Bool :=
  (List.range vs.length).foldl (fun r i =>
    let a := vs.getD i (0, 0)
    let b := vs.getD ((i + 1) % vs.length) (0, 0)
    r != crosses px py (2 * a.1 : Nat) (2 * a.2 : Nat) (2 * b.1 : Nat) (2 * b.2 : Nat)) false

def zoneOccupied (z : Zone) (ds : List (Nat × Int × Int)) : Bool :=
  ds.any fun d => z.classes.testBit d.1 && insidePoly z.verts d.2.1 d.2.2

end Sys2Proof.Machine
end

