-- ==== Sys2Proof/Machine/Pilot.lean ====
section
/-! DEFINITION. The Pilot: admission, input capture, judgement, records (chapter "Pilot sentinel
inference"). -/

namespace Sys2Proof.Machine

/-! ## Frames -/

def modFrame (id : Nat) (f : PFrame → PFrame) (s : State) : State :=
  { s with plt := { s.plt with frames := s.plt.frames.map fun x => if x.id == id then f x else x } }

def frameById (s : State) (id : Nat) : Option PFrame := s.plt.frames.find? fun x => x.id == id

/-- Judging stops 100 µs before the due time (R229, R239). -/
def lastMoment (f : PFrame) : Nat := f.td - 100000

/-- Skip causes (Table 16-2). -/
def skipBudget : Nat := 0
def skipSram : Nat := 1
def skipInput : Nat := 2
def skipOther : Nat := 3

/-! ## Records and events (R238) -/

/-- The number under which the Pilot owes the record of a frame: records of one due time stand in stream order
(R68). -/
def pltKey (f : PFrame) : Nat := f.stream * 2 ^ 32 + f.frame

/-- A PLT record (Table 06-13); it belongs to the partition that loaded the bundle (R122). DESIGN CHOICE (R72): the
track to which the frame was admitted counts as having produced it, also where the frame was then skipped; and the
record of a frame without a model belongs to the partition that armed the stream. -/
def pltRec (s : State) (f : PFrame) (result zones pilotOcc hostOcc implaus : Nat) : Rec :=
  let m := f.model
  { mkRec 10 f.td 67 (pStation f.word)
      (packN [(28, 4, f.stream), (26, 2, result), (16, 6, zones), (0, 16, match m with | some x => x.bundle | none => 0)])
      [pack [(32, 32, f.frame), (0, 32, f.epoch)], pack [(32, 32, pilotOcc), (0, 32, hostOcc)],
        pack [(0, 32, implaus)]] with
    owner := f.loader, own := some f.epoch, trailer := some (trailerWord s f.track f.tf) }

/-- The record of a frame leaves the Pilot, and the frame counts as judged. -/
def sendPlt (f : PFrame) (r : Rec) (s : State) : State :=
  let s := s.emit 3 (pltKey f) r
  let s := modFrame f.id (fun x => { x with judged := true, running := false }) s
  modPStream f.stream (fun x => { x with frame := f.frame }) s

def countSkip (cause : Nat) (p : Pilot) : Pilot :=
  match cause with
  | 0 => { p with skBudget := sat 16 (p.skBudget + 1) }
  | 1 => { p with skSram := sat 16 (p.skSram + 1) }
  | 2 => { p with skInput := sat 16 (p.skInput + 1) }
  | _ => { p with skOther := sat 16 (p.skOther + 1) }

/-- The event of a judged or skipped frame (R238): a plausible frame selects no row. -/
def pilotEvent (f : PFrame) (cause result implaus low : Nat) (rows : List Nat) (s : State) : State :=
  s.post (eventOcc 9 cause f.stream (f.frame * 2 ^ 32 + low) rows f.owner
    (.pilot result implaus f.stream (pStation f.word) f.owner))

/-- A skipped frame (R229, R238): its record and its event. -/
def skipFrame (f : PFrame) (cause : Nat) (s : State) : State :=
  let s := { s with plt := countSkip cause s.plt }
  let s := sendPlt f (pltRec s f 2 0 0 0 0) s
  pilotEvent f 2 2 0 cause [8 * f.stream + 5] s

/-! ## Admission (R229, R230) -/

/-- ceil(n × 10000 / (budget_rate × (100 − check_share))) ns; none where the Pilot has no share. -/
def frameDur (n budget share : Nat) : Option Nat :=
  let d := budget * (100 - share)
  if d = 0 then none else some (ceilDiv (n * 10000) d)

/-- Bytes of a frame in planning: feature maps and input. -/
def frameNeed (m : PModel) : Nat := m.actBytes + m.inH * ceilDiv (3 * m.inW) 64 * 64

/-- The largest sum of need on a track at any moment of [lo, hi]. -/
def peakNeed (fs : List PFrame) (lo hi : Nat) : Nat :=
  let at_ := fun t => sumOf (·.need) (fs.filter fun g => decide (g.tf ≤ t ∧ t ≤ g.finish))
  ((lo :: fs.map (·.tf)).filter fun t => decide (lo ≤ t ∧ t ≤ hi)).foldl (fun a t => max a (at_ t)) 0

/-- SRAM outside the reservation of the epoch in which a frame falls. -/
def pilotSpace (s : State) (e t : Nat) : Nat :=
  match epochPlan s e with
  | some p => 4 * 2 ^ 20 - p.reserve.getD t 0
  | none => 4 * 2 ^ 20

/-- Start, finish, and whether time and space allow the frame on a track. -/
def tryTrack (s : State) (f : PFrame) (dur k : Nat) : Nat × Nat × Bool × Bool :=
  let start := max f.tr (s.plt.free.getD k 0)
  let finish := start + dur
  let mine := s.plt.frames.filter fun g => g.track == some k && g.id != f.id
  (start, finish, decide (finish ≤ lastMoment f),
    decide (f.need + peakNeed mine f.tf finish ≤ pilotSpace s f.epoch k))

/-- The track with the earliest finish, the earlier letter on a tie: track, start, finish. -/
def bestTrack (s : State) (f : PFrame) (dur : Nat) : List Nat → Option (Nat × Nat × Nat)
  | [] => none
  | k :: r =>
    let (st, fin, tm, sp) := tryTrack s f dur k
    match bestTrack s f dur r with
    | none => if tm && sp then some (k, st, fin) else none
    | some b => if tm && sp && decide (fin ≤ b.2.2) then some (k, st, fin) else some b

/-- A frame is admitted to a track of the set or skipped (R229). -/
def admitFrame (tracks : List Nat) (f : PFrame) (s : State) : State :=
  let (budget, share) := match epochPlan s f.epoch with
    | some p => (p.budget, p.share)
    | none => (budgetRate s, coverShare s.wtp.cover)
  match f.model with
  | none => skipFrame f skipOther s
  | some m =>
    if s.fatal || tracks.isEmpty || !holdsKey s m.bundle || s.ctxOwner (pCtx f.word) != f.owner then
      skipFrame f skipOther s
    else match frameDur m.steps budget share with
      | none => skipFrame f skipBudget s
      | some dur =>
        match bestTrack s f dur tracks with
        | some (k, st, fin) =>
          let s := modFrame f.id (fun x => { x with track := some k, start := st, finish := fin, steps := m.steps }) s
          { s with plt := { s.plt with free := s.plt.free.set k fin } }
        | none =>
          if tracks.any (fun k => (tryTrack s f dur k).2.2.1) then skipFrame f skipSram s
          else skipFrame f skipBudget s

/-- Frames whose planning has ended leave the list, once no frame that can still be decided again overlaps them
(R229, R231). -/
def pruneFrames (s : State) : State :=
  let wanted := fun f : PFrame => s.plt.frames.any fun g => !g.judged && decide (g.tf ≤ f.finish)
  { s with plt := { s.plt with
    frames := s.plt.frames.filter fun f => !(f.judged && decide (f.finish < s.now)) || wanted f } }

/-- The frame of a stream in progress has its input closed by the next frame start (R228). -/
def cutReady (i stamp : Nat) (s : State) : State :=
  let f := fun x : PFrame => if x.stream == i && !x.ready && decide (stamp < x.tr) then { x with tr := stamp } else x
  { s with plt := { s.plt with frames := s.plt.frames.map f } }

/-- At an FSYNC stamp the stream's frame begins (R228); `number` is its frame number. It is decided when all frames of
its stamp are known (`pilotSettle`). -/
def pilotBegin (i stamp number : Nat) (s : State) : State :=
  let s := cutReady i stamp (pruneFrames s)
  let x := s.plt.streams.getD i PStream.reset
  if !bit x.word 63 || !s.ttb.running then s
  else
    let slot := pSlotOf x.word
    let e := s.epochAt stamp
    let td := stamp + fld s.jct.cfg 0 8 * 1000000
    let need := match pModel s slot with | some m => frameNeed m | none => 0
    let loader := if (pModel s slot).isSome then (s.plt.models.getD slot PSlot.reset).owner else x.owner
    let f : PFrame := {
      id := s.plt.nextId, stream := i, frame := number, epoch := e, tf := stamp,
      tr := stamp + pReadyNs x.word, td := td, word := x.word, owner := x.owner, slot := slot,
      track := none, start := 0, finish := 0, decided := false, loader := loader, need := need, beats := [],
      gone := false, ready := false,
      running := false, finished := false, chunks := [], raw := [], fetch := [], host := none, steps := 0,
      judged := false, model := pModel s slot }
    let s := { s with plt := { s.plt with frames := s.plt.frames ++ [f], nextId := s.plt.nextId + 1 } }
    s.owe 3 (pltKey f) td

/-- Of the frames to be decided, the first by stamp, then stream (R229). -/
def firstUndecided (s : State) : Option PFrame :=
  (s.plt.frames.filter fun f => !f.decided).foldl (fun a f => match a with
    | none => some f
    | some b => if f.tf < b.tf ∨ (f.tf = b.tf ∧ f.stream < b.stream) then some f else some b) none

/-- A frame is decided for the track set of its epoch (R214, R229). -/
def decideFrame (f : PFrame) (s : State) : State :=
  let tracks := match epochPlan s f.epoch with
    | some p => p.inTracks.filter fun t => (s.track t).state == 1
    | none => inService s
  let f := { f with decided := true }
  admitFrame tracks f (modFrame f.id (fun _ => f) s)

/-- The frames of the present stamp are decided, in stream order (R229). -/
def pilotSettle (s : State) : State :=
  forEach (List.range s.plt.frames.length) (fun _ s => withSome (firstUndecided s) decideFrame s) s

/-! ## Input and host result -/

/-- The beats that a frame needs. -/
def frameBeats (s : State) (f : PFrame) : List Nat :=
  match f.model with
  | some m => pixelBeats f.word (winPitch (stnWin s (pStation f.word) (pWindow f.word)).ctl) m.inW m.inH
  | none => []

/-- A frame takes camera beats: admitted, its input not yet fixed. -/
def takesInput (f : PFrame) (n win ctx stamp : Nat) : Bool :=
  f.track.isSome && !f.judged && !f.ready && pStation f.word == n && pWindow f.word == win && pCtx f.word == ctx
    && decide (f.tf ≤ stamp) && decide (stamp < f.tr)

/-- Occupancy and validity of a host result beat for a stream (R235). -/
def hostResult (stream : Nat) (d : BitVec 512) : Option (Nat × Nat) :=
  let b := fun o n => d.toNat / 2 ^ (8 * o) % 2 ^ (8 * n)
  if b 0 2 = 0x4852 ∧ b 2 1 = stream then some (b 8 4, b 12 4) else none

/-- The last qualifying beat before the last moment is the result. -/
def takeHost (s : State) (n win ctx stamp : Nat) (d : BitVec 512) (f : PFrame) : PFrame :=
  if !f.judged && pResStation f.word == n && pResWindow f.word == win && s.ctxOwner ctx == f.owner
      && decide (f.tf ≤ stamp) && decide (stamp < lastMoment f) then
    match hostResult f.stream d with
    | some h => { f with host := some h }
    | none => f
  else f

/-- A to_pilot beat, or one reported by a gap marker, reaches the Pilot (R228, R235). A beat that belongs to
no frame is discarded (R117). -/
def pilotBeat (n win ctx off stamp : Nat) (data : Option (BitVec 512)) (s : State) : State :=
  let f := fun x : PFrame =>
    let x := if takesInput x n win ctx stamp && (frameBeats s x).contains off then
        match data with
        | some d => if x.beats.any (fun b => b.1 == off) then x else { x with beats := x.beats ++ [(off, d)] }
        | none => { x with gone := x.gone || !x.beats.any fun b => b.1 == off }
      else x
    match data with
    | some d => takeHost s n win ctx stamp d x
    | none => x
  { s with plt := { s.plt with frames := s.plt.frames.map f } }

/-- Beats stamped before `t` are still in the station's operand region. -/
def opsBefore (s : State) (n t : Nat) : Bool :=
  inMerge s n && !asParked (s.station n) && (s.station n).op.any fun i => decide (opStamp i < t)

/-- At the ready time an incomplete input skips the frame (R228). -/
def pilotReadyTime (i : Nat) (s : State) : State :=
  match s.plt.frames.find? fun f => f.stream == i && f.track.isSome && !f.judged && !f.ready with
  | none => s
  | some f =>
    if s.now < f.tr || opsBefore s (pStation f.word) f.tr then s
    else if !f.gone && (frameBeats s f).all (fun o => f.beats.any fun b => b.1 == o) then
      modFrame f.id (fun x => { x with ready := true }) s
    else skipFrame f skipInput s

def execPilotReadyTime (stream : Nat) (s : State) : Host.Outcome State Fault Refusal :=
  next (when s.core (pilotReadyTime stream) s)

/-! ## Running -/

/-- Check work of a track comes first (R12). -/
def checkReady (s : State) (t : Nat) : Bool := (s.track t).running.isSome || decide (0 < readyItems s t)

/-- The first frame of a track in the order of planned start (R230). -/
def firstFrame (s : State) (t : Nat) : Option PFrame :=
  (s.plt.frames.filter fun f => f.track == some t && !f.judged && !f.finished).foldl (fun a f =>
    match a with
    | none => some f
    | some b => if f.start < b.start then some f else some b) none

/-- Chunks of a model's layers: weights and tables. -/
def modelChunks (m : PModel) : List Nat :=
  (m.layers.flatMap fun l =>
    if l.op = 0 ∨ l.op = 1 then chunkRun l.wChunk l.wChunks ++ [l.tChunk]
    else if l.op = 2 then [l.tChunk] else []).eraseDups

def pilotFrameStart (t : Nat) (s : State) : State :=
  match firstFrame s t with
  | none => s
  | some f =>
    match f.model with
    | none => s
    | some m =>
      if (s.track t).state != 1 || checkReady s t || (s.track t).pilot.isSome || !f.ready || (s.track t).katDue then s
      else
        let need := modelChunks m
        let s := modFrame f.id (fun x => { x with running := true, fetch := need }) s
        let s := s.modTrack t fun x => { x with pilot := some f.id, progress := s.now }
        fetchChunks t f.id true f.loader m.bundle need s

def execPilotFrameStart (t : Nat) (s : State) : Host.Outcome State Fault Refusal :=
  next (when s.core (pilotFrameStart t) s)

/-! ## Judgement -/

/-- The maps of a frame. -/
def frameNet (s : State) (f : PFrame) (m : PModel) : NetView :=
  let pitch := winPitch (stnWin s (pStation f.word) (pWindow f.word)).ctl
  let input := (List.range m.inH).flatMap fun y => (List.range m.inW).flatMap fun x =>
    (List.range 3).map fun c => pixel f.beats f.word pitch y x c
  runModel m input f.chunks

/-- The clamps of a frame's layers count on its track (R177, R179). -/
def noteFrameClips (t : Nat) (f : PFrame) (s : State) : State :=
  match f.model with
  | some m => noteClips t (frameNet s f m).clipLow (frameNet s f m).clipHigh s
  | none => s

/-- Zones that the Pilot finds occupied. -/
def pilotOccupied (s : State) (f : PFrame) (m : PModel) (zs : List Zone) : Nat :=
  let ds := detections (frameNet s f m)
  maskOf ((List.range zs.length).filter fun i =>
    match zs[i]? with | some z => zoneOccupied z ds | none => false)

/-- Disagreement of a judged zone (Table 12-5). -/
def disagrees (mode : Nat) (pilot host : Bool) : Bool :=
  match mode with
  | 0 => pilot != host
  | 1 => pilot && !host
  | _ => host && !pilot

/-- The res_station declares no line: it is not in the merge (R236). -/
def noLine (s : State) (n : Nat) : Bool := !inMerge s n

/-- The res_station has declared the line clear to `t` and its beats before `t` have arrived (R235). -/
def lineClearTo (s : State) (n t : Nat) : Bool :=
  let x := s.station n
  decide (t ≤ stationTlc s x) && !opsBefore s n t

/-- The judgement of a finished frame (R235-R238). -/
def judgeFrame (f : PFrame) (m : PModel) (host : Option (Nat × Nat)) (s : State) : State :=
  let st := s.plt.streams.getD f.stream PStream.reset
  let zs := match st.zones with | some z => z.zones | none => []
  let occ := pilotOccupied s f m zs
  let s := { s with plt := { s.plt with judged := wrap 32 (s.plt.judged + 1) } }
  match host with
  | none =>
    let s := { s with plt := { s.plt with noHost := wrap 32 (s.plt.noHost + 1) } }
    let s := sendPlt f (pltRec s f 3 0 occ 0 0) s
    pilotEvent f 3 3 0 0 [8 * f.stream + 6] s
  | some (hocc, valid) =>
    let judged := (List.range zs.length).filter fun i => valid.testBit i
    let dis := judged.filter fun i =>
      match zs[i]? with | some z => disagrees z.mode (occ.testBit i) (hocc.testBit i) | none => false
    let runs := (List.range 32).map fun i =>
      if dis.contains i then st.runs.getD i 0 + 1 else if judged.contains i then 0 else st.runs.getD i 0
    let imp := dis.filter fun i =>
      match zs[i]? with | some z => decide (z.persist ≤ runs.getD i 0) | none => false
    let s := modPStream f.stream (fun x => { x with runs := runs }) s
    let s := sendPlt f
      (pltRec s f (if imp.isEmpty then 0 else 1) judged.length occ (maskOf (judged.filter fun i => hocc.testBit i))
        (maskOf imp)) s
    if imp.isEmpty then pilotEvent f 0 0 0 0 [] s
    else
      let s := { s with plt := { s.plt with implaus := wrap 32 (s.plt.implaus + 1) } }
      pilotEvent f 1 1 (maskOf imp) (maskOf imp) [8 * f.stream + 4] s

def pilotFrameJudge (i : Nat) (s : State) : State :=
  match s.plt.frames.find? fun f => f.stream == i && f.finished && !f.judged with
  | none => s
  | some f =>
    match f.model with
    | none => s
    | some m =>
      if noLine s (pResStation f.word) then judgeFrame f m none s
      else if lineClearTo s (pResStation f.word) (lastMoment f) then judgeFrame f m f.host s
      else s

def execPilotFrameJudge (stream : Nat) (s : State) : Host.Outcome State Fault Refusal :=
  next (when s.core (pilotFrameJudge stream) s)

/-- A frame leaves its track. -/
def releasePilot (f : PFrame) (s : State) : State :=
  match f.track with
  | some t => s.modTrack t fun x =>
      if x.pilot == some f.id then { x with pilot := none, frameRetry := none } else x
  | none => s

/-- A run that has not finished 100 µs before its due time (R239). -/
def pilotOverrun (i : Nat) (s : State) : State :=
  match s.plt.frames.find? fun f =>
      f.stream == i && f.track.isSome && !f.finished && !f.judged && decide (lastMoment f ≤ s.now) with
  | none => s
  | some f =>
    let s := releasePilot f s
    let s := { s with plt := { s.plt with overrun := sat 16 (s.plt.overrun + 1) } }
    let s := s.raise 9 4 f.stream (f.frame * 2 ^ 32)
    skipFrame f skipOther s

def execPilotOverrun (stream : Nat) (s : State) : Host.Outcome State Fault Refusal :=
  next (when s.core (pilotOverrun stream) s)

/-! ## Loss of a track (R231) -/

/-- The frames of a withdrawn track: those in progress are skipped, the others are decided again in their
order. Beats already delivered to the track are lost. -/
def readmitFrames (t : Nat) (s : State) : State :=
  let mine := s.plt.frames.filter fun f => f.track == some t && !f.judged && !f.finished
  let s := forEach (mine.filter (·.running)) (fun f s => skipFrame f skipOther s) s
  let left := inService s
  forEach (mine.filter fun f => !f.running) (fun f s =>
    let s := modFrame f.id (fun x =>
      { x with track := none, start := 0, finish := 0, gone := x.gone || !x.beats.isEmpty, beats := [], ready := false }) s
    match frameById s f.id with
    | some f => admitFrame left f s
    | none => s) s

end Sys2Proof.Machine
end

