-- ==== Sys2Proof/Machine/Tracks.lean ====
section
/-! DEFINITION. The tracks at work: step tokens, passes and their checks, chunk decryption, the known-answer
tile, and what the block does when a track is lost (chapters "Tracks and array arithmetic", "The handshake
core" and "Checking in operation and verdicts"). -/

namespace Sys2Proof.Machine

/-! ## Withdrawal (R186, R217) -/

/-- Causes of Table 09-7. -/
def wdResidue : Nat := 1
def wdKat : Nat := 2
def wdWatchdog : Nat := 3
def wdStore : Nat := 4
def wdParity : Nat := 5
def wdInjected : Nat := 6
def wdSelftest : Nat := 7

/-- A sample set of an item without an observation point commits INCOMPLETE; its record waits for the due
time, and no track produced it. -/
def loseSample (reason : Nat) (it : WorkItem) (x : Sample) (s : State) : State :=
  let l := it.layer
  let s := noteCommit vIncomplete reason it.epoch it.plan it.slot it.stream l.station l.layer it.owner false s
  let r := vrdRec s vIncomplete it.epoch it.plan l.station l.layer x.num it.owner 0 0 none noResult
  modItem it.id (fun i =>
    { i with samples := i.samples.map fun y =>
        if y.num == x.num then { y with done := true, lost := reason, held := some r } else y }) s

/-- A needed beat of the sample set was delivered to the track. -/
def touched (it : WorkItem) (x : Sample) : Bool :=
  if it.layer.kind = 5 then !it.beats.isEmpty || !it.taps.isEmpty
  else (it.layer.inputNeed x.pos ++ it.layer.outputNeed x.pos).any fun n => (beatOf it n.1 n.2).isSome

/-- An item that still gathers: sample sets with delivered beats are lost, and the item goes on at its new
track, if there is one. -/
def moveGathering (tracks : List Nat) (it : WorkItem) (s : State) : State :=
  let s := forEach (it.samples.filter fun x => !x.done && (tracks.isEmpty || touched it x)) (loseSample lostTrack it) s
  let dest := routeOf tracks it.layer.station
  let gone := it.beats.map (fun b => (b.role, b.offset, lostTrack)) ++ it.taps.map fun t => (3, t.index, lostTrack)
  modItem it.id (fun i =>
    { i with track := dest.getD i.track, beats := [], taps := [], gone := i.gone ++ gone }) s

/-- An item with a due time: its uncommitted sample sets commit INCOMPLETE, and the track discards it. -/
def abandonItem (reason : Nat) (it : WorkItem) (s : State) : State :=
  let s := forEach (it.samples.filter fun x => !x.done) (fun x s =>
    commitSample it x vIncomplete reason (resultNow s it x) s) s
  dropItem it s

/-- The space that the beats of the lost track's stations had goes to the tracks that now gather them (R217). -/
def moveReserve (t : Nat) (tracks : List Nat) (s : State) : State :=
  let f := fun p : EpochPlan =>
    { p with extra := (List.range 4).map fun k =>
        if tracks.contains k then p.extra.getD k 0 + p.reserve.getD t 0 + p.extra.getD t 0 else p.extra.getD k 0 }
  { s with wtp := { s.wtp with cur := s.wtp.cur.map f } }

/-- Table 11-5, steps 2 and 3. -/
def loseTrackItems (t : Nat) (s : State) : State :=
  let tracks := inService s
  let s := moveReserve t tracks s
  let s := forEach (s.wtp.items.filter fun i => i.track == t) (fun i s =>
    if i.phase = 0 then moveGathering tracks i s else abandonItem lostTrack i s) s
  { s with jct := { s.jct with
    route := (List.range s.jct.route.length).map fun n => (routeOf tracks n).getD (s.jct.route.getD n 0) } }

/-- A track leaves service: its key slots are zeroised, its work is lost, its stations are remapped, and its
Pilot frames are decided again (R186, R187, R217, R231). -/
def removeTrack (t cause : Nat) (s : State) : State :=
  let s := s.modTrack t fun x =>
    { x with
      state := 2, cause := cause, wdEpoch := s.epochAt s.now, slotValid := 0, retrying := none, frameRetry := none,
      katDue := false, left := 0 }
  let s := readmitFrames t (loseTrackItems t s)
  settleCoverage (s.modTrack t fun x => { x with running := none, pilot := none })

/-- A track is withdrawn, with the fault that names it (R186). -/
def withdrawTrack (t cause : Nat) (s : State) : State :=
  (s.raise 7 6 t cause).containing 7 t (removeTrack t cause)

/-! ## Step tokens (R65) -/

/-- Passes of an item whose chunks have come. -/
def itemWork (s : State) (t : Nat) : Bool :=
  match (s.track t).running.bind (itemById s) with
  | some it => it.phase == 3 && decide (it.passes < passTotal it (computables it).length)
  | none => false

/-- Steps of a Pilot frame whose chunks have come. -/
def frameWork (s : State) (t : Nat) : Bool :=
  match (s.track t).pilot.bind (frameById s) with
  | some f => f.running && f.fetch.isEmpty
  | none => false

/-- Step work waits on a track, for tokens or for its array: the known-answer tile, passes of an item, or steps of a
Pilot frame, held by check work among them (R67). -/
def stepWork (s : State) (t : Nat) : Bool := (s.track t).katDue || itemWork s t || frameWork s t

/-- A work item, or a Pilot frame that no check work holds, could take its next step (Table 09-7). -/
def stepReady (s : State) (t : Nat) : Bool := itemWork s t || (frameWork s t && !checkReady s t)

/-- Every 1 µs each bucket takes cap_rate × 1 µs tokens, up to twice that; the busy share counts the intervals
at whose end step work waits (R65, R67). -/
def refillTrack (s : State) (t : Nat) (x : Track) : Track :=
  { x with
    tokens := min (20 * capRate s) (x.tokens + 10 * capRate s), refills := x.refills + 1,
    busy := if stepWork s t then x.busy + 1 else x.busy }

def governorRefill (s : State) : State :=
  if s.sbx.refillAt / 1000 < s.now / 1000 || decide (s.now < s.sbx.refillAt) then
    let trk := (List.range s.trk.length).map fun t =>
      if (s.track t).state = 1 then refillTrack s t (s.track t) else s.track t
    { s with trk := trk, sbx := { s.sbx with refillAt := s.now } }
  else s

def execGovernorRefill (s : State) : Host.Outcome State Fault Refusal := next (when s.core governorRefill s)

/-! ## Work items (R210) -/

/-- The next ready item of a track. -/
def nextItem (s : State) (t : Nat) : Option WorkItem :=
  firstItem (s.wtp.items.filter fun i => i.track == t && i.phase == 1)

/-- Chunks fetched ahead for other layers make room in weight-stage SRAM. -/
def makeRoom (t : Nat) (it : WorkItem) (s : State) : State :=
  let f := fun i : WorkItem =>
    if i.track == t && i.phase == 1 && i.asked && !(i.slot == it.slot && i.layerIx == it.layerIx) then
      { i with asked := false, chunks := [], raw := [], fetch := [] }
    else i
  { s with wtp := { s.wtp with items := s.wtp.items.map f } }

/-- The sequencer starts an item; where its chunks could not be fetched ahead, it reads them now. DESIGN CHOICE
(log 130): chunks fetched ahead for later items then make room. -/
def startItem (t : Nat) (it : WorkItem) (s : State) : State :=
  let s := s.modTrack t fun x => { x with running := some it.id, progress := s.now, left := 0, retrying := none }
  if nothingToRun it then modItem it.id (fun i => { i with phase := 3 }) s
  else
    let s := if it.asked then s else askChunks it (makeRoom t it s)
    modItem it.id (fun i => { i with phase := if i.fetch.isEmpty then 3 else 2 }) s

def workItemStart (t : Nat) (s : State) : State :=
  if (s.track t).state != 1 || (s.track t).running.isSome then s
  else match nextItem s t with
    | some it => startItem t it s
    | none => s

def execWorkItemStart (t : Nat) (s : State) : Host.Outcome State Fault Refusal := next (when s.core (workItemStart t) s)

/-! ## Chunks -/

/-- A read chunk waits for its decryption: at the track's item or at its Pilot frame. A failed read leaves no
bytes, so that no tag can be right. -/
def gotChunk (item : Nat) (pilot : Bool) (index : Nat) (b : List Byte) (s : State) : State :=
  if pilot then modFrame item (fun f => { f with raw := f.raw ++ [(index, b)] }) s
  else modItem item (fun i => { i with raw := i.raw ++ [(index, b)] }) s

/-- The item or the frame that awaits a chunk is still there. -/
def stillWanted (s : State) (item : Nat) (pilot : Bool) (index : Nat) : Bool :=
  if pilot then match frameById s item with | some f => f.running && f.fetch.contains index | none => false
  else match itemById s item with | some i => i.fetch.contains index | none => false

/-- A chunk that is not read because its partition leaves: what needs it is withdrawn, without a fault (Table 15-7
step 6, R297). -/
def chunkBarred (item : Nat) (pilot : Bool) (s : State) : State :=
  if pilot then withSome (frameById s item) (fun f s => skipFrame f skipOther (releasePilot f s)) s
  else withSome (itemById s item) (fun it s => settleItem it.id (withdrawAll it s)) s

/-- A memory access for a chunk has ended: the header gives the length of the whole chunk. -/
def chunkRead (j : Job) (t item : Nat) (pilot : Bool) (index : Nat) (body : Bool) (s : State) : State :=
  if !stillWanted s item pilot index then s
  else if j.err = errBarred then chunkBarred item pilot s
  else if j.err != 0 then gotChunk item pilot index [] s
  else if body then gotChunk item pilot index j.data s
  else addJob clsFetch j.owner false j.addr (chunkTotal j.data) [] (.chunk t item pilot index true) s

/-- A chunk is discarded (R183). -/
def discardChunk (t bundle index : Nat) (s : State) : State :=
  (s.modTrack t fun x => { x with tagFail := sat 16 (x.tagFail + 1) }).raise 7 4 t (bundle * 2 ^ 32 + index)

/-- A layer loses a chunk: what has not committed of its items that need the chunk is withdrawn under R14, also in the
frame windows to come of the current epoch (R183). -/
def withdrawLayer (it : WorkItem) (index : Nat) (s : State) : State :=
  let s := { s with wtp := { s.wtp with badLayers := (s.ttb.epoch, it.slot, it.layerIx) :: s.wtp.badLayers } }
  s.containing 7 it.track fun s => forEach (s.wtp.items.filter fun i =>
      i.slot == it.slot && i.layerIx == it.layerIx && !i.chunks.any fun c => c.1 == index)
    (fun i s => settleItem i.id (withdrawAll i s)) s

/-- A weight-stage error, corrected or healed by another fetch (R183). -/
def wstCorrected (t : Nat) (s : State) : State :=
  (s.modTrack t fun x => { x with wstCorr := sat 16 (x.wstCorr + 1) }).raise 7 2 t

def wstUncorrectable (t key : Nat) (s : State) : State :=
  s.modTrack t fun x => { x with wstUncorr := sat 16 (x.wstUncorr + 1), reread := key :: x.reread }

/-- The verdict on one chunk: its plaintext, another fetch, or neither. -/
inductive ChunkEnd where
  | good (plain : List Byte)
  | again
  | bad
  deriving DecidableEq, Repr

/-- A chunk's tag is checked, and the word of weight-stage SRAM read. -/
def checkChunk (s : State) (t key : Nat) (ecc : Ecc) (b : List Byte) : ChunkEnd :=
  match ecc with
  | .uncorrectable => if (s.track t).reread.contains key then .bad else .again
  | _ => match openChunk s b with
    | some p => .good p
    | none => .bad

/-- The counts of a chunk's end on its track. -/
def noteChunk (t bundle index : Nat) (ecc : Ecc) (e : ChunkEnd) (s : State) : State :=
  let key := bundle * 2 ^ 32 + index
  let s := match ecc with
    | .ok => s
    | .corrected => wstCorrected t s
    | .uncorrectable => wstUncorrectable t key s
  let s := s.modTrack t fun x => { x with progress := s.now }
  match e with
  | .good _ => s
  | .again => wstCorrected t s
  | .bad => discardChunk t bundle index s

/-- A chunk of a work item. -/
def itemChunk (t : Nat) (ecc : Ecc) (it : WorkItem) (index : Nat) (b : List Byte) (s : State) : State :=
  let e := checkChunk s t (it.bundle * 2 ^ 32 + index) ecc b
  let s := noteChunk t it.bundle index ecc e s
  let s := modItem it.id (fun i => { i with raw := i.raw.drop 1 }) s
  match e with
  | .good p =>
    modItem it.id (fun i =>
      let left := i.fetch.filter fun k => k != index
      { i with
        chunks := i.chunks ++ [(index, p)], fetch := left,
        phase := if left.isEmpty && i.phase == 2 then 3 else i.phase }) s
  | .again => fetchChunk t it.id false it.owner it.bundle index s
  | .bad => withdrawLayer it index s

/-- A chunk of a Pilot frame (R231 for the frame in progress). -/
def frameChunk (t : Nat) (ecc : Ecc) (f : PFrame) (bundle index : Nat) (b : List Byte) (s : State) : State :=
  let e := checkChunk s t (bundle * 2 ^ 32 + index) ecc b
  let s := noteChunk t bundle index ecc e s
  let s := modFrame f.id (fun x => { x with raw := x.raw.drop 1 }) s
  match e with
  | .good p =>
    modFrame f.id (fun x =>
      { x with chunks := x.chunks ++ [(index, p)], fetch := x.fetch.filter fun k => k != index }) s
  | .again => fetchChunk t f.id true f.loader bundle index s
  | .bad => skipFrame f skipOther (releasePilot f s)

/-- The next chunk of the track's Pilot frame. -/
def nextFrameChunk (t : Nat) (ecc : Ecc) (s : State) : State :=
  match (s.track t).pilot.bind (frameById s) with
  | some f =>
    match f.raw, f.model with
    | (index, b) :: _, some m => frameChunk t ecc f m.bundle index b s
    | _, _ => s
  | none => s

/-- The item whose chunk is decrypted next: the running one, else the first ready one with a chunk read. -/
def decryptItem (s : State) (t : Nat) : Option WorkItem :=
  let wants := fun i : WorkItem => i.track == t && !i.raw.isEmpty
  match (s.track t).running.bind (itemById s) with
  | some it => if wants it then some it else firstItem (s.wtp.items.filter fun i => wants i && i.phase == 1)
  | none => firstItem (s.wtp.items.filter fun i => wants i && i.phase == 1)

/-- The next chunk of a track: an item's first, then the Pilot frame's. -/
def chunkDecrypt (t : Nat) (ecc : Ecc) (s : State) : State :=
  match decryptItem s t with
  | some it =>
    match it.raw with
    | (index, b) :: _ => itemChunk t ecc it index b s
    | [] => s
  | none => nextFrameChunk t ecc s

def execChunkDecryptComplete (t : Nat) (ecc : Ecc) (s : State) : Host.Outcome State Fault Refusal :=
  next (when (s.core && (s.track t).state == 1) (chunkDecrypt t ecc) s)

/-! ## Passes (R170, R184) -/

/-- Array steps of one pass of a layer; an element-wise add takes none (R170, R180, R202). -/
def passSteps (l : Layer) : Nat :=
  if l.kind = 4 then 0
  else if l.kind = 5 then l.tapTiles * 4
  else sMode l.opTypes

/-- Steps ahead of the pass that comes next: the pipeline fill, and the tile loads that no pass hides. -/
def loadCost (it : WorkItem) (n : Nat) : Nat :=
  let l := it.layer
  if l.kind = 4 then 0
  else if l.kind = 5 then
    if it.passes = 0 then 256 + loadSteps l.tapTiles (n * 4) + (if it.nf = 0 then l.onceSteps else 0) else 0
  else if it.passes = 0 then 256 + 128
  else if it.passes % n = 0 then 128 - min 128 (n * sMode l.opTypes)
  else 0

/-- A check that makes the pass run again. -/
def checkFails (c : PassCheck) : Bool := c == .residue || c == .parity || c == .store

/-- What the read of the pass's operands showed of activation SRAM. -/
def checkAct (c : PassCheck) : Ecc :=
  match c with
  | .actCorrected => .corrected
  | .actUncorrectable => .uncorrectable
  | _ => .ok

/-- A failed check runs the pass again, which `again` notes; after a failed retry the track is withdrawn (R184,
Table 09-7). -/
def passFailed (t : Nat) (check : PassCheck) (before : Option PassCheck) (again : Track → Track) (s : State) : State :=
  if check = .store then withdrawTrack t wdStore s
  else if before.isSome then withdrawTrack t (if check = .parity then wdParity else wdResidue) s
  else s.modTrack t again

/-- A retry that agrees with its residue stands, and its event counts (R184). -/
def passAgreed (t : Nat) (before : Option PassCheck) (s : State) : State :=
  if before = some .residue then (s.modTrack t fun x => { x with retry := sat 32 (x.retry + 1) }).raise 7 1 t else s

/-- The tokens of a pass: what the bucket holds is used, and the pass ends when the rest is 0. The answer
tells whether it has ended. -/
def spend (t cost : Nat) (s : State) : State × Bool :=
  let x := s.track t
  let left := if x.left = 0 then cost else x.left
  let run := min left x.tokens
  (s.modTrack t (fun x => { x with tokens := x.tokens - run, left := left - run, progress := s.now }),
    decide (left ≤ run))

/-- The sample set that the item's next pass works on. -/
def passSample (it : WorkItem) (n : Nat) : Option Sample :=
  if it.layer.kind = 5 then it.samples.head? else (computables it)[it.passes % n]?

/-- A pass ends with its result: an uncorrectable activation word withdraws the sample set that depends on it
(R14). -/
def passDone (t : Nat) (check : PassCheck) (it : WorkItem) (n : Nat) (s : State) : State :=
  let s := passAgreed t (s.track t).retrying s
  let s := actEcc t (checkAct check) (s.modTrack t fun x => { x with retrying := none })
  let s := modItem it.id (fun i => { i with passes := i.passes + 1 }) s
  match passSample it n with
  | some x =>
    if check = .actUncorrectable && !x.done then
      let r := resultNow s it x
      settleItem it.id ((noteClips t r.clipLow r.clipHigh s).containing 7 t (withdrawSample it x))
    else s
  | none => s

/-- A pass of the track's item ends. -/
def itemPass (t : Nat) (check : PassCheck) (it : WorkItem) (s : State) : State :=
  let n := if it.layer.kind = 5 then (runReady it).length else (computables it).length
  if it.phase != 3 || decide (passTotal it n ≤ it.passes) then s
  else
    let (s, done) := spend t (passSteps it.layer + (if (s.track t).retrying.isSome then 0 else loadCost it n)) s
    if !done then s
    else if checkFails check then
      passFailed t check (s.track t).retrying (fun x => { x with retrying := some check }) s
    else passDone t check it n s

/-- Steps of the track's Pilot frame end well. -/
def frameSteps (t run : Nat) (f : PFrame) (s : State) : State :=
  let s := passAgreed t (s.track t).frameRetry s
  let s := s.modTrack t fun x => { x with tokens := x.tokens - run, frameRetry := none, progress := s.now }
  let s := modFrame f.id (fun x => { x with steps := x.steps - run }) s
  if run = f.steps then
    let s := noteFrameClips t f s
    releasePilot f (modFrame f.id (fun x => { x with running := false, finished := true, steps := 0 }) s)
  else s

/-- A pass of the Pilot frame failed: it has used its step, and runs again (R65, R184; an INT8 pass is one step, Table
09-2). -/
def frameFailed (t : Nat) (check : PassCheck) (s : State) : State :=
  let s' := s.modTrack t fun x => { x with tokens := x.tokens - 1, progress := s.now }
  passFailed t check (s.track t).frameRetry (fun x => { x with frameRetry := some check }) s'

/-- Steps of the track's Pilot frame (R230): they run only while no check work is ready. An uncorrectable activation
word withdraws the frame (R14): DESIGN CHOICE (log 131), its PLT record says skipped, with cause other. -/
def framePass (t : Nat) (check : PassCheck) (f : PFrame) (s : State) : State :=
  if !f.running || !f.fetch.isEmpty || checkReady s t || decide (lastMoment f ≤ s.now) then s
  else if (s.track t).tokens = 0 && f.steps != 0 then s
  else if checkFails check then frameFailed t check s
  else
    let s := actEcc t (checkAct check) s
    if check = .actUncorrectable then skipFrame f skipOther (releasePilot f s)
    else frameSteps t (min f.steps (s.track t).tokens) f s

def trackPass (t : Nat) (check : PassCheck) (s : State) : State :=
  let x := s.track t
  if x.state != 1 || x.katDue then s
  else match x.running.bind (itemById s) with
    | some it => itemPass t check it s
    | none => withSome (x.pilot.bind (frameById s)) (framePass t check) s

def execTrackPassEnd (t : Nat) (check : PassCheck) (s : State) : Host.Outcome State Fault Refusal :=
  next (when s.core (trackPass t check) s)

/-! ## Known-answer tile and watchdog -/

/-- The known-answer tile of an epoch takes the tokens that are there, and ends once its 512 steps have run (R65,
R185). -/
def knownAnswer (t : Nat) (ok : Bool) (s : State) : State :=
  let x := s.track t
  let run := min x.katLeft x.tokens
  if x.state != 1 || !x.katDue then s
  else if run < x.katLeft then
    s.modTrack t fun x => { x with katLeft := x.katLeft - run, tokens := x.tokens - run, progress := s.now }
  else
    let s := s.modTrack t fun x =>
      { x with katDue := false, katLeft := 0, tokens := x.tokens - run, progress := s.now }
    if ok then s.modTrack t fun x => { x with katEpoch := s.ttb.epoch }
    else withdrawTrack t wdKat s

def execKnownAnswerTileEnd (t : Nat) (ok : Bool) (s : State) : Host.Outcome State Fault Refusal :=
  next (when s.core (knownAnswer t ok) s)

/-- A track with step work and tokens that has made no progress for 100 µs (Table 09-7). -/
def sequencerWatchdog (t : Nat) (s : State) : State :=
  let x := s.track t
  if x.state == 1 && stepReady s t && decide (0 < x.tokens) && decide (x.progress + 100000 ≤ s.now) then
    withdrawTrack t wdWatchdog s
  else s

def execSequencerWatchdog (t : Nat) (s : State) : Host.Outcome State Fault Refusal :=
  next (when s.core (sequencerWatchdog t) s)

end Sys2Proof.Machine
end

