-- ==== Sys2Proof/Machine/PlanCmds.lean ====
section
/-! DEFINITION. The checking and Pilot commands: loading of plans, models and zone tables, arming (chapters
"Check plans and coverage" and "Pilot sentinel inference"). -/

namespace Sys2Proof.Machine

/-- FAULTED reasons of Tables 10-7 and 12-6. -/
def faultFormat : Nat := 1
def faultCrc : Nat := 2
def faultRead : Nat := 3
def faultWindow : Nat := 4
def faultFamily : Nat := 5

/-- The reason for a failed access. -/
def accessReason (err : Nat) : Nat := if err = errWindow then faultWindow else faultRead

/-- The answer of a load that failed: the reason, and the slot. -/
def loadFailed (t : Ticket) (reason slot : Nat) (s : State) : State :=
  s.finish t statusFaulted (reason * 2 ^ 24 + slot) 0

/-- The answer of a load whose access failed. One that a detach barred was not issued: its command ends ABORTED,
as the sender's partition leaves (Table 14-1, Table 15-7 steps 5 and 6). -/
def accessFailed (t : Ticket) (err slot : Nat) (s : State) : State :=
  if err = errBarred then s.finish t statusAborted 0 0 else loadFailed t (accessReason err) slot s

/-- A long command that was held already counts as owed (R264). -/
def beginLong (t : Ticket) (s : State) : State := if t.later then s else s.startLong t

/-- The address in word 1. -/
def pkAddr (pk : List Word) : Nat := fld (pw pk 1) 0 48

/-! ## Check plans -/

def planSlot (s : State) (k : Nat) : PlanSlot := s.wtp.slots.getD k PlanSlot.reset

/-- The sender of the load that slot `k` waits for (R204). -/
def planLoader (s : State) (k : Nat) : Option Nat :=
  match s.mem.jobs.findSome? fun j => match j.purpose with
      | .plan t i _ => if i = k then some t.w else none
      | _ => none with
  | some w => some w
  | none => (s.dsp.heldQ.find? fun h => h.unit == unitPlan k).map fun h => h.ticket.w

/-- Partition software names slots that are empty or that it loaded; Root any (R204). -/
def mayNamePlan (s : State) (w k : Nat) : Bool :=
  w == 16 || match planLoader s k with
    | some o => o == w
    | none => (planSlot s k).plan.isNone || (planSlot s k).owner == w

/-- Frames still follow the slot's plan: the epoch in force samples it, or a frame window of such an epoch has
still to open (R195, R204). -/
def planSampled (s : State) (k : Nat) : Bool :=
  s.wtp.cur.any (planIn k) || s.wtp.windows.any fun w => w.slot == k && !w.opened
    && (epochPlan s (s.epochAt w.openAt)).any (planIn k)

/-- A slot with work left: armed, loading, or with sample sets that have no verdict, those of frames to come among
them (R203, R204). -/
def planBusy (s : State) (k : Nat) : Bool :=
  (planSlot s k).state == 2 || (planSlot s k).loading || planSampled s k || s.wtp.items.any fun i => i.slot == k

/-- A slot that holds nothing and waits for nothing. -/
def planFree (s : State) (k : Nat) : Bool :=
  (planSlot s k).plan.isNone && !(planSlot s k).loading && (planLoader s k).isNone

/-- What the checker keeps of a plan that leaves its slot: frame windows and records to come. -/
def forgetPlan (k : Nat) (s : State) : State :=
  let f := fun e : EpochPlan => { e with skips := e.skips.filter fun x => x.1 != k }
  { s with wtp := { s.wtp with
    windows := s.wtp.windows.filter fun w => w.slot != k,
    cur := s.wtp.cur.map f, old := s.wtp.old.map f } }

/-- A slot is emptied. -/
def freePlan (k : Nat) (s : State) : State :=
  forgetPlan k (modPlanSlot k (fun x => { x with state := 0, owner := 0, plan := none }) s)

/-- PLAN_LOAD on an idle slot: it is freed, or its image is read, the header first. -/
def planLoadNow (k : Nat) (pk : List Word) (t : Ticket) (s : State) : State :=
  if paramBit pk 26 then (freePlan k s).answer t statusDone k 0
  else
    let s := modPlanSlot k (fun x => { x with loading := true }) s
    addJob clsOther t.w false (pkAddr pk) 64 [] (.plan t k false) (beginLong t s)

/-- PLAN_LOAD (R203, R204): one that acts at once supersedes a held one (R267). -/
def planLoad (pk : List Word) (t : Ticket) (s : State) : State :=
  let slot := if paramBit pk 27 then (List.range 16).find? (planFree s) else some (param pk 0 4)
  match slot with
  | none => s.complete t statusNoResource 0 0
  | some k =>
    if !mayNamePlan s t.w k then s.complete t statusNotPermitted 0 0
    else if planBusy s k then defer (unitPlan k) pk t s
    else planLoadNow k pk t (dropHeld (unitPlan k) s)

def execPlanLoad (w : Nat) (s : State) : Host.Outcome State Fault Refusal :=
  next (issue 0x50 w planLoad s)

/-- The plan store has room for a plan in slot `k` (R203). -/
def planFits (s : State) (k len : Nat) : Bool :=
  let here := match (planSlot s k).plan with | some p => p.totalLen | none => 0
  decide (planStoreUsed s - here + len ≤ 2 ^ 20)

/-- The sender of a load has been detached since: the load fills no slot (R204, R293). -/
def senderGone (t : Ticket) (s : State) : Bool := t.w != 16 && (s.part t.w).state != 1

/-- The image has been read: it is checked, stored and digested. -/
def planRead (t : Ticket) (k : Nat) (b : List Byte) (s : State) : State :=
  if senderGone t s then s.finish t statusAborted 0 0
  else match parsePlan b with
  | (_, some p) =>
    if planFits s k p.totalLen then
      let s := forgetPlan k s
      let s := modPlanSlot k (fun x => { x with state := 1, owner := t.w, plan := some p }) s
      s.finish t statusDone (p.planId * 256 + k) (BitVec.ofNat 64 p.totalLen)
    else s.finish t statusNoResource 0 0
  | (r, none) => loadFailed t r k s

/-- A read of a plan image has ended. -/
def planJobEnd (j : Job) (t : Ticket) (k : Nat) (body : Bool) (s : State) : State :=
  let free := modPlanSlot k fun x => { x with loading := false }
  if j.err != 0 then accessFailed t j.err k (free s)
  else if body then planRead t k j.data (free s)
  else if !planHeaderOk j.data then loadFailed t faultFormat k (free s)
  else if !planFits s k (planTotal j.data) then (free s).finish t statusNoResource 0 0
  else addJob clsOther j.owner false j.addr (planTotal j.data) [] (.plan t k true) s

/-- The slot's plan, where no load is under way (R204). -/
def settledPlan (s : State) (k : Nat) : Option Plan := if (planSlot s k).loading then none else (planSlot s k).plan

/-- Combinations of station, window and ctx that a plan names. -/
def planNames (p : Plan) : List (Nat × Nat × Nat) :=
  (p.layers.flatMap fun l => (usedDescs l).map fun d => (l.station, d.2.window, l.ctx)).eraseDups

/-- Slots armed in force or in the pending generation, where the later of an arm and a disarm counts. -/
def armedSoon (s : State) (k : Nat) : Bool :=
  armed s k ||
    (s.dsp.frozen ++ s.dsp.pending).foldl (fun a e => if e == .planArm k then true else a && e != .planDisarm k) false

/-- Another plan that is armed names one of the plan's combinations. -/
def planClash (s : State) (k : Nat) (p : Plan) : Bool :=
  let mine := planNames p
  (List.range 16).any fun i => i != k && armedSoon s i
    && match slotPlan s i with
      | some q => (planNames q).any fun n => mine.contains n
      | none => false

def planArm (pk : List Word) (t : Ticket) (s : State) : State :=
  let k := param pk 0 4
  match settledPlan s k with
  | none => s.complete t statusNoResource 0 0
  | some p =>
    if !mayNamePlan s t.w k then s.complete t statusNotPermitted 0 0
    else if !holdsKey s p.bundle || planClash s k p then s.complete t statusNoResource 0 0
    else (s.pendE (.planArm k)).complete t statusDone (p.planId * 256 + k) (beWord p.digest 0)

def execPlanArm (w : Nat) (s : State) : Host.Outcome State Fault Refusal :=
  next (issue 0x51 w planArm s)

def planDisarm (pk : List Word) (t : Ticket) (s : State) : State :=
  let k := param pk 0 4
  if (settledPlan s k).isNone then s.complete t statusNoResource 0 0
  else if !mayNamePlan s t.w k then s.complete t statusNotPermitted 0 0
  else (s.pendE (.planDisarm k)).complete t statusDone k 0

def execPlanDisarm (w : Nat) (s : State) : Host.Outcome State Fault Refusal :=
  next (issue 0x52 w planDisarm s)

/-- WTP_COVER from the fields of COVER_SET (Tables 10-7 and 10-9). -/
def coverWord (laneEn target low share : Nat) : Word :=
  let t := clamp 1 1024 target
  pack [(63, 1, laneEn), (32, 11, t), (16, 11, clamp 1 t low), (0, 8, clamp 10 100 share)]

def coverSet (pk : List Word) (t : Ticket) (s : State) : State :=
  let w := coverWord (param pk 31 1) (param pk 16 11) (param pk 0 11) (fld (pw pk 1) 0 8)
  (s.pendE (.cover w)).complete t statusDone (coverTarget w * 2 ^ 16 + coverFloor w) (BitVec.ofNat 64 (coverShare w))

def execCoverSet (w : Nat) (s : State) : Host.Outcome State Fault Refusal :=
  next (issue 0x53 w coverSet s)

/-! ## Pilot models -/

def modModel (k : Nat) (f : PSlot → PSlot) (s : State) : State :=
  { s with plt := { s.plt with models := s.plt.models.modify k f } }

def modelSlot (s : State) (k : Nat) : PSlot := s.plt.models.getD k PSlot.reset

/-- Partition software names model slots that are empty or its own (R241). -/
def mayNameModel (s : State) (w k : Nat) : Bool :=
  w == 16 || (modelSlot s k).model.isNone || (modelSlot s k).owner == w

def modelBusy (s : State) (k : Nat) : Bool := modelInUse s k || (modelSlot s k).loading

/-- What a model slot holds changes: zone tables follow (R373). -/
def setModel (k owner : Nat) (m : Option PModel) (s : State) : State :=
  clampTables (modModel k (fun x => { x with owner := owner, model := m }) s)

def freeModel (k : Nat) (s : State) : State := setModel k 0 none s

def pltResult (slot bundle : Nat) : Nat := packN [(16, 2, slot), (0, 16, bundle)]

/-- PLT_LOAD on an idle slot. -/
def pltLoadNow (k : Nat) (pk : List Word) (t : Ticket) (s : State) : State :=
  if paramBit pk 26 then (freeModel k s).answer t statusDone (pltResult k 0) 0
  else
    let s := modModel k (fun x => { x with loading := true }) s
    addJob clsOther t.w false (pkAddr pk) 32 [] (.model t k false) (beginLong t s)

/-- PLT_LOAD (R240, R241): one that acts at once supersedes a held one (R267). -/
def pltLoad (pk : List Word) (t : Ticket) (s : State) : State :=
  let k := param pk 0 2
  if !mayNameModel s t.w k then s.complete t statusNotPermitted 0 0
  else if modelBusy s k then defer (unitModel k) pk t s
  else pltLoadNow k pk t (dropHeld (unitModel k) s)

def execPltLoad (w : Nat) (s : State) : Host.Outcome State Fault Refusal :=
  next (issue 0x60 w pltLoad s)

/-- Chunk 0 has been read: its tag is checked, and the model checked and costed (R226, R227). -/
def modelRead (t : Ticket) (k : Nat) (b : List Byte) (s : State) : State :=
  if senderGone t s then s.finish t statusAborted 0 0
  else match openChunk s b with
  | none => loadFailed t 2 (pltResult k 0) s
  | some p =>
    match parseModel (chunkBundle b) p with
    | (_, some m) =>
      (setModel k t.w (some m) s).finish t statusDone (pltResult k m.bundle) (BitVec.ofNat 64 m.steps)
    | (r, none) => loadFailed t r (pltResult k 0) s

/-- A read of chunk 0 has ended. -/
def modelJobEnd (j : Job) (t : Ticket) (k : Nat) (body : Bool) (s : State) : State :=
  let free := modModel k fun x => { x with loading := false }
  if j.err != 0 then accessFailed t j.err (pltResult k 0) (free s)
  else if body then modelRead t k j.data (free s)
  else if !holdsKey s (chunkBundle j.data) then (free s).finish t statusNoResource 0 0
  else addJob clsOther j.owner false j.addr (chunkTotal j.data) [] (.model t k true) s

/-! ## Pilot streams -/

/-- Partition software names streams that are disarmed or that it armed (R241). -/
def mayNameStream (s : State) (w i : Nat) : Bool :=
  let x := s.plt.streams.getD i PStream.reset
  w == 16 || !bit x.word 63 || x.owner == w

def pltZones (pk : List Word) (t : Ticket) (s : State) : State :=
  let i := param pk 0 4
  if !mayNameStream s t.w i then s.complete t statusNotPermitted 0 0
  else addJob clsOther t.w false (pkAddr pk) 16 [] (.zones t i) (s.startLong t)

def execPltZones (w : Nat) (s : State) : Host.Outcome State Fault Refusal :=
  next (issue 0x61 w pltZones s)

/-- A read of a zone table has ended: its head tells its length. -/
def zonesJobEnd (j : Job) (t : Ticket) (i : Nat) (s : State) : State :=
  if j.err != 0 then accessFailed t j.err 0 s
  else
    let n := leAt j.data 3 1
    if j.len = 16 && decide (1 ≤ n) && decide (n ≤ 32) then
      addJob clsOther j.owner false j.addr (zonesLen j.data) [] (.zones t i) s
    else match parseZones j.data with
      | (_, some z) =>
        if senderGone t s then s.finish t statusAborted 0 0
        else (s.pendE (.zones i z)).finish t statusDone z.zones.length 0
      | (r, none) => loadFailed t r 0 s

/-- A PLT_STREAM word after its clamps (Table 12-8); `arm` is the command's bit. -/
def clampStream (arm : Nat) (w : Word) : Word :=
  pack [(63, 1, arm), (38, 25, fld w 38 25), (36, 2, if fld w 36 2 = 3 then 0 else fld w 36 2), (12, 24, fld w 12 24),
    (0, 12, min 1000 (fld w 0 12))]

/-- PLT_ARM (R240, R241): it names a model slot of the sender that holds a model, whether it arms or disarms. -/
def pltArm (pk : List Word) (t : Ticket) (s : State) : State :=
  let i := param pk 0 4
  let w := clampStream (param pk 31 1) (pw pk 1)
  let k := pSlotOf w
  if !mayNameStream s t.w i || !mayNameModel s t.w k then s.complete t statusNotPermitted 0 0
  else if (modelSlot s k).model.isNone then s.complete t statusNoResource 0 0
  else
    let s := s.pendE (.pltStream i w t.w)
    let s := if t.w = 16 then s.pendE (.pltDue (clamp 2 100 (fld (pw pk 2) 0 8))) else s
    s.complete t statusDone i w

def execPltArm (w : Nat) (s : State) : Host.Outcome State Fault Refusal :=
  next (issue 0x62 w pltArm s)

end Sys2Proof.Machine
end

