-- ==== Sys2Proof/Machine/Weigh.lean ====
section
/-! DEFINITION. The Weighbridge: entries, measures, the close of an epoch's statistics, alarms, WBR_CONFIG
(chapter "Tensor statistics"). -/

namespace Sys2Proof.Machine

/-! ## Elements (R244) -/

def elemsPerBeat (t : Nat) : Nat := 512 / elemBits t
def elemValue (t raw : Nat) : Int := if t = 1 then (raw % 256 : Nat) else signed (elemBits t) raw

/-- Places within a beat of the elements that row_elems keeps; `col` is the beat's column (R97, R244). -/
def keptElems (sel : Word) (col : Nat) : List Nat :=
  let n := elemsPerBeat (selType sel)
  (List.range n).filter fun k => selRow sel == 0 || decide (col * n + k < selRow sel)

def beatElems (sel : Word) (col : Nat) (d : BitVec 512) : List Int :=
  let b := elemBits (selType sel)
  (keptElems sel col).map fun k => elemValue (selType sel) (d.toNat / 2 ^ (b * k) % 2 ^ b)

/-! ## Measures (R245) -/

def Meas.empty (entry epoch : Nat) : Meas :=
  { entry := entry, epoch := epoch, samples := 0, missing := 0, nLow := 0, nHigh := 0, nZero := 0, absMax := 0,
    hist := List.replicate 64 0 }

/-- The bin of a code. -/
def binOf (t : Nat) (v : Int) : Nat := (((v - typeMin t) * 64) / (typeSpan t : Nat)).toNat

def up32 (n : Nat) : Nat := sat 32 (n + 1)

/-- One element is weighed. -/
def weighElem (sel q : Word) (m : Meas) (v : Int) : Meas :=
  { m with
    samples := up32 m.samples,
    nLow := if v = qLo q then up32 m.nLow else m.nLow,
    nHigh := if v = qHi q then up32 m.nHigh else m.nHigh,
    nZero := if v = qZp q then up32 m.nZero else m.nZero,
    absMax := max m.absMax (v - qZp q).natAbs,
    hist := m.hist.modify (binOf (selType sel) v) up32 }

/-- The measures of an entry in an epoch change. -/
def modMeas (entry epoch : Nat) (f : Meas → Meas) (s : State) : State :=
  let same := fun m : Meas => m.entry == entry && m.epoch == epoch
  let ms := if s.wbr.meas.any same then s.wbr.meas.map fun m => if same m then f m else m
    else s.wbr.meas ++ [f (Meas.empty entry epoch)]
  { s with wbr := { s.wbr with meas := ms } }

/-- The entries that hold for epoch `e`: those of an ended epoch until its statistics close, else those in
force. -/
def entriesOf (s : State) (e : Nat) : List Word × List Word :=
  match s.wbr.toClose.find? fun c => c.epoch == e with
  | some c => (c.sel, c.q)
  | none => (s.wbr.sel, s.wbr.q)

/-- The entry that weighs a beat (R243). -/
def matchEntry (sel : List Word) (n w c : Nat) : Option Nat :=
  (List.range 64).find? fun i =>
    let x := sel.getD i 0
    bit x 63 && selPlace x == placeOf n w c

/-- The statistics of epoch `e` have closed. -/
def statsClosed (s : State) (e : Nat) : Bool := e != s.ttb.epoch && !s.wbr.toClose.any fun c => c.epoch == e

/-- The body of an STS record with `elems` more missing (Table 06-10). -/
def moreMissing (elems : Nat) (body : List Word) : List Word :=
  body.modify 1 fun w => put w 32 32 (sat 32 (fld w 32 32 + elems))

/-- Elements of a beat that came after the close count as missing, in a record that the merge has not yet released,
and as late (R247). -/
def lateBeat (n entry epoch elems : Nat) (s : State) : State :=
  let owed := fun o : OwedSts => if o.entry == entry && o.epoch == epoch then
      { o with body := moreMissing elems o.body } else o
  let sent := fun r : Rec => if r.type == 7 && r.key == stsKey epoch entry then
      { r with body := moreMissing elems r.body } else r
  let s := { s with
    wbr := { s.wbr with lateElems := wrap 32 (s.wbr.lateElems + elems), owedSts := s.wbr.owedSts.map owed },
    jct := { s.jct with intIn := s.jct.intIn.modify 2 fun q => q.map sent } }
  s.raise 10 3 (n / 8) (epoch * 2 ^ 32)

/-- A to_wbr beat, or one reported by a gap marker, reaches its unit; `col` is its column at its edge (R97,
R243-R247). -/
def wbrBeat (n w ctx col stamp : Nat) (data : Option (BitVec 512)) (s : State) : State :=
  let e := s.epochAt stamp
  let (sels, qs) := entriesOf s e
  match matchEntry sels n w ctx with
  | none => s
  | some i =>
    let sel := sels.getD i 0
    let kept := (keptElems sel col).length
    if statsClosed s e then lateBeat n i e kept s
    else match data with
      | some d => modMeas i e (fun m => (beatElems sel col d).foldl (weighElem sel (qs.getD i 0)) m) s
      | none => modMeas i e (fun m => { m with missing := sat 32 (m.missing + kept) }) s

/-! ## Close (R247-R250) -/

def shareOf (samples n : Nat) : Nat := if samples = 0 then 0 else min 0xFFFF (n * 65536 / samples)

/-- The range of an entry. -/
def rangeOf (q : Word) : Int := max (qHi q - qZp q) (qZp q - qLo q)

def satAlarm (q : Word) (m : Meas) : Bool :=
  let low := if qLo q = qZp q then 0 else shareOf m.samples m.nLow
  decide (qMin q * 256 ≤ m.samples) && decide (qSatThr q * 64 ≤ shareOf m.samples m.nHigh + low)

def underAlarm (q : Word) (m : Meas) : Bool :=
  decide (qMin q * 256 ≤ m.samples) && decide ((m.absMax : Int) * 16 < rangeOf q)

/-- Words 2 up of an STS record but for the sampled range (Table 06-10). -/
def stsBody (e : Nat) (sel : Word) (m : Meas) : List Word :=
  let bin := fun b => min 0xFFFF (m.hist.getD b 0 / 2 ^ selScale sel)
  [pack [(32, 32, e), (0, 32, m.samples)],
    pack [(32, 32, m.missing), (16, 16, shareOf m.samples m.nLow), (0, 16, shareOf m.samples m.nHigh)],
    pack [(48, 16, shareOf m.samples m.nZero), (32, 16, min 0xFFFF m.absMax)], 0]
  ++ (List.range 16).map fun k => pack ((List.range 4).map fun j => (16 * j, 16, bin (4 * k + j)))

/-- An alarm's run, and its event once it has lasted persist epochs (R250). -/
def alarmEvent (kind e entry owner run : Nat) (sel : Word) (s : State) : State :=
  if run < selPersist sel then s
  else
    let s := { s with wbr :=
      if kind = 1 then { s.wbr with satEv := sat 16 (s.wbr.satEv + 1) }
      else { s.wbr with underEv := sat 16 (s.wbr.underEv + 1) } }
    s.post (outcomeOcc 10 kind entry
      (packN [(32, 32, e), (16, 5, selCtx sel), (8, 6, selStation sel)]) [0x8C + kind] owner)

/-- One bit of a mask. -/
def setBit (m : BitVec 64) (i : Nat) (on : Bool) : BitVec 64 :=
  if on then m ||| BitVec.ofNat 64 (2 ^ i) else m &&& ~~~ BitVec.ofNat 64 (2 ^ i)

/-- The alarms of an entry's last closed epoch, and how many epochs in a row each has now been 1 (Table 13-3,
R250). -/
def setAlarms (i : Nat) (a u : Bool) (runA runU : Nat) (s : State) : State :=
  { s with wbr := { s.wbr with
    runSat := s.wbr.runSat.set i runA, runUnder := s.wbr.runUnder.set i runU,
    sat := setBit s.wbr.sat i a, under := setBit s.wbr.under i u } }

/-- Whether an entry makes a record for the ended epoch (R248). -/
def entryReports (c : StatsEnd) (i : Nat) : Bool :=
  let sel := c.sel.getD i 0
  bit sel 63 && c.owners.getD (selCtx sel) 16 == selOwner sel

/-- The statistics of one entry close: alarms, events, and its record. An enabled entry that makes no record has
its alarms evaluated too (R249), and its runs end (R250). -/
def closeEntry (c : StatsEnd) (i : Nat) (s : State) : State :=
  let sel := c.sel.getD i 0
  let q := c.q.getD i 0
  let m := (s.wbr.meas.find? fun m => m.entry == i && m.epoch == c.epoch).getD (Meas.empty i c.epoch)
  let a := satAlarm q m
  let u := underAlarm q m
  if !bit sel 63 then setAlarms i false false 0 0 s
  else if !entryReports c i then setAlarms i a u 0 0 s
  else
    let runA := if a then s.wbr.runSat.getD i 0 + 1 else 0
    let runU := if u then s.wbr.runUnder.getD i 0 + 1 else 0
    let o : OwedSts := {
      epoch := c.epoch, entry := i, place := selPlace sel, station := selStation sel, due := c.closeAt + 1000000,
      ctx := selCtx sel,
      specific := packN [(29, 3, selWindow sel), (24, 5, selCtx sel), (15, 1, b2n a), (14, 1, b2n u)],
      body := stsBody c.epoch sel m }
    let s := setAlarms i a u runA runU s
    let s := { s with wbr := { s.wbr with owedSts := s.wbr.owedSts ++ [o] } }
    let s := if a then alarmEvent 1 c.epoch i (selOwner sel) runA sel s else s
    if u then alarmEvent 2 c.epoch i (selOwner sel) runU sel s else s

/-- At T(e+1) + 1 ms (R247). -/
def statisticsClose (s : State) : State :=
  match s.wbr.toClose with
  | [] => s
  | c :: rest =>
    if s.now < c.closeAt then s
    else
      let s := forEach (List.range 64) (closeEntry c) s
      sendSts { s with wbr := { s.wbr with
        toClose := rest, meas := s.wbr.meas.filter fun m => m.epoch != c.epoch } }

def execStatisticsClose (s : State) : Host.Outcome State Fault Refusal := next (when s.core statisticsClose s)

/-- At T(e+1): the statistics of the ending epoch have 1 ms left, and its records are owed from now on
(R113, R247, R248). -/
def weighBoundary (t e : Nat) (owners : List Nat) (s : State) : State :=
  let c : StatsEnd := { epoch := e, closeAt := t + 1000000, owners := owners, sel := s.wbr.sel, q := s.wbr.q }
  let s := { s with wbr := { s.wbr with toClose := s.wbr.toClose ++ [c] } }
  forEach ((List.range 64).filter (entryReports c)) (fun i s => s.owe 2 (stsKey e i) (t + 2000000)) s

/-! ## WBR_CONFIG (R251) -/

/-- The entry's word as the pending generation leaves it. -/
def selSoon (s : State) (i : Nat) : Word :=
  (s.dsp.frozen ++ s.dsp.pending).foldl (fun a e => match e with
    | .wbrSel k sel => if k = i then sel else a
    | _ => a) (s.wbr.sel.getD i 0)

def entryFree (s : State) (i : Nat) : Bool := !bit (s.wbr.sel.getD i 0) 63 && !bit (selSoon s i) 63

/-- A free entry, or one that the sender configured; Root any. -/
def mayNameEntry (s : State) (w i : Nat) : Bool :=
  let mine := fun x : Word => !bit x 63 || selOwner x == w
  w == 16 || (mine (s.wbr.sel.getD i 0) && mine (selSoon s i))

/-- Another enabled entry names the same station, window and ctx. -/
def entryClash (s : State) (i : Nat) (sel : Word) : Bool :=
  (List.range 64).any fun k => k != i && bit (selSoon s k) 63
    && selPlace (selSoon s k) == selPlace sel

/-- Both words of an entry are written, also by en 0, which frees it. -/
def wbrConfig (pk : List Word) (t : Ticket) (s : State) : State :=
  let en := paramBit pk 31
  let target := if paramBit pk 6 then (List.range 64).find? (entryFree s) else some (param pk 0 6)
  let sel := clampSel en t.w (pw pk 1)
  match target with
  | none => s.complete t statusNoResource 0 0
  | some i =>
    if !mayNameEntry s t.w i then s.complete t statusNotPermitted 0 0
    else if t.w != 16 && s.ctxOwner (selCtx sel) != t.w then s.complete t statusNotPermitted 0 0
    else if en && entryClash s i sel then s.complete t statusNoResource 0 0
    else ((s.pendE (.wbrSel i sel)).pendE (.wbrQ i (clampQ sel (pw pk 2)))).complete t statusDone i sel

def execWbrConfig (w : Nat) (s : State) : Host.Outcome State Fault Refusal :=
  next (issue 0x70 w wbrConfig s)

end Sys2Proof.Machine
end

