-- ==== Sys2Proof/Machine/Yard.lean ====
section
/-! DEFINITION. The Marshalling Yard: copies of released records for sidings and export payloads (chapters
"Junction merge and trace records" and "Memory port and export"). -/

namespace Sys2Proof.Machine

/-! ## Payloads (R124, R340) -/

/-- A stream's payload is closed and becomes one item; with no open session it is discarded. -/
def closePayload (i : Nat) (s : State) : State :=
  match (s.myd.streams.getD i Stream.reset).payload with
  | none => s
  | some p =>
    let s := { s with myd := { s.myd with
      streams := s.myd.streams.modify i fun x => { x with payload := none } } }
    let x := s.session (sessionOf i)
    if x.isOpen then
      s.pushItem x.siding
        { kind := .payload, src := i, seq := p.count, words := payloadWords x i p.firstTs p.bytes }
    else noteDiscarded 1 s

/-- A record joins the open payload of its stream, or opens one. -/
def joinPayload (i : Nat) (comp : Bool) (ts : Nat) (words : List Word) (s : State) : State :=
  let old := (s.myd.streams.getD i Stream.reset).payload
  let p : Payload := match old with
    | some p =>
      { p with
        bytes := p.bytes ++ payloadBytes comp p.lastTs words, lastTs := ts, count := p.count + 1 }
    | none =>
      { bytes := payloadBytes comp ts words, firstTs := ts, lastTs := ts, count := 1, openAt := s.now }
  { s with myd := { s.myd with streams := s.myd.streams.modify i fun x => { x with payload := some p } } }

/-- The record would take the open payload past EXP_MAX_PAYLOAD. -/
def overfills (s : State) (i : Nat) (comp : Bool) (words : List Word) : Bool :=
  match (s.myd.streams.getD i Stream.reset).payload with
  | some p => decide (s.params.expMaxPayload < p.bytes.length + (payloadBytes comp p.lastTs words).length)
  | none => false

/-- The copy for the export session of the stream's owner. A session that is being closed takes the records
released before its streams stopped (R291). -/
def exportCopy (d : Dest) (r : Rec) (words : List Word) (s : State) : State :=
  let x := s.session (sessionOf d.stream)
  if !d.exp || !x.isOpen then s
  else
    let s := if overfills s d.stream d.comp words then closePayload d.stream s else s
    let s := joinPayload d.stream d.comp r.ts words s
    if r.type = 5 || x.closing.isSome then closePayload d.stream s else s

def execPayloadClose (stream : Nat) (s : State) : Host.Outcome State Fault Refusal :=
  next (match (s.myd.streams.getD stream Stream.reset).payload with
    | some p => when (s.core && decide (p.openAt + 100000 ≤ s.now)) (closePayload stream) s
    | none => s)

/-! ## Delivery (R122, R123, R347) -/

/-- A record counted in W9 of the stream's next EPO record: a record of the deterministic set (Table 06-14). -/
def countedInStream (r : Rec) : Bool := !(r.type == 5 || r.type == 8 || r.type == 4)

/-- The words of the copy for a stream: an EPO record carries the stream's own count. -/
def copyWords (s : State) (d : Dest) (r : Rec) : List Word :=
  let n := (s.myd.streams.getD d.stream Stream.reset).count
  let r := if r.type = 5 then { r with body := r.body ++ [pack [(32, 32, n)]] } else r
  r.words (streamPartition d.stream) d.trailer

/-- The stream's count after the record. -/
def countRecord (d : Dest) (r : Rec) (s : State) : State :=
  let f := fun x : Stream =>
    if r.type = 5 then { x with count := 0 }
    else if countedInStream r then { x with count := wrap 32 (x.count + 1) } else x
  { s with myd := { s.myd with streams := s.myd.streams.modify d.stream f } }

/-- An item of a stream goes to its siding, which remembers the stream. -/
def feedSiding (stream k : Nat) (it : ProdItem) (s : State) : State :=
  (s.pushItem k it).modSiding k fun x => if x.state = 0 then x else { x with stream := stream }

/-- One copy: in full form for a siding, and for the export session in the form that it configures. `counted` is the
record as released, which the stream's count takes in also where a LOSS record stands in its place (Table 06-14). -/
def deliverCopy (counted r : Rec) (d : Dest) (s : State) : State :=
  let words := copyWords s d r
  let s := withSome d.siding (fun k s =>
    feedSiding d.stream k { kind := .record, src := r.src, seq := r.seq, words := words } s) s
  countRecord d counted (exportCopy d r words s)

/-- Every destination siding has taken what was delivered before (R347). -/
def destReady (s : State) (d : Dest) : Bool :=
  let free := fun k : Nat => (s.siding k).state != 1 || (s.siding k).prodq.isEmpty
  let x := s.session (sessionOf d.stream)
  (match d.siding with | some k => free k | none => true) && (!d.exp || !x.isOpen || free x.siding)

/-- What the check of the record's buffer shows (R160): a record that cannot be corrected is withdrawn, and a
LOSS record stands in its place. -/
def checkedRec (ecc : Ecc) (r : Rec) (s : State) : Rec × State :=
  let engine := (r.dests.head?.map (·.stream)).getD 16
  match ecc with
  | .ok => (r, s)
  | .corrected => (r, s.raise 5 1 engine)
  | .uncorrectable =>
    ({ lossRec r.station r.seq r.ts 1 with src := r.src, timing := r.timing, dests := r.dests },
      s.raise 5 2 engine r.seq)

def recordDeliver (ecc : Ecc) (s : State) : State :=
  match s.myd.inq with
  | [] => s
  | r :: rest =>
    if r.dests.all (destReady s) then
      let (r', s) := checkedRec ecc r { s with myd := { s.myd with inq := rest } }
      forEach r'.dests (deliverCopy r r') s
    else s

def execMydRecordDeliver (ecc : Ecc) (s : State) : Host.Outcome State Fault Refusal :=
  next (when s.core (recordDeliver ecc) s)

end Sys2Proof.Machine
end

