-- ==== Sys2Proof/Machine/Crossbar.lean ====
section
/-! DEFINITION. The operand crossbar, and the drain of memory sidings (chapters
"Junction merge and trace records" and "Queues"). -/

namespace Sys2Proof.Machine

/-! ## Operand beats (R117, R118) -/

/-- The consumers of an item accept it: with no track in service no route exists for to_checker and to_pilot
beats (R187), and a to_pilot beat waits until the scheduler has decided the frames that have begun (R228). -/
def accepted (s : State) (it : OpItem) : Bool :=
  let named := fun p : Bool => !p || s.plt.frames.all (·.decided)
  match it with
  | .snoop _ _ _ _ _ _ _ _ c _ p => (!(c || p) || !(inService s).isEmpty) && named p
  | .acc .. => !(inService s).isEmpty
  | .gap _ _ _ c _ p => (!(c || p) || !(inService s).isEmpty) && named p

/-- One beat, or one beat offset of a gap marker, at its consumers; `pitch` is the row_pitch of its window at its
edge. -/
def routeBeat (n win ctx off pitch stamp : Nat) (c w p : Bool) (data : Option (BitVec 512)) (s : State) : State :=
  let s := if c then checkerBeat n win ctx off stamp data s else s
  let s := if w then wbrBeat n win ctx (off % pitch) stamp data s else s
  if p then pilotBeat n win ctx off stamp data s else s

/-- An item at its consumers. Window 8 of a gap marker stands for accumulator beats. -/
def routeItem (n : Nat) (it : OpItem) (s : State) : State :=
  match it with
  | .snoop stamp ctx win _ off pitch _ d c w p => routeBeat n win ctx off pitch stamp c w p (some d) s
  | .acc stamp ctx index starts d => tapBeat n ctx index stamp starts (some d) s
  | .gap ctx win beats c w p =>
    forEach beats (fun b s =>
      if win = 8 then tapBeat n ctx b.offset b.stamp b.starts none s
      else routeBeat n win ctx b.offset b.pitch b.stamp c w p none s) s

/-- The gap marker that stands for a withdrawn beat (R105). -/
def withdrawnItem (it : OpItem) : OpItem := (addGap it []).headD it

/-- What the check of the capture buffer shows (R105). -/
def captureEcc (n : Nat) (ecc : Ecc) (s : State) : State :=
  let off := Config.captureWord s.free
  let ctxs := [(s.station n).curCtx]
  match ecc with
  | .ok => s
  | .corrected =>
    (s.draw.modStation n fun x => { x with eccCorr := sat 16 (x.eccCorr + 1) }).raise 1 1 n off ctxs
  | .uncorrectable =>
    (s.draw.modStation n fun x => { x with eccUncorr := sat 16 (x.eccUncorr + 1) }).raise 1 2 n off ctxs

/-- The head of a station's operand region leaves it once its consumers accept it. -/
def operandDeliver (n : Nat) (ecc : Ecc) (s : State) : State :=
  match (s.station n).op with
  | [] => s
  | it :: rest =>
    if accepted s it then
      let s := captureEcc n ecc (s.modStation n fun x => settleDrops { x with op := rest })
      routeItem n (if ecc = .uncorrectable then withdrawnItem it else it) s
    else s

def execOperandBeatDeliver (n : Nat) (ecc : Ecc) (s : State) : Host.Outcome State Fault Refusal :=
  next (when (s.core && handsOver s n) (operandDeliver n ecc) s)

/-! ## Drain of memory sidings (R162) -/

def ringWords (d : Siding) : Nat := 512 * 2 ^ d.memSize

/-- Free words of the ring. -/
def ringFree (d : Siding) : Nat := ringWords d - (d.memWr + 2 ^ 32 - d.memRd) % 2 ^ 32

/-- PAD records of at most 64 words each (chapter "Junction merge and trace records", "PAD"). -/
def padWords : Nat → Nat → List Word
  | 0, _ => []
  | n + 1, left =>
    if left = 0 then []
    else
      let k := min 64 left
      pack [(58, 6, 0x3F), (52, 6, k - 1)] :: List.replicate (k - 1) 0 ++ padWords n (left - k)

/-- A filler of exactly `n` words. -/
def fillerWords (n : Nat) : List Word := lengthWord false false .filler 0 0 (n - 1) :: padWords n (n - 1)

/-- Words on their way to the ring at mem_wr; `end_` is the pointer that the siding releases to. -/
def writeRing (sid : Nat) (ws : List Word) (end_ : Nat) (s : State) : State :=
  let d := s.siding sid
  let s := s.modSiding sid fun d => { d with inFlight := true, drainEnd := end_ }
  addJob clsDrain d.owner true (d.memBase + 8 * (d.memWr % ringWords d)) (8 * ws.length) (wordsBytes ws)
    (.drain sid) s

/-- The next item, or the filler that must come before it, goes to the ring if its free space holds it. -/
def drainItem (sid : Nat) (errs : WordErrs) (s : State) : State :=
  let d := s.siding sid
  let left := ringWords d - d.memWr % ringWords d
  let (ws, after, _, s') := takeItem sid errs s
  if left < ws.length then
    if left ≤ ringFree d then writeRing sid (fillerWords left) d.rel s else s
  else if ws.length ≤ ringFree d then
    let s := (s'.modSiding sid (noteRecord (ws.headD 0) (ws.drop 1))).modSdg sid fun d => { d with rd := after }
    writeRing sid ws after s
  else s

/-- No new access is made for a partition in detach (Table 15-7 step 6). -/
def execDrainItemWrite (sid : Nat) (corrected lost : List Nat) (s : State) : Host.Outcome State Fault Refusal :=
  let d := s.siding sid
  next (when (s.core && d.state == 1 && d.consumer == 1 && !d.inFlight && decide (0 < d.avail) && !barredPart s d.owner)
    (drainItem sid ⟨corrected, lost⟩) s)

/-- The siding is faulted: items on their way are discarded whole and counted. -/
def faultSiding (sid addr : Nat) (s : State) : State :=
  let s := s.modSdg sid fun d =>
    { d with
      state := 2, inFlight := false, wr := if d.itemOpen then d.itemStart else d.wr, itemOpen := false,
      faultDisc := sat 16 (d.faultDisc + d.prodq.length), prodq := [],
      stored := 0, abandoned := false }
  s.raise 6 3 sid addr

/-- The writes of an item or filler have ended: mem_wr advances and the siding releases. A refused or failed
write faults the siding (R162); writes that a detach barred do not (R297). -/
def drainJobEnd (j : Job) (sid : Nat) (s : State) : State :=
  if j.err = 0 then
    s.modSdg sid fun d =>
      let d := { d with memWr := wrap 32 (d.memWr + j.len / 8), inFlight := false }
      if d.dist d.rel d.drainEnd ≤ d.dist d.rel d.rd then autoRelease s d.drainEnd d else d
  else if j.err = errBarred then s.modSiding sid fun d => { d with inFlight := false }
  else faultSiding sid j.bad s

end Sys2Proof.Machine
end

