-- ==== Sys2Proof/Machine/Edges.lean ====
section
/-! DEFINITION. Frame sync, master edges and the announcement of boundaries (R81-R83, R214, R266). -/

namespace Sys2Proof.Machine

/-! ## Announcement -/

/-- The EPO record of the ending epoch; its words are filled at release (Table 06-14). -/
def epoRec (s : State) (t : Nat) : Rec :=
  { mkRec 5 (t - 1) 127 0 s.ttb.epoch [] with own := some s.ttb.epoch }

/-- A boundary is announced as soon as its edge is stamped (R83): the writes accepted so far are the ones
that apply at it (R266), the preparation of its epoch is fixed (R214), a step that waits is announced with it
(R75), and the EPO record of the ending epoch is handed over. -/
def announce (stamp : Nat) (kind : EdgeKind) (s : State) : State :=
  let t := stamp + 4000
  let kind := if s.ttb.armed then .restart else kind
  let s := if s.ttb.running then s.emit 5 s.ttb.epoch (epoRec s t) else s
  let b : Boundary := { t := t, edge := stamp, kind := kind, step := s.ttb.stepWait }
  prepareEpoch { s with
    ttb := { s.ttb with announced := some b, edgeCount := 0 },
    dsp := { s.dsp with frozen := s.dsp.frozen ++ s.dsp.pending, pending := [] } }

/-! ## Master edges -/

/-- The interval between two real master edges with nothing synthetic between them (R82). -/
def measure (kind : EdgeKind) (stamp : Nat) (t : Timetable) : Timetable :=
  match kind with
  | .real =>
    { t with
      interval := match t.lastReal with | some r => some (stamp - r) | none => t.interval,
      lastReal := some stamp, synthRun := 0 }
  | .synthetic =>
    { t with lastReal := none, synthRun := sat 8 (t.synthRun + 1), synth := sat 16 (t.synth + 1) }
  | _ => { t with lastReal := none, synthRun := 0 }

/-- The first master edge after epoch_en applies opens an epoch (Table 20-1 step 11), and then every
(fpe_m1 + 1)-th one places a boundary (R81). -/
def placesBoundary (t : Timetable) : Bool := t.armed || (t.running && decide (framesPerEpoch t ≤ t.edgeCount))

/-- A master edge that counts (R81, R82): it may place a boundary, and the last synthetic edge allowed raises the
fault. -/
def countEdge (kind : EdgeKind) (stamp : Nat) (s : State) : State :=
  let t := measure kind stamp s.ttb
  let t := { t with
    prevMaster := some stamp, lastAccepted := if kind == .internal then t.lastAccepted else some stamp,
    lastEdge := stamp, edgeCount := t.edgeCount + 1 }
  let s := { s with ttb := t }
  let s := if kind == .synthetic && t.synthRun == missLimit t then s.raise 2 3 0 (masterOf t) else s
  if placesBoundary t then announce stamp kind s else s

/-- A real master edge, unless it comes less than 1 ms after the previous accepted or synthetic one (R81). -/
def realMasterEdge (stamp : Nat) (s : State) : State :=
  let early := match s.ttb.lastAccepted with
    | some p => decide (stamp < p + 1000000)
    | none => false
  if early then { s with ttb := { s.ttb with early := sat 16 (s.ttb.early + 1) } }
  else countEdge .real stamp s

/-- The timeout of R82: the previous master edge plus the interval in use times timeout_pct / 100. DEDUCED: a time
that a forward step has passed over comes with the step, since no edge after it has an earlier stamp (R75). -/
def masterTimeout (t : Timetable) : Option Nat :=
  t.prevMaster.map fun p => max t.stepTo (p + t.interval.getD (nominalNs t) * timeoutPct t / 100)

/-- No master edge is made while an announced boundary waits. -/
def edgesRun (s : State) : Bool :=
  s.core && (s.ttb.running || s.ttb.armed) && s.ttb.announced.isNone

/-- A synthetic edge carries the time of the timeout (R82). -/
def execSyntheticMasterEdge (s : State) : Host.Outcome State Fault Refusal :=
  next (match masterTimeout s.ttb with
    | some t => when (edgesRun s && masterOf s.ttb != 16 && decide (t ≤ s.now)) (countEdge .synthetic t) s
    | none => s)

/-- The next internal edge: the first one at the moment epoch_en applies, the others every nominal_us
(R82, R364), none before a step that passed over it. -/
def internalDue (t : Timetable) : Option Nat :=
  t.prevMaster.map fun p => max t.stepTo (if t.armed then p else p + nominalNs t)

def execInternalMasterEdge (s : State) : Host.Outcome State Fault Refusal :=
  next (match internalDue s.ttb with
    | some t => when (edgesRun s && masterOf s.ttb == 16 && decide (t ≤ s.now)) (countEdge .internal t) s
    | none => s)

/-! ## Time goes on -/

/-- A TIME_CLK edge (R73). The Pilot decides the frames of a stamp before time goes beyond it, so that the frames of
one stamp are all known (R229). -/
def execTimeAdvance (timeNs : BitVec 64) (valid : Bool) (s : State) : Host.Outcome State Fault Refusal :=
  next (when s.timeRuns (fun s => timeAdvance timeNs.toNat valid (pilotSettle s)) s)

/-! ## Frame sync -/

/-- The stream's edges are frame starts: it is enabled, or the master (chapter "Frame sync and epochs"). -/
def framesCount (t : Timetable) (i : Nat) : Bool := (fsyncEn t i || masterOf t == i) && t.anyBoundary

/-- An FSYNC edge takes the stream's next frame number, counted from the first boundary on. -/
def numberFrame (i stamp : Nat) (t : Timetable) : Timetable :=
  if framesCount t i then
    { t with
      frameNext := t.frameNext.modify i fun n => wrap 32 (n + 1),
      frameStamp := t.frameStamp.set i (some stamp) }
  else t

/-- A frame start reaches the Tensor Checker and the Pilot (R195, R228). -/
def streamFrameStart (i stamp number : Nat) (s : State) : State :=
  pilotBegin i stamp number (frameWindowAt i stamp s)

/-- An FSYNC edge (R81): numbered, a frame start, and a master edge where the stream is the master. The edge that
ends an epoch is a frame start of the old one. -/
def fsyncEdge (i : Nat) (s : State) : State :=
  let number := s.ttb.frameNext.getD i 0
  let starts := s.core && s.ttb.running && framesCount s.ttb i
  let s := { s with ttb := numberFrame i s.now s.ttb }
  let s := if starts then streamFrameStart i s.now number s else s
  if s.core && masterOf s.ttb == i then realMasterEdge s.now s else s

def execFsyncEdge (stream : Nat) (s : State) : Host.Outcome State Fault Refusal :=
  next (when (s.timeRuns && decide (stream < 16) && !boundaryDue s) (fsyncEdge stream) s)

end Sys2Proof.Machine
end

