-- ==== Sys2Proof/Machine/Export.lean ====
section
/-! DEFINITION. Export sessions, the export engine and its lanes (chapters "Memory port and export" and
"Partitions and security"). -/

namespace Sys2Proof.Machine

/-! ## SESSION_OPEN (R271, R290) -/

/-- The stream mask that the sender may set (R271). -/
def sessionMask (w : Nat) (pk : List Word) : Nat :=
  let m := fld (pw pk 1) 0 33
  if w = 16 then m / 65536 * 65536 else if m.testBit w then 2 ^ w else 0

/-- The sender's lowest live siding with the export consumer and no producer. -/
def sessionSiding (s : State) (o : Nat) : Option Nat :=
  (List.range 256).find? fun i =>
    let d := s.siding i
    d.state == 1 && d.owner == o && d.consumer == 2 && producerOf s i == 0

/-- The receiver's public key in words 2-9, the most significant byte first (Table 14-7). -/
def receiverKey (pk : List Word) : Nat × Nat :=
  let coord := fun i : Nat => ofBe ((List.range 4).flatMap fun k => beBytes 8 (pw pk (i + k)).toNat)
  (coord 2, coord 6)

/-- enc at 0 is honoured only under the development fuse. -/
def sessionEnc (s : State) (pk : List Word) : Bool :=
  paramBit pk 31 || !(s.ilk.fuses.getD 8 0).getLsbD 0

def sessionLanes (pk : List Word) : Nat := if param pk 28 2 = 3 then 0 else param pk 28 2

/-- The session id, whose low bits are drawn and never 0, and the entropy left. -/
def drawId (owner : Nat) : Nat → List Byte → Option (Nat × List Byte)
  | 0, _ => none
  | n + 1, l =>
    if l.length < 4 then none
    else
      let v := ofLe (l.take 4) % 2 ^ 27
      if v = 0 then drawId owner n (l.drop 4) else some (owner * 2 ^ 27 + v, l.drop 4)

/-- The private key of the session: 48 bytes of entropy, reduced as in R286. -/
def drawKey (l : List Byte) : Option (Nat × List Byte) :=
  if l.length < 48 then none else some (ofBe (l.take 48) % (p256n - 1) + 1, l.drop 48)

/-- Both draws of SESSION_OPEN; none while the source has not delivered enough. -/
def drawSession (owner : Nat) (l : List Byte) : Option (Nat × Nat × List Byte) :=
  match drawId owner l.length l with
  | none => none
  | some (id, l) => (drawKey l).map fun k => (id, k.1, k.2)

/-- A point in SEC 1 compressed form. -/
def compressed (q : Nat × Nat) : List Byte := leBytes 1 (2 + q.2 % 2) ++ beBytes 32 q.1

/-- Bytes 0-63 of the session record (Table 15-5). -/
def sessionRecord (s : State) (id mask d : Nat) (pk : List Word) : List Byte :=
  let dev := match s.ilk.identity with | some i => i.deviceId | none => List.replicate 8 0
  leBytes 2 0x5352 ++ leBytes 1 1
    ++ leBytes 1 (packN [(0, 1, b2n (sessionEnc s pk)), (1, 2, sessionLanes pk), (3, 1, param pk 27 1),
      (4, 1, param pk 26 1)])
    ++ leBytes 4 id ++ dev ++ leBytes 8 s.now ++ leBytes 5 mask ++ leBytes 2 0
    ++ compressed ((p256Base d).getD (0, 0))

/-- Steps 2-7 of R290: draws, record, keys, signature and the write of the record. -/
def formSession (pk : List Word) (t : Ticket) (id d : Nat) (s : State) : State :=
  let o := t.w
  let mask := sessionMask o pk
  let rec_ := sessionRecord s id mask d pk
  let okm := hkdf rec_ (ecdh d (receiverKey pk)) (ascii "ZUFEN SESSION v1") 36
  let sig := match s.ilk.identity with
    | some i => ecdsaSign i.d (sha256 rec_)
    | none => List.replicate 64 0
  let s := s.modSession o fun x =>
    { x with
      enc := sessionEnc s pk, lanes := sessionLanes pk, id := id, key := okm.take 32, salt := okm.drop 32,
      mask := BitVec.ofNat 33 mask, comp := paramBit pk 27, trailer := paramBit pk 26, seq := 0, frames := 0,
      lastTs := 0, lastSent := false }
  addJob clsOther o true (fld (pw pk 10) 0 48) 128 (rec_ ++ sig) (.session t) s

/-- SESSION_OPEN commands at the source take what it has delivered, in their order; a failed source answers
them (R289). -/
def serveOpens : List (Ticket × List Word) → State → State
  | [], s => s
  | (t, pk) :: r, s =>
    let leave := fun s : State => { s with exp := { s.exp with opens := r } }
    if s.ilk.trng = 2 then
      let s := (leave s).modSession t.w fun x => { x with opening := false }
      serveOpens r (s.finish t statusFaulted (5 * 2 ^ 24) 0)
    else if s.ilk.trng = 0 then s
    else match drawSession t.w s.ilk.entropy with
      | none => s
      | some (id, d, rest) =>
        serveOpens r (formSession pk t id d { leave s with ilk := { s.ilk with entropy := rest } })

/-- An accepted SESSION_OPEN waits its turn at the entropy source. -/
def beginSession (sid : Nat) (pk : List Word) (t : Ticket) (s : State) : State :=
  let s := (s.startLong t).modSession t.w fun x =>
    { x with opening := true, siding := sid, ended := false, cause := 0 }
  let s := { s with exp := { s.exp with opens := s.exp.opens ++ [(t, pk)] } }
  serveOpens s.exp.opens s

def sessionBusy (x : Session) : Bool := x.isOpen || x.opening

def sessionOpen (pk : List Word) (t : Ticket) (s : State) : State :=
  if s.ilk.testState || s.ilk.identity.isNone then s.complete t statusNotPermitted 0 0
  else if sessionBusy (s.session t.w) then s.complete t statusNoResource 0 0
  else match sessionSiding s t.w with
    | none => s.complete t statusNoResource 0 0
    | some sid =>
      if !p256On (receiverKey pk) then s.complete t statusFaulted (1 * 2 ^ 24) 0
      else if s.ilk.trng = 2 then s.complete t statusFaulted (5 * 2 ^ 24) 0
      else beginSession sid pk t s

def execSessionOpen (w : Nat) (s : State) : Host.Outcome State Fault Refusal := next (issue 0x80 w sessionOpen s)

/-- The E-class fields of the session's streams (Table 06-15). -/
def joinStreams (x : Session) (s : State) : State :=
  let mask := pack [(36, 1, 1), (37, 1, 1), (38, 1, 1)]
  let val := pack [(36, 1, b2n x.trailer), (37, 1, b2n x.comp), (38, 1, 1)]
  forEach (bitsOf 33 x.mask.toNat) (fun i s => s.pendE (.myd i mask val)) s

/-- The write of the session record has ended (step 8 of R290). -/
def sessionJobEnd (j : Job) (t : Ticket) (s : State) : State :=
  let x := s.session t.w
  if !x.opening then s.finish t statusAborted 0 0
  else if j.err = 0 then
    let s := s.modSession t.w fun x => { x with isOpen := true, opening := false }
    let s := s.modSiding x.siding fun d => { d with producer := 3 }
    (joinStreams x s).finish t statusDone x.id (BitVec.ofNat 64 x.mask.toNat)
  else
    let s := s.modSession t.w fun x => { x with opening := false, key := [], salt := [] }
    accessFailed t j.err 0 s

/-- SESSION_CLOSE (R291): the streams stop, what they hold goes to the siding, and the last frame is still to be
sent. -/
def sessionClose (_pk : List Word) (t : Ticket) (s : State) : State :=
  let x := s.session t.w
  if !x.isOpen || x.closing.isSome then s.complete t statusNoResource 0 0
  else
    let s := clearExport x.mask.toNat (s.startLong t)
    let s := forEach (bitsOf 33 x.mask.toNat) closePayload s
    s.modSession t.w fun x => { x with closing := some t }

def execSessionClose (w : Nat) (s : State) : Host.Outcome State Fault Refusal := next (issue 0x81 w sessionClose s)

/-! ## Frames (R339-R343) -/

/-- The timestamp of the last record of a payload: the walk goes by each record's length field. -/
def walkPayload (comp : Bool) : Nat → Nat → List Byte → Nat
  | 0, ts, _ => ts
  | n + 1, ts, b =>
    if b.length < 8 then ts
    else
      let words := leAt b 6 2 / 16 % 64 + 1
      if comp then
        let c := ((b.drop 8).takeWhile fun x => decide (128 ≤ x.toNat)).length + 1
        let d := ((List.range c).map fun i => leAt b (8 + i) 1 % 128 * 2 ^ (7 * i)).foldl (· + ·) 0
        walkPayload comp n (ts + d) (b.drop (8 + c + 8 * (words - 2)))
      else walkPayload comp n (leAt b 8 8) (b.drop (8 * words))

/-- The bytes of a frame (R339, R341). -/
def frameBytes (x : Session) (stream firstTs : Nat) (payload : List Byte) (seq : Nat) (last : Bool) : List Byte :=
  let h := frameHeader x stream firstTs payload.length seq last
  if x.enc then
    let c := gcmSeal x.key (x.salt ++ beBytes 8 seq) h payload
    h ++ c.1 ++ c.2
  else h ++ payload ++ List.replicate 16 0

/-- Records of the session's streams that the Marshalling Yard still holds. -/
def yardHolds (s : State) (o : Nat) (x : Session) : Bool :=
  (s.myd.inq.any fun r => r.dests.any fun d => d.exp && sessionOf d.stream == o)
    || (bitsOf 33 x.mask.toNat).any fun i => (s.myd.streams.getD i Stream.reset).payload.isSome

/-- Nothing of a closing session is left outside its siding. -/
def drained (s : State) (o : Nat) : Bool :=
  let x := s.session o
  (s.siding x.siding).prodq.isEmpty && !yardHolds s o x

/-- The session has a frame to send: a payload, or the empty last frame (R343). -/
def hasFrame (s : State) (o : Nat) : Bool :=
  let x := s.session o
  x.isOpen && !x.lastSent
    && (decide (0 < (s.siding x.siding).avail) || (x.closing.isSome && drained s o))

/-- The lane on which a session places its next frame (R345). -/
def laneFor (s : State) (x : Session) : Nat :=
  let q := fun l : Nat => laneQueued (s.exp.lanes.getD l Lane.reset)
  if x.lanes = 1 then 0 else if x.lanes = 2 then 1 else if q 1 < q 0 then 1 else 0

/-- A lane can take a frame: it holds at most two, and none before its abort beat is accepted. -/
def laneFree (l : Lane) : Bool := !l.abort && (l.cur.isNone || l.next.isNone)

def putFrame (l : Nat) (f : Frame) (s : State) : State :=
  let put := fun x : Lane => if x.cur.isNone then { x with cur := some f } else { x with next := some f }
  { s with exp := { s.exp with lanes := s.exp.lanes.modify l put, rr := (f.owner + 1) % 17 } }

/-- The empty last frame. -/
def emptyFrame (o l : Nat) (s : State) : State :=
  let x := s.session o
  let seq := x.seq + 1
  let stream := (bitsOf 33 x.mask.toNat).headD (if o < 16 then o else 16)
  let f : Frame := {
    owner := o, sid := x.siding, itemEnd := 0, bytes := frameBytes x stream 0 [] seq true, sent := 0, last := true,
    hasItem := false }
  putFrame l f (s.modSession o fun x => { x with seq := seq, frames := x.frames + 1, lastSent := true })

/-- The engine takes the next payload from the siding, assigns frame_seq and seals the frame. -/
def payloadFrame (o l : Nat) (errs : WordErrs) (s : State) : State :=
  let sid := (s.session o).siding
  let (ws, after, _, s) := takeItem sid errs s
  let s := s.modSdg sid fun d => { d with rd := after, inFlight := true }
  let x := s.session o
  let b := wordsBytes (ws.drop 1)
  let payload := (b.drop 32).take (leAt b 28 4)
  let last := x.closing.isSome && (s.siding sid).avail == 0 && drained s o
  let seq := x.seq + 1
  let f : Frame := {
    owner := o, sid := sid, itemEnd := after,
    bytes := frameBytes x (leAt b 8 2) (leAt b 20 8) payload seq last, sent := 0, last := last, hasItem := true }
  let s := s.modSession o fun x =>
    { x with
      seq := seq, frames := x.frames + 1, lastSent := last,
      lastTs := walkPayload x.comp payload.length (leAt b 20 8) payload }
  putFrame l f { s with exp := { s.exp with flight := s.exp.flight ++ [(sid, after, false)] } }

/-- A lane takes the next frame of the round (R345); a session whose frame_seq is exhausted ends (R344). -/
def frameStart (l : Nat) (errs : WordErrs) (s : State) : State :=
  if !laneFree (s.exp.lanes.getD l Lane.reset) then s
  else
    match ((List.range 17).map fun k => (s.exp.rr + k) % 17).find? fun o =>
        hasFrame s o && laneFor s (s.session o) == l with
    | none => s
    | some o =>
      if 2 ^ 64 - 1 ≤ (s.session o).seq then endSession o 3 s
      else if (s.siding (s.session o).siding).avail = 0 then emptyFrame o l s
      else payloadFrame o l errs s

def execExportFrameStart (lane : Nat) (corrected lost : List Nat) (s : State) : Host.Outcome State Fault Refusal :=
  next (when (s.core && s.drives && decide (lane < 2)) (frameStart lane ⟨corrected, lost⟩) s)

/-! ## Beats -/

def modLane (l : Nat) (f : Lane → Lane) (s : State) : State :=
  { s with exp := { s.exp with lanes := s.exp.lanes.modify l f } }

/-- An accepted beat shows that EXP_CLK runs. -/
def clockSeen (s : State) : State := { s with exp := { s.exp with stallAt := none } }

/-- The MAC adapter accepts a beat that is not the frame's last. -/
def beatAccept (l : Nat) (s : State) : State :=
  let x := s.exp.lanes.getD l Lane.reset
  match x.cur with
  | some f =>
    if !x.abort && decide (8 < f.bytes.length) then
      let f' := { f with bytes := f.bytes.drop 8, sent := f.sent + 8 }
      clockSeen (modLane l (fun x => { x with cur := some f' }) s)
    else s
  | none => s

def execExportBeatAccept (lane : Nat) (s : State) : Host.Outcome State Fault Refusal :=
  next (when (s.core && s.drives) (beatAccept lane) s)

/-- The last frame of a closing session has been sent (R291). -/
def sessionClosed (o : Nat) (s : State) : State :=
  let x := s.session o
  match x.closing with
  | some t =>
    let s := s.modSiding x.siding fun d => { d with producer := 0 }
    let s := s.modSession o fun x =>
      { x with isOpen := false, closing := none, key := [], salt := [], lastSent := false }
    s.finish t statusDone (wrap 32 x.frames) (BitVec.ofNat 64 x.seq)
  | none => s

/-- The EOF beat of the frame in transmission is accepted (R342, R345). -/
def eofAccept (l : Nat) (s : State) : State :=
  let x := s.exp.lanes.getD l Lane.reset
  match x.cur with
  | some f =>
    if !x.abort && decide (f.bytes.length ≤ 8) then
      let s := clockSeen (modLane l (fun x =>
        { x with cur := x.next, next := none, frames := wrap 32 (x.frames + 1) }) s)
      let s := if f.hasItem then settleFlight f.sid f.itemEnd s else s
      if f.last then sessionClosed f.owner s else s
    else s
  | none => s

def execExportEofAccept (lane : Nat) (s : State) : Host.Outcome State Fault Refusal :=
  next (when (s.core && s.drives) (eofAccept lane) s)

/-- The abort beat is accepted (R43, R344): after a reset the lane takes its reset values, also while BLK_RST_N
stays low. -/
def abortAccept (l : Nat) (s : State) : State :=
  let x := s.exp.lanes.getD l Lane.reset
  if x.abort then
    clockSeen (modLane l (fun x =>
      if x.resets then Lane.reset else { x with cur := x.next, next := none, abort := false }) s)
  else s

def execExportAbortAccept (lane : Nat) (s : State) : Host.Outcome State Fault Refusal :=
  next (when s.drives (abortAccept lane) s)

/-- The EXP_CLK fault has held for 10 ms (R344): the session ends, and its started frame will end with the abort
beat. -/
def clockEnd (o : Nat) (s : State) : State :=
  let mark := fun l : Lane => match l.cur with
    | some f => if f.owner == o then { l with abort := true } else l
    | none => l
  let s := { s with exp := { s.exp with lanes := s.exp.lanes.map mark } }
  endSession o 2 s

def execSessionEndClock (owner : Nat) (s : State) : Host.Outcome State Fault Refusal :=
  next (match s.exp.stallAt with
    | some t => when (s.core && (s.session owner).isOpen && decide (t + 10000000 ≤ s.now)) (clockEnd owner) s
    | none => s)

end Sys2Proof.Machine
end

