-- ==== Sys2Proof/Machine/Meter.lean ====
section
/-! DEFINITION. The Sealed Meter: seal, tallies, latch, evidence, audit trail and image (chapter "Sealed
measurement partition"). -/

namespace Sys2Proof.Machine

def modMeter (f : Meter → Meter) (s : State) : State := { s with mtr := f s.mtr }

/-! ## Faults and the audit trail -/

/-- A meter fault (Table 17-7): detected while the core does not run, it waits (R332). -/
def meterRaise (cause engine detail : Nat) (s : State) : State :=
  if s.core then s.raise 2 cause engine detail
  else modMeter (fun m => { m with queue := m.queue ++ [{ occ 2 cause engine detail with time := s.now }] }) s

/-- The waiting faults reach the Signal Box when the core next runs, with their detection times. -/
def deliverMeter (s : State) : State :=
  if s.core then
    { s with sbx := { s.sbx with inbox := s.sbx.inbox ++ s.mtr.queue }, mtr := { s.mtr with queue := [] } }
  else s

/-- The chain of an audit record: over the previous chain and its own first 32 bytes (R329). -/
def chained (prev : List Byte) (a : Audit) : Audit := { a with chain := sha256 (prev ++ auditHead a) }

/-- A new audit record; a full ring loses its oldest (R329). -/
def audit (kind detail : Nat) (s : State) : State :=
  let m := s.mtr
  let a := chained m.chain
    { kind := kind, seals := m.seals, seq := m.audSeq, time := s.now, detail := detail % 2 ^ 64, chain := [] }
  let s := modMeter (fun m =>
    { m with audit := (a :: m.audit).take 256, audSeq := wrap 64 (m.audSeq + 1), chain := a.chain }) s
  if m.audit.length < 256 then s else meterRaise 0x17 0 (m.audSeq - 256) s

/-- One more refusal joins the last record, if that is a refusal of the same source (R323). -/
def mergeRefusal (src : Nat) (m : Meter) : Option Meter :=
  match m.audit with
  | a :: r =>
    if a.kind = 8 ∧ a.detail / 2 ^ 62 = src then
      let prev := match r with | b :: _ => b.chain | [] => List.replicate 32 0
      let b := chained prev { a with detail := src * 2 ^ 62 + sat 32 (a.detail % 2 ^ 32 + 1) }
      some { m with audit := b :: r, chain := b.chain }
    else none
  | [] => none

/-- A write refused while not open: 0 command, 1 register port, 2 token line (R323). -/
def refuseWrite (src : Nat) (s : State) : State :=
  let s := match mergeRefusal src s.mtr with
    | some m => { s with mtr := m }
    | none => audit 8 (src * 2 ^ 62 + 1) s
  meterRaise 0x16 0 (src * 2 ^ 62 + 1) s

/-! ## Seal (R320-R322) -/

/-- The meter core acts: it has started and is not in reset. -/
def meterRuns (s : State) : Bool := s.pins.porstN && s.mtr.ready && !s.mtr.inReset

/-- The state open, in which the configuration can change. -/
def meterOpen (s : State) : Bool := meterRuns s && s.mtr.state == 1

/-- An opening (R321). -/
def openSeal (s : State) : State :=
  let s := modMeter (fun m => { m with key := none, seals := sat 32 (m.seals + 1) }) s
  modMeter (fun m => { m with state := 1, latchedIn := false }) (audit 2 0 s)

/-- The hash of the running meter image. -/
def runningHash (m : Meter) : List Byte := if m.romImage then leBytes 32 Config.meterRomHash.toNat else m.imgHash

/-- The meter fingerprint (R322). -/
def meterFp (s : State) : List Byte := sha256 (wordsBytes s.mtr.map ++ wordBytes s.ttb.cfg ++ runningHash s.mtr)

/-- The key pair from 48 bytes of entropy, reduced as in R286. -/
def signerKey (e : List Byte) : Nat × Nat × Nat :=
  let d := ofBe e % (p256n - 1) + 1
  let q := (p256Base d).getD (0, 0)
  (d, q.1, q.2)

/-- Steps 3-6 of R322. -/
def sealWith (e : List Byte) (s : State) : State :=
  let k := signerKey e
  let s := modMeter (fun m => { m with key := some k }) s
  let h := sha256 (beBytes 32 k.2.1 ++ beBytes 32 k.2.2)
  modMeter (fun m => { m with state := 3, latchedIn := false }) (audit 3 (leAt h 0 8) s)

/-- The request of 48 bytes while closing: served when the source has them. -/
def serveMeter (s : State) : State :=
  if meterRuns s && s.mtr.state == 2 && s.core && s.ilk.trng == 1 && decide (48 ≤ s.ilk.entropy.length) then
    sealWith (s.ilk.entropy.take 48) { s with ilk := { s.ilk with entropy := s.ilk.entropy.drop 48 } }
  else s

/-- An attempt at key generation: a source that is not healthy, or VQ off, holds the closing (R322). -/
def tryClosing (s : State) : State :=
  let s := modMeter (fun m => { m with tryAt := s.now }) s
  if s.core && s.ilk.trng == 1 then serveMeter s
  else if s.mtr.closeTold then s
  else meterRaise 0x14 0 s.mtr.seals (modMeter (fun m => { m with closeTold := true }) s)

/-- A closing in open (R322); in void it does nothing. -/
def closeSeal (s : State) : State :=
  if s.mtr.state = 1 then
    tryClosing (modMeter (fun m => { m with state := 2, fp := meterFp s, closeTold := false }) s)
  else s

/-- SEAL_N has been high for 10 ms. A meter core in reset acts on the level when it runs again. -/
def sealOpened (s : State) : State :=
  if s.mtr.sealOpen then s
  else
    let s := modMeter (fun m => { m with sealOpen := true }) s
    if meterRuns s then openSeal s else s

def execSealOpen (s : State) : Host.Outcome State Fault Refusal := next (when s.pins.porstN sealOpened s)

def sealClosed (s : State) : State :=
  if s.mtr.sealOpen then
    let s := modMeter (fun m => { m with sealOpen := false }) s
    if meterRuns s then closeSeal s else s
  else s

def execSealClose (s : State) : Host.Outcome State Fault Refusal := next (when s.pins.porstN sealClosed s)

def execMeterClosingRetry (s : State) : Host.Outcome State Fault Refusal :=
  next (when (meterRuns s && s.mtr.state == 2 && decide (s.mtr.tryAt + 10000000 ≤ s.now)) tryClosing s)

def execMeterCoreStall (s : State) : Host.Outcome State Fault Refusal :=
  next (when (meterRuns s) (meterRaise 0x15 0 0) s)

/-! ## Start and reset -/

/-- The meter core has started after PORST_N: its audit record, then void or open (R331, R333). -/
def meterReady (s : State) : State :=
  let s := audit 1 s.mtr.version (modMeter (fun m => { m with ready := true }) s)
  modMeter (fun m => { m with state := if m.sealOpen then 1 else 0 }) s

def execMeterReady (s : State) : Host.Outcome State Fault Refusal :=
  next (when (s.pins.porstN && !s.mtr.ready && !s.mtr.inReset) meterReady s)

def execMtrRstAssert (s : State) : Host.Outcome State Fault Refusal :=
  next { s with pins := { s.pins with mtrRstN := false }, mtr := { s.mtr with inReset := true } }

/-- The image that the meter core runs from now on (R331). -/
def chooseImage (m : Meter) : Meter :=
  if m.imgValid then
    { m with
      romImage := false, version := imageVersion m.img,
      imgHash := imageHash m.img ((m.img.drop 128).take (imageLen m.img)) }
  else { m with romImage := true, version := 0x0103_0000, imgHash := [] }

/-- MTR_RST_N rises: the state resumes, and a change of the seal while in reset is recognised now. -/
def meterRelease (s : State) : State :=
  let s := modMeter (fun m => chooseImage { m with inReset := false }) s
  if s.mtr.ready then
    let s := audit 7 s.mtr.version s
    if s.mtr.sealOpen && s.mtr.state != 1 then openSeal s
    else if !s.mtr.sealOpen then closeSeal s else s
  else s

def execMtrRstRelease (s : State) : Host.Outcome State Fault Refusal :=
  let s' := { s with pins := { s.pins with mtrRstN := true } }
  next (if s.pins.porstN && s.mtr.inReset then meterRelease s' else s')

/-! ## Configuration (R323, R324) -/

/-- The fields of a mapping word (Table 17-3). -/
def clampMap (w : Word) : Word :=
  pack [(63, 1, fld w 63 1), (50, 6, fld w 50 6), (41, 9, fld w 41 9), (0, 32, fld w 0 32)]

/-- A mapping word applies: a change resets the tally and writes an audit record. -/
def applyMap (t : Nat) (w : Word) (s : State) : State :=
  let w := clampMap w
  let old := s.mtr.map.getD t 0
  if w = old then s
  else
    let count := (s.mtr.tally.getD t Tally.reset).count
    let s := modMeter (fun m =>
      { m with
        map := m.map.set t w, tally := m.tally.set t Tally.reset, forming := m.forming.set t Tally.reset }) s
    audit 4 (t * 2 ^ 56 + count) s

/-- TTB_CFG applies; a change writes an audit record. -/
def applyTtbCfg (w : Word) (s : State) : State :=
  let w := clampTtbCfg w
  if w = s.ttb.cfg then s else audit 5 w.toNat { s with ttb := { s.ttb with cfg := w } }

def mtrMap (pk : List Word) (t : Ticket) (s : State) : State :=
  let k := param pk 0 8
  if meterOpen s then
    let s := applyMap k (pw pk 1) s
    s.complete t statusDone k (s.mtr.map.getD k 0)
  else (refuseWrite 0 s).complete t statusSealed 0 0

def execMtrMap (w : Nat) (s : State) : Host.Outcome State Fault Refusal := next (issue 0xA2 w mtrMap s)

def ttbSet (pk : List Word) (t : Ticket) (s : State) : State :=
  if meterOpen s then
    let s := applyTtbCfg (pw pk 1) s
    s.complete t statusDone 0 s.ttb.cfg
  else (refuseWrite 0 s).complete t statusSealed 0 0

def execTtbSet (w : Nat) (s : State) : Host.Outcome State Fault Refusal := next (issue 0xA3 w ttbSet s)

/-- A register-port write to the Sealed Meter page: whole words only, and only in open (R44, R323). -/
def meterWrite (be : BitVec 8) (act : State → State) (s : State) : State :=
  if s.core && be == 0xFF#8 then (if meterOpen s then act s else refuseWrite 1 s) else s

def execMtrMapWrite (t : Nat) (word : BitVec 64) (be : BitVec 8) (s : State) :
    Host.Outcome State Fault Refusal :=
  next (when (decide (t < 256)) (meterWrite be (applyMap t word)) s)

def execTtbCfgWrite (word : BitVec 64) (be : BitVec 8) (s : State) : Host.Outcome State Fault Refusal :=
  next (meterWrite be (applyTtbCfg word) s)

/-! ### Meter image (R331) -/

def emptyStore (s : State) : State := modMeter (fun m => { m with img := [], imgValid := false, imgFail := false }) s

def execMtrImgCtlBegin (word : BitVec 64) (be : BitVec 8) (s : State) : Host.Outcome State Fault Refusal :=
  next (meterWrite be (fun s => if bit word 0 then emptyStore s else s) s)

/-- Most bytes of the program store. -/
def storeSize : Nat := 128 + 65536

/-- The whole image has arrived and is verified. -/
def verifyStore (s : State) : State :=
  let m := s.mtr
  let n := imageLen m.img
  if m.imgValid || m.imgFail || decide (m.img.length < 128 + min 65536 n) || decide (m.img.length < 128) then s
  else if imageOk 0x4D46 65536 Config.meterKey m.img ((m.img.drop 128).take n) then
    audit 6 (imageVersion m.img) (modMeter (fun m => { m with imgValid := true }) s)
  else meterRaise 0x10 0 (imageVersion m.img) (modMeter (fun m => { m with imgFail := true }) s)

def appendStore (word : Word) (s : State) : State :=
  verifyStore (modMeter (fun m => { m with img := (m.img ++ wordBytes word).take storeSize }) s)

def execMtrImgDataWrite (word : BitVec 64) (be : BitVec 8) (s : State) : Host.Outcome State Fault Refusal :=
  next (meterWrite be (appendStore word) s)

/-! ## Tallies (R324-R326) -/

/-- A tally that maps a counter. -/
def mapsTo (map : Word) (n ctx ev : Nat) : Bool :=
  bit map 63 && fld map 50 6 == n && fld map 41 9 == ev && bit map ctx

/-- A count is added, up to 2^56 − 1. -/
def addTally (count : Nat) (t : Tally) : Tally :=
  { t with count := sat 56 (t.count + count), sat := t.sat || decide (2 ^ 56 ≤ t.count + count + 1) }

/-- The tally loses its claim to have counted every event. -/
def loseTally (i : Nat) (s : State) : State :=
  let t := s.mtr.tally.getD i Tally.reset
  if t.lost then s
  else
    meterRaise 0x11 i t.count
      (modMeter (fun m => { m with tally := m.tally.set i { t with lost := true } }) s)

/-- What the check of a tally's word shows (R325). -/
def tallyEcc (i : Nat) (ecc : Ecc) (s : State) : State :=
  match ecc with
  | .ok => s
  | .corrected => meterRaise 0x12 0 0 s
  | .uncorrectable =>
    let v := (Config.lostTally s.free).toNat
    let s := modMeter (fun m => { m with tally := m.tally.modify i fun t => { t with count := v } }) s.draw
    loseTally i (meterRaise 0x13 i 0 s)

/-- What the check of a word of the audit ring shows, and the word that its read returns (R13, Table 17-7). DESIGN
CHOICE (log 123): a word that cannot be corrected reads as a free value. -/
def auditEcc (ecc : Ecc) (w : Word) (s : State) : State × Word :=
  match ecc with
  | .ok => (s, w)
  | .corrected => (meterRaise 0x12 0 0 s, w)
  | .uncorrectable => (meterRaise 0x13 0xFF 0 s.draw, Config.lostWord s.free)

/-- The epoch label lies before epoch `e`. -/
def labelBefore (epoch e : Nat) : Bool := decide ((epoch + 2 ^ 32 - e) % 2 ^ 32 ≥ 2 ^ 31)

/-- A delta counts toward the T that is to be latched. -/
def inForming (s : State) (epoch : Nat) : Bool :=
  match s.mtr.latchDue with
  | some (_, e) => labelBefore epoch e
  | none => false

/-- A delta of an old epoch after the latch of that epoch (R326), whether or not a later latch is due by now. -/
def afterLatch (s : State) (epoch : Nat) : Bool := s.mtr.latchT != 0 && labelBefore epoch s.mtr.latchEp

/-- A delta reaches one tally that maps it. -/
def tallyDelta (d : Delta) (i : Nat) (s : State) : State :=
  let early := inForming s d.epoch
  let late := afterLatch s d.epoch
  let s := modMeter (fun m => { m with tally := m.tally.modify i (addTally d.count) }) s
  let s := if early then modMeter (fun m => { m with forming := m.forming.modify i (addTally d.count) }) s else s
  if d.lost || late then
    let s := loseTally i s
    if early then modMeter (fun m => { m with forming := m.forming.modify i fun t => { t with lost := true } }) s
    else s
  else s

def mappedTallies (s : State) (n : Nat) (d : Delta) : List Nat :=
  (List.range 256).filter fun i => mapsTo (s.mtr.map.getD i 0) n (d.ctx % 32) (d.ev % 512)

/-- The Ledger takes what a link carries while epochs run. DESIGN CHOICE: counts from between BLK_RST_N and the
first boundary after it reach the tallies alone (Table 17-8). -/
def ledgerTakes (s : State) (d : Delta) : Bool :=
  s.core && s.ttb.running && (d.mark || !labelBefore d.epoch s.ttb.startEpoch)

/-- The tap copies the head of a station link to the meter before it goes to the Ledger (R319). -/
def tapDelta (n : Nat) (ecc : Ecc) (s : State) : State :=
  match (s.station n).link with
  | [] => s
  | d :: rest =>
    let s := s.modStation n fun x => { x with link := rest }
    let s := if ledgerTakes s d then { s with ldg := { s.ldg with inq := s.ldg.inq.modify n fun q => q ++ [d] } } else s
    if d.mark then modMeter (fun m => { m with marks := m.marks ||| BitVec.ofNat 64 (2 ^ n) }) s
    else
      let hit := mappedTallies s n d
      let s := withSome hit.head? (fun i => tallyEcc i ecc) s
      forEach hit (tallyDelta d) s

def execTallyDeltaAdd (n : Nat) (ecc : Ecc) (s : State) : Host.Outcome State Fault Refusal :=
  next (when s.stationsRun (tapDelta n ecc) s)

/-- The meter was sealed at T: its last sealing does not lie after it (Table 17-5, live). -/
def sealedAt (t : Nat) (m : Meter) : Bool :=
  m.state == 3 && !(m.audit.any fun a => a.kind == 3 && decide (t ≤ a.time))

/-- The latch as of T (R326). -/
def latchTallies (t e : Nat) (s : State) : State :=
  modMeter (fun m =>
    { m with
      latched := m.forming, latchT := t, latchEp := e, latchDue := none,
      latchedIn := m.latchedIn || sealedAt t m }) s

def execTallyLatch (s : State) : Host.Outcome State Fault Refusal :=
  next (match s.mtr.latchDue with
    | some (t, e) =>
      when (s.pins.porstN && (marksIn s s.mtr.marks || decide (t + 16000 ≤ s.now))) (latchTallies t e) s
    | none => s)

/-- The meter at a boundary T that opens epoch `e`: a latch becomes due. -/
def meterBoundary (t e : Nat) (s : State) : State :=
  let s := match s.mtr.latchDue with
    | some (t', e') => latchTallies t' e' s
    | none => s
  modMeter (fun m => { m with latchDue := some (t, e), forming := m.tally, marks := 0 }) s

/-- MTR_READ; the read checks the tally's word (R325). -/
def mtrRead (ecc : Ecc) (pk : List Word) (t : Ticket) (s : State) : State :=
  let k := param pk 0 8
  let s := tallyEcc k ecc s
  s.complete t statusDone k (tallyWord (s.mtr.tally.getD k Tally.reset) (s.mtr.map.getD k 0))

def execMtrRead (c : CheckedCommand) (s : State) : Host.Outcome State Fault Refusal :=
  next (issue 0xA0 c.w (mtrRead c.ecc) s)

/-! ## Evidence (R327, R328) -/

/-- The values that an evidence record shows: latched, or live when no boundary has passed since sealing. -/
def evidenceValues (m : Meter) : List Tally := if m.latchedIn then m.latched else m.tally

/-- The header of Table 17-5. -/
def evidenceHead (s : State) (first count : Nat) : List Byte :=
  let m := s.mtr
  let vs := ((evidenceValues m).drop first).take count
  let live := !m.latchedIn
  let dev := match s.ilk.identity with | some i => i.deviceId | none => List.replicate 8 0
  leBytes 2 0x4556 ++ leBytes 1 1
    ++ leBytes 1 (packN [(0, 1, b2n live), (1, 1, b2n (vs.any (·.lost))), (2, 1, b2n (vs.any (·.sat)))])
    ++ leBytes 1 first ++ leBytes 1 (count - 1) ++ leBytes 1 (timeStateCode s.ttb.state) ++ leBytes 1 0
    ++ dev ++ leBytes 8 m.evSeq ++ leBytes 4 (if live then s.epochAt s.now else m.latchEp)
    ++ leBytes 4 m.version ++ leBytes 8 (if live then s.now else m.latchT) ++ leBytes 8 s.now
    ++ leBytes 4 m.seals ++ leBytes 4 0 ++ m.fp.take 8

/-- Header, entries and signature. -/
def evidenceRecord (s : State) (first count d : Nat) : List Byte :=
  let m := s.mtr
  let entries := (List.range count).flatMap fun i =>
    let map := m.map.getD (first + i) 0
    wordBytes (tallyWord ((evidenceValues m).getD (first + i) Tally.reset) map) ++ wordBytes map
  let b := evidenceHead s first count ++ entries
  b ++ ecdsaSign d (sha256 b)

/-- The check of the words that an evidence record reads, told of its first tally: a tally whose word is lost
shows so in the record too (R325). -/
def evidenceEcc (first : Nat) (ecc : Ecc) (s : State) : State :=
  let s := tallyEcc first ecc s
  if ecc = .uncorrectable then
    let v := s.mtr.tally.getD first Tally.reset
    modMeter (fun m => { m with latched := m.latched.modify first fun t => { t with count := v.count, lost := true } }) s
  else s

/-- MTR_EVIDENCE (R328): reasons 0x06 in core reset, 0x07 while not sealed. -/
def mtrEvidence (ecc : Ecc) (pk : List Word) (t : Ticket) (s : State) : State :=
  if s.mtr.inReset then s.complete t statusFaulted (6 * 2 ^ 24) 0
  else match s.mtr.key with
    | none => s.complete t statusFaulted (7 * 2 ^ 24) 0
    | some (d, _, _) =>
      if s.mtr.state != 3 then s.complete t statusFaulted (7 * 2 ^ 24) 0
      else
        let first := param pk 0 8
        let count := min (param pk 8 8 + 1) (256 - first)
        let s := modMeter (fun m => { m with evSeq := wrap 64 (m.evSeq + 1) }) (evidenceEcc first ecc (s.startLong t))
        let b := evidenceRecord s first count d
        addJob clsOther 16 true (pkAddr pk) b.length b (.evidence t b.length s.mtr.evSeq) s

def execMtrEvidence (c : CheckedCommand) (s : State) : Host.Outcome State Fault Refusal :=
  next (issue 0xA1 c.w (mtrEvidence c.ecc) s)

/-- The write of an evidence record has ended; a failure has no result2 (R259, R328). -/
def evidenceJobEnd (j : Job) (t : Ticket) (bytes seq : Nat) (s : State) : State :=
  if j.err = 0 then s.finish t statusDone bytes (BitVec.ofNat 64 seq)
  else s.finish t statusFaulted (accessReason j.err * 2 ^ 24) 0

end Sys2Proof.Machine
end

