-- ==== Sys2Proof/Machine/Windows.lean ====
section
/-! DEFINITION. Command windows: assembly of packets, and the commands that only answer (chapter "Command
packets"). -/

namespace Sys2Proof.Machine

/-! ## Assembly (R253-R256) -/

/-- The partition field is that of the page (R257). -/
def fillPartition (w : Nat) (word : Word) : Word := put word 52 4 (if w < 16 then w else 0)

/-- A packet is ready once its last word has been taken. -/
def readyPacket (w : Nat) (ws : List Word) (s : State) : State :=
  s.modWin w fun x => { x with asm := none, ready := x.ready ++ [{ words := ws }] }

/-- Word 0 of a packet: its space is reserved, or the packet is refused (R255). -/
def firstWord (w : Nat) (word : Word) (s : State) : State :=
  let word := fillPartition w word
  let need := pkLen [word] + 1
  let a : Assembly := { need := need, words := [word], t0 := s.now, drop := false }
  if fifoUsed (s.win w) + need ≤ 64 then
    if need = 1 then readyPacket w [word] s else s.modWin w fun x => { x with asm := some a }
  else
    let s := s.modWin w fun x =>
      { x with
        refused := sat 16 (x.refused + 1), asm := if need = 1 then none else some { a with drop := true } }
    s.completeFree (ticketOf w [word]) statusNoResource 0 0

/-- A further word of the packet that the window assembles or discards. -/
def furtherWord (w : Nat) (a : Assembly) (word : Word) (s : State) : State :=
  let ws := a.words ++ [word]
  if ws.length < a.need then s.modWin w fun x => { x with asm := some { a with words := ws } }
  else if a.drop then s.modWin w fun x => { x with asm := none }
  else readyPacket w ws s

/-- A full-width write into a command window (R44, R253). Words written to a window that is closed are
discarded. -/
def windowWrite (w : Nat) (word : Word) (s : State) : State :=
  if (s.win w).isOpen || departing s w then
    match (s.win w).asm with
    | none => firstWord w word s
    | some a => furtherWord w a word s
  else s

def execCommandWindowWrite (w : Nat) (word : BitVec 64) (be : BitVec 8) (s : State) :
    Host.Outcome State Fault Refusal :=
  next (when (s.core && be == 0xFF#8 && decide (w < 17)) (windowWrite w word) s)

def execPacketDiscardTimeout (w : Nat) (s : State) : Host.Outcome State Fault Refusal :=
  next (match (s.win w).asm with
    | some a => when (s.core && a.drop && decide (a.t0 + 1000000 ≤ s.now))
        (fun s => s.modWin w fun x => { x with asm := none }) s
    | none => s)

def execPacketAbandon (w : Nat) (s : State) : Host.Outcome State Fault Refusal :=
  next (match (s.win w).asm with
    | some a => when (s.core && !a.drop && decide (a.t0 + 1000000 ≤ s.now))
        (fun s =>
          let s := s.modWin w fun x => { x with asm := none, abandoned := sat 8 (x.abandoned + 1) }
          s.completeFree (ticketOf w a.words) statusAborted 0xFFFFFFFF 0) s
    | none => s)

/-! ## Commands that only answer -/

/-- An opcode outside Table 14-4 (R269). -/
def execUnknownOp (w : Nat) (s : State) : Host.Outcome State Fault Refusal :=
  next (match headPacket s w with
    | some p =>
      if knownOps.contains (pkOpcode p.words) then s
      else issue (pkOpcode p.words) w (fun _ t s => s.complete t statusUnknownOp 0 0) s
    | none => s)

def execNop (w : Nat) (s : State) : Host.Outcome State Fault Refusal :=
  next (issue 0x01 w (fun pk t s => s.complete t statusDone (param pk 0 32) 0) s)

def execReadVersion (w : Nat) (s : State) : Host.Outcome State Fault Refusal :=
  next (issue 0x02 w (fun _ t s => s.complete t statusDone blkVersion (nat64 s.dsp.fwVersion)) s)

end Sys2Proof.Machine
end

