-- ==== Sys2Proof/Machine/Interlock.lean ====
section
/-! DEFINITION. The Interlocking: the partition table and its switch-over points, memory windows, detach and
scrub, key slots, the entropy source, interrupt words (chapter "Partitions and security"). -/

namespace Sys2Proof.Machine

/-! ## Changes of the partition table (R277, R278) -/

def modDetach (p : Nat) (f : Detach → Detach) (s : State) : State :=
  { s with ilk := { s.ilk with detaches := s.ilk.detaches.map fun d => if d.p == p then f d else d } }

/-- LDG_CTX of the contexts of a mask: a new owner, with user_read at 0. -/
def setCtxOwner (mask owner : Nat) (s : State) : State :=
  let f := fun i w => if mask.testBit i then pack [(8, 5, ownerCode owner)] else w
  { s with ldg := { s.ldg with ctx := s.ldg.ctx.mapIdx f } }

/-- The latch of partition `p`'s user page is empty. -/
def clearLatch (p : Nat) (s : State) : State := { s with ldg := { s.ldg with userHi := s.ldg.userHi.set p 0 } }

/-- An entry becomes live with its contexts, fresh until the next boundary, and its window opens. -/
def createPart (p mask compl : Nat) (s : State) : State :=
  let s := clearLatch p (setCtxOwner mask p s)
  let s := { s with ilk := { s.ilk with
    fresh := s.ilk.fresh ||| BitVec.ofNat 32 mask,
    win := s.ilk.win.set p (List.replicate 4 Window.reset) } }
  let s := s.modPart p fun _ => { Part.reset with state := 1 }
  s.modWin p fun x => { x with isOpen := true, compl := compl, ready := [], asm := none, owes := 0, longs := 0 }

/-- user_read of the contexts of a mask. -/
def setUserRead (mask : Nat) (on : Bool) (s : State) : State :=
  let f := fun i w => if mask.testBit i then put w 16 1 (b2n on) else w
  { s with ldg := { s.ldg with ctx := s.ldg.ctx.mapIdx f } }

/-- siding_en and export_en of a partition's streams are cleared, also where a write of them is pending. -/
def stopStreams (p : Nat) (s : State) : State :=
  let mine := fun i : Nat => i == p || i == 17 + p
  let off := fun i (x : Stream) => if mine i then { x with cfg := put x.cfg 38 2 0 } else x
  let strip := fun e : EWrite => match e with
    | .myd i m v => if mine i then .myd i (put m 38 2 0) v else .myd i m v
    | e => e
  { s with
    myd := { s.myd with streams := s.myd.streams.mapIdx off },
    dsp := { s.dsp with pending := s.dsp.pending.map strip, frozen := s.dsp.frozen.map strip } }

/-- An entry that partition `p` configured, as the pending generation leaves it (R251). -/
def entryOf (s : State) (p i : Nat) : Bool :=
  let w := if bit (selSoon s i) 63 then selSoon s i else s.wbr.sel.getD i 0
  bit w 63 && selOwner w == p

/-- A write that belongs to an object of partition `p`. -/
def writeOf (s : State) (p : Nat) (e : EWrite) : Bool :=
  match e with
  | .pltStream _ _ o => o == p
  | .wbrSel i sel => if bit sel 63 then selOwner sel == p else entryOf s p i
  | .wbrQ i _ => entryOf s p i
  | .planArm k | .planDisarm k => (planSlot s k).owner == p && (planSlot s k).plan.isSome
  | .ldgSnap k _ _ => k == p
  | _ => false

/-- An epoch's plan without what slot `k` still had to record of layers that no sample set checks. -/
def dropRecords (k : Nat) (e : EpochPlan) : EpochPlan :=
  { e with skips := e.skips.filter (fun x => x.1 != k), layers := e.layers.filter fun x => x.1 != k || x.2.2.1 != 0 }

/-- An epoch's plan that no longer samples slot `k`. -/
def dropSlot (k : Nat) (e : EpochPlan) : EpochPlan :=
  { e with
    skips := e.skips.filter (fun x => x.1 != k), layers := e.layers.filter (fun x => x.1 != k),
    plans := e.plans.filter fun x => x.1 != k }

/-- Frame windows of a slot that have not opened, and records of skipped layers to come, are gone; windows
already open run to their close. The epoch in force samples the slot no more. A load held for the slot completes
ABORTED: its object was detached (R267). -/
def leavePlan (k : Nat) (s : State) : State :=
  let s := { s with wtp := { s.wtp with
    windows := s.wtp.windows.filter fun w => w.slot != k || w.opened,
    cur := s.wtp.cur.map (dropSlot k), old := s.wtp.old.map (dropRecords k) } }
  dropHeld (unitPlan k) (modPlanSlot k (fun x => { x with state := 0, owner := 0, plan := none }) s)

/-- Step 4 of Table 15-7: plan slots, model slots, Pilot streams and Weighbridge entries are disarmed and
free. -/
def freeObjects (p : Nat) (s : State) : State :=
  let keep := fun e : EWrite => !writeOf s p e
  let s := { s with dsp := { s.dsp with
    pending := s.dsp.pending.filter keep, frozen := s.dsp.frozen.filter keep } }
  let s := forEach ((List.range 16).filter fun k => (planSlot s k).plan.isSome && (planSlot s k).owner == p) leavePlan s
  let s := forEach ((List.range 4).filter fun k => (modelSlot s k).model.isSome && (modelSlot s k).owner == p)
    (fun k s => dropHeld (unitModel k) (freeModel k s)) s
  let stream := fun x : PStream => if bit x.word 63 && x.owner == p then { PStream.reset with frame := x.frame } else x
  let s := { s with plt := { s.plt with streams := s.plt.streams.map stream } }
  forEach ((List.range 64).filter fun i => bit (s.wbr.sel.getD i 0) 63 && selOwner (s.wbr.sel.getD i 0) == p)
    (fun i s => applyE (.wbrQ i wbrQReset) (applyE (.wbrSel i wbrSelReset) s)) s

/-- Held writes of a window complete ABORTED (R267). -/
def dropHeldOf (w : Nat) (s : State) : State := abortHeld (fun h => h.ticket.w == w && !h.ticket.tkl) s

/-- Step 2 of Table 15-7, and with it the parts of steps 4, 5 and 7 that need no wait. -/
def detachPart (p : Nat) (s : State) : State :=
  let mask := ctxMaskOf s p
  let s := s.modPart p fun x => { x with state := 2 }
  let s := clearLatch p (setUserRead mask false (stopStreams p s))
  let s := modDetach p (fun d => { d with at_ := some s.now, mask := BitVec.ofNat 32 mask }) s
  let s := s.modWin p fun x => { x with isOpen := false }
  let s := dropHeldOf p (freeObjects p s)
  if (s.session p).isOpen then dropSession p s else s

/-! ### Scrub -/

/-- The words of a siding in the pool become zero. -/
def zeroSiding (sid : Nat) (s : State) : State :=
  let d := s.siding sid
  let inside := fun i : Nat => decide (d.base / 8 ≤ i) && decide (i < d.base / 8 + d.size)
  { s with sdg := { s.sdg with pool := s.sdg.pool.filter fun e => !inside e.1 } }

/-- A key slot is emptied in all decrypt stages (R182). -/
def freeKey (k : Nat) (s : State) : State :=
  let s := dropHeld (unitKey k) s
  let clear := fun x : Track => { x with slotValid := x.slotValid &&& ~~~ BitVec.ofNat 8 (2 ^ k) }
  { s with ilk := { s.ilk with keys := s.ilk.keys.set k none }, trk := s.trk.map clear }

/-- The lowest window from `k` up that holds the write right. -/
def nextScrub (s : State) (p k : Nat) : Option Nat :=
  (List.range 4).find? fun i =>
    let x := (s.ilk.win.getD p []).getD i Window.reset
    decide (k ≤ i) && bit x.base 1 && decide (0 < winSize x)

/-- Zero-writes of the next window, as far as addresses go, or the end of the scrub: all windows are disabled
(step 8). -/
def scrubFrom (p k : Nat) (s : State) : State :=
  match nextScrub s p k with
  | some i =>
    let x := (s.ilk.win.getD p []).getD i Window.reset
    addJob clsOther p true (winBase x) (min (winSize x) (2 ^ 48 - winBase x)) [] (.scrub p i) s
  | none =>
    let s := { s with ilk := { s.ilk with
      win := s.ilk.win.set p (List.replicate 4 Window.reset), scrubActive := false } }
    modDetach p (fun d => { d with scrubEnd := true }) s

def scrubJobEnd (p k : Nat) (s : State) : State := scrubFrom p (k + 1) s

/-- Step 8 of Table 15-7: sidings and key slots of the partition are freed, and its windows are
zero-written. -/
def scrubPart (p : Nat) (s : State) : State :=
  let s := s.modPart p fun x => { x with state := 3 }
  let mine := (List.range 256).filter fun i => (s.siding i).state != 0 && (s.siding i).owner == p
  let s := forEach mine (fun i s => freeSiding i (zeroSiding i s)) s
  let s := forEach (bitsOf 8 (keyMaskOf s p)) freeKey s
  let s := s.modWin p fun x => { x with ready := [], asm := none, owes := 0, longs := 0, compl := 0 }
  scrubFrom p 0 { s with ilk := { s.ilk with scrubActive := true, scrubPart := p } }

/-! ### Switch-over points -/

def detachOf (s : State) (p : Nat) : Option Detach := s.ilk.detaches.find? fun d => d.p == p

/-- The completion of a detach; one that the token line started goes to Root's siding if it is live
(R356). -/
def answerDetach (d : Detach) (s : State) : State :=
  let status := if d.failed then statusFaulted else statusDone
  let masks := if d.snapOk == some true then nat64 d.mask.toNat else 0
  if d.ticket.tkl then
    if (s.siding (s.win 16).compl).state = 1 then
      s.completeFree
        { w := 16, seq := Config.detachSeq.toNat, op := 0x11, reply := true, later := false, tkl := false }
        status d.p masks
    else s
  else s.finish d.ticket status d.p masks

/-- Step 10 of Table 15-7: the entry is free, the completion is written, and detach_done is set. -/
def freePart (p : Nat) (s : State) : State :=
  let d := detachOf s p
  let s := { s with ilk := { s.ilk with
    detaches := s.ilk.detaches.filter fun x => x.p != p, rint := s.ilk.rint ||| 4#4 } }
  withSome d answerDetach (s.modPart p fun _ => Part.reset)

/-- A table change takes effect at its switch-over point: after the last record released (R116, R278). The next record
released gives the point its key. -/
def applyChange (c : TableChange) (s : State) : State :=
  let s := match c with
    | .create p mask compl => createPart p mask compl s
    | .mirror p on => s.modPart p fun x => { x with mirror := on }
    | .detach p => detachPart p s
    | .scrub p => scrubPart p s
    | .free p => freePart p s
  { s with jct := { s.jct with switchWait := true }, ilk := { s.ilk with serial := wrap 32 (s.ilk.serial + 1) } }

/-- A change needs a switch-over point of its own: the last point still waits for the record that gives it its key, or
other changes wait before it (R278). DESIGN CHOICE (log 59): before the first boundary no record exists that could
stand between two points, and each change takes effect at once. -/
def changeWaits (s : State) : Bool := s.ttb.running && (s.jct.switchWait || !s.ilk.changes.isEmpty)

/-- A table change, in issue order. -/
def tableChange (c : TableChange) (s : State) : State :=
  if changeWaits s then { s with ilk := { s.ilk with changes := s.ilk.changes ++ [c] } } else applyChange c s

/-- The oldest waiting change takes the next point. -/
def nextChange (s : State) : State :=
  match s.ilk.changes with
  | c :: r => if s.jct.switchWait then s else applyChange c { s with ilk := { s.ilk with changes := r } }
  | [] => s

/-- ILK_PART state of an entry, and its mirror, once every change accepted so far has taken effect. -/
def partSoon (s : State) (p : Nat) : Nat × Bool :=
  s.ilk.changes.foldl (fun a c => match c with
    | .create q _ _ => if q = p then (1, false) else a
    | .mirror q on => if q = p then (a.1, on) else a
    | .detach q => if q = p then (2, a.2) else a
    | .scrub q => if q = p then (3, a.2) else a
    | .free q => if q = p then (0, false) else a) ((s.part p).state, (s.part p).mirror)

/-- Contexts of partitions whose creation waits. -/
def comingMask (s : State) : Nat :=
  s.ilk.changes.foldl (fun m c => match c with | .create _ k _ => m ||| k | _ => m) 0

def execJunctionRelease (s : State) : Host.Outcome State Fault Refusal :=
  next (when s.core (fun s => nextChange (junctionRelease s)) s)

/-! ## PART_CREATE, PART_DETACH -/

/-- A completion siding (R265). -/
def makeCompl (sid owner sizeCode base : Nat) (s : State) : State :=
  (makeSiding sid owner 0 2 sizeCode base true 0 0 s).modSiding sid fun d => { d with intEn := true, intLevel := 2 }

/-- PART_CREATE of partition `p` (R277). -/
def createNow (p sizeCode mask : Nat) (t : Ticket) (s : State) : State :=
  let free := maskOf ((bitsOf 32 mask).filter fun c => decide (16 ≤ s.ctxOwner c) && !(comingMask s).testBit c)
  let sid := (List.range 256).find? fun i => decide (4 ≤ i) && (s.siding i).state == 0
  if (partSoon s p).1 != 0 then s.complete t statusNoResource 0 0
  else match sid with
    | none => s.complete t statusNoResource 0 0
    | some sid =>
      match placeSiding s sid sizeCode with
      | none => s.complete t statusNoResource 0 0
      | some base =>
        let s := tableChange (.create p free sid) (makeCompl sid p sizeCode base s)
        s.complete t statusDone sid (nat64 free)

def partCreate (pk : List Word) (t : Ticket) (s : State) : State :=
  createNow (param pk 0 4) (min 10 (param pk 4 4)) (fld (pw pk 1) 0 32) t s

def execPartCreate (w : Nat) (s : State) : Host.Outcome State Fault Refusal := next (issue 0x10 w partCreate s)

/-- A live entry can be detached. -/
def detachable (s : State) (p : Nat) : Bool := (s.part p).state == 1 && (partSoon s p).1 == 1

/-- The detach of a partition begins (R293). -/
def detachNow (p : Nat) (t : Ticket) (s : State) : State :=
  if detachable s p then
    let d : Detach := {
      p := p, ticket := t, at_ := none, tdDone := false, td := none, snapOk := none, mask := 0, scrub := false,
      scrubEnd := false, failed := false }
    let s := s.startLong t
    tableChange (.detach p) { s with ilk := { s.ilk with detaches := s.ilk.detaches ++ [d] } }
  else s.complete t statusNoResource 0 0

def partDetach (pk : List Word) (t : Ticket) (s : State) : State := detachNow (param pk 0 4) t s

def execPartDetach (w : Nat) (s : State) : Host.Outcome State Fault Refusal := next (issue 0x11 w partDetach s)

/-- Steps 5 to 7 are complete: no command of the partition in progress, every completion in its siding, no
access of it outstanding, no frame of its session on a lane. -/
def readyToScrub (s : State) (p : Nat) : Bool :=
  let x := s.win p
  (s.part p).state == 2 && x.longs == 0 && x.owes == 0 && (s.siding x.compl).prodq.isEmpty
    && !(s.mem.jobs.any fun j => j.owner == p) && !(s.mem.txns.any fun t => t.part == p)
    && !(s.exp.lanes.any fun l => match l.cur with | some f => f.owner == p | none => false)
    && !s.ilk.scrubActive

def execDetachScrubStart (p : Nat) (s : State) : Host.Outcome State Fault Refusal :=
  next (match detachOf s p with
    | some d => when (s.core && !d.scrub && readyToScrub s p)
        (fun s =>
          let s := if (s.session p).isOpen then dropSession p s else s
          tableChange (.scrub p) (modDetach p (fun d => { d with scrub := true }) s)) s
    | none => s)

/-- Steps 8 and 9 of Table 15-7 are done, and step 10 follows. -/
def detachComplete (p : Nat) (s : State) : State :=
  match detachOf s p with
  | some d =>
    if (s.part p).state == 3 && (partSoon s p).1 == 3 && d.scrubEnd && d.snapOk.isSome then tableChange (.free p) s
    else s
  | none => s

def execDetachComplete (p : Nat) (s : State) : Host.Outcome State Fault Refusal := next (when s.core (detachComplete p) s)

/-- A boundary whose edge has this stamp is T_d of a detach: the first one after its step 2 (Table 15-7). -/
def Detach.ends (edge : Nat) (d : Detach) : Bool := !d.tdDone && d.at_.any fun t => decide (t < edge)

/-- Detaches at T_d, the first boundary whose edge is stamped after step 2: the contexts leave for the final
snapshot, and the snapshot registers of the slot take their reset values (step 9). -/
def detachBoundary (edge t : Nat) (s : State) : State :=
  let f := fun d : Detach => if d.ends edge then { d with tdDone := true, td := some t } else d
  let now := (s.ilk.detaches.filter (·.ends edge)).map (·.p)
  let s := { s with ilk := { s.ilk with detaches := s.ilk.detaches.map f } }
  forEach now (fun p s => { s with ldg := { s.ldg with
    cfg := { s.ldg.cfg with
      addr := s.ldg.cfg.addr.set p (LCfg.reset.addr.getD p 0),
      ctl := s.ldg.cfg.ctl.set p (LCfg.reset.ctl.getD p 0) } } }) s

/-- The contexts that leave return to Root. -/
def returnContexts (mask : BitVec 32) (s : State) : State := setCtxOwner mask.toNat 16 s

/-! ## WINDOW_SET, GRANT -/

/-- WINDOW_SET of one window (R279, R281). -/
def setWindow (o k base size : Nat) (read write : Bool) (s : State) : State :=
  let x : Window := {
    base := pack [(12, 36, base / 4096), (1, 1, b2n write), (0, 1, b2n read)],
    size := pack [(12, 36, size / 4096)] }
  { s with ilk := { s.ilk with win := s.ilk.win.modify o fun l => l.set k x } }

def windowSet (pk : List Word) (t : Ticket) (s : State) : State :=
  let o := ofOwnerCode (param pk 0 5)
  let k := param pk 8 2
  if barredPart s o then s.complete t statusNotPermitted 0 0
  else
    let s := setWindow o k (fld (pw pk 1) 0 48) (fld (pw pk 2) 0 48) (paramBit pk 10) (paramBit pk 11) s
    s.complete t statusDone (k * 256) (pack [(12, 36, fld (pw pk 1) 12 36)])

def execWindowSet (w : Nat) (s : State) : Host.Outcome State Fault Refusal := next (issue 0x12 w windowSet s)

def grant (pk : List Word) (t : Ticket) (s : State) : State :=
  let p := param pk 0 4
  if (s.part p).state = 0 then s.complete t statusNoResource 0 0
  else if (s.part p).state != 1 then s.complete t statusNotPermitted 0 0
  else if param pk 8 3 = 1 then
    (tableChange (.mirror p (paramBit pk 31)) s).complete t statusDone p (nat64 (param pk 31 1))
  else
    let mask := fld (pw pk 1) 0 32 &&& ctxMaskOf s p
    (setUserRead mask (paramBit pk 31) s).complete t statusDone p (nat64 mask)

def execGrant (w : Nat) (s : State) : Host.Outcome State Fault Refusal := next (issue 0x13 w grant s)

/-! ## BUNDLE_UNWRAP (R271, R292) -/

/-- An armed plan or armed Pilot stream uses the bundle. -/
def bundleInUse (s : State) (bundle : Nat) : Bool :=
  (s.wtp.slots.any fun x => x.state == 2 && match x.plan with | some p => p.bundle == bundle | none => false)
    || s.plt.streams.any fun x => bit x.word 63 && match pModel s (pSlotOf x.word) with
      | some m => m.bundle == bundle
      | none => false

/-- A BUNDLE_UNWRAP into the slot is under way. -/
def keyComing (s : State) (k : Nat) : Bool :=
  s.mem.jobs.any fun j => match j.purpose with | .binding _ i _ => i == k | _ => false

def keySlot (s : State) (k : Nat) : Option KeySlot := s.ilk.keys.getD k none

/-- Free of a key slot, which supersedes a held one (R267); the result names the bundle that it held. -/
def freeKeyNow (k : Nat) (t : Ticket) (s : State) : State :=
  let bundle := match keySlot s k with | some x => x.bundle | none => 0
  (freeKey k s).answer t statusDone k (nat64 bundle)

def unwrapInto (k : Nat) (pk : List Word) (t : Ticket) (s : State) : State :=
  addJob clsOther t.w false (pkAddr pk) 80 [] (.binding t k []) (s.startLong t)

def bundleUnwrap (pk : List Word) (t : Ticket) (s : State) : State :=
  let k := param pk 0 3
  let foreign := match keySlot s k with | some x => t.w != 16 && x.owner != t.w | none => false
  if s.ilk.testState || s.ilk.identity.isNone then s.complete t statusNotPermitted 0 0
  else if paramBit pk 3 then
    if foreign then s.complete t statusNotPermitted 0 0
    else match keySlot s k with
      | some x => if bundleInUse s x.bundle then defer (unitKey k) pk t s else freeKeyNow k t s
      | none => freeKeyNow k t s
  else if paramBit pk 4 then
    match (List.range 8).find? fun i => (keySlot s i).isNone && !keyComing s i with
    | some i => unwrapInto i pk t s
    | none => s.complete t statusNoResource 0 0
  else if foreign then s.complete t statusNotPermitted 0 0
  else if (keySlot s k).isSome || keyComing s k then s.complete t statusNoResource 0 0
  else unwrapInto k pk t s

def execBundleUnwrap (w : Nat) (s : State) : Host.Outcome State Fault Refusal := next (issue 0x82 w bundleUnwrap s)

/-- A binding record's fields (Table 15-6). -/
def bindingOk (b : List Byte) : Bool :=
  leAt b 0 2 == 0x4252 && leAt b 2 1 == 1 && decide (1 ≤ leAt b 3 1) && decide (leAt b 3 1 ≤ 64)

def wrapKey (b : List Byte) : Nat × Nat := (ofBe ((b.drop 8).take 32), ofBe ((b.drop 40).take 32))

/-- The entry of the block's own device_id. -/
def bindingEntry (b dev : List Byte) : Option (List Byte) :=
  ((List.range (leAt b 3 1)).map fun i => (b.drop (80 + 64 * i)).take 64).find? fun e => e.take 8 == dev

/-- The bundle key that an entry wraps. -/
def unwrapKey (d : Nat) (b dev entry : List Byte) : Option (List Byte) :=
  let okm := hkdf (b.take 80) (ecdh d (wrapKey b)) (ascii "ZUFEN BUNDLE v1" ++ (b.drop 4).take 4 ++ dev) 44
  gcmOpen (okm.take 32) (okm.drop 32) (b.take 8) ((entry.drop 8).take 32) ((entry.drop 40).take 16)

/-- The key is installed in the slot of all four decrypt stages (R182, R292); a track's withdrawal has zeroised
the slots that it held then (R186). -/
def installKey (k : Nat) (x : KeySlot) (s : State) : State :=
  let f := fun y : Track => { y with slotValid := y.slotValid ||| BitVec.ofNat 8 (2 ^ k) }
  { s with ilk := { s.ilk with keys := s.ilk.keys.set k (some x) }, trk := s.trk.map f }

/-- The whole record has been read: its checked head, and its members. -/
def openBinding (b : List Byte) (t : Ticket) (k : Nat) (s : State) : State :=
  let bundle := leAt b 4 4
  match s.ilk.identity with
  | none => s.finish t statusNotPermitted 0 0
  | some i =>
    match bindingEntry b i.deviceId with
    | none => loadFailed t 2 k s
    | some e =>
      match unwrapKey i.d b i.deviceId e with
      | none => loadFailed t 1 k s
      | some key =>
        if s.ilk.keys.any fun x => match x with | some x => x.bundle == bundle | none => false then
          s.finish t statusNoResource 0 0
        else (installKey k { bundle := bundle, key := key, owner := t.w } s).finish t statusDone k (nat64 bundle)

/-- A read of the binding record has ended: first its head, which is checked, then its members (R292). -/
def bindingJobEnd (j : Job) (t : Ticket) (k : Nat) (head : List Byte) (s : State) : State :=
  if j.err != 0 then accessFailed t j.err k s
  else if !head.isEmpty then openBinding (head ++ j.data) t k s
  else if !bindingOk j.data || !p256On (wrapKey j.data) then loadFailed t 1 k s
  else addJob clsOther t.w false (j.addr + 80) (64 * leAt j.data 3 1) [] (.binding t k j.data) s

/-! ## Entropy source (R289) -/

/-- The longest run that the repetition count test meets in raw bits, and the run at their end. -/
def longestRun : List Bool → Option (Bool × Nat) → Nat → Nat × Option (Bool × Nat)
  | [], cur, best => (best, cur)
  | b :: r, cur, best =>
    let n := match cur with | some (c, k) => if c = b then k + 1 else 1 | none => 1
    longestRun r (some (b, n)) (max best n)

def rawBits (raw : BitVec 1024) : List Bool := (List.range 1024).map raw.getLsbD

/-- The tests of 1024 raw bits: repetition count with cutoff 41, adaptive proportion with window 1024 and
cutoff 840. -/
def healthTest (run : Option (Bool × Nat)) (raw : BitVec 1024) : Bool × Bool × Option (Bool × Nat) :=
  let bits := rawBits raw
  let (best, last) := longestRun bits run 0
  let same := (bits.filter fun b => b == raw.getLsbD 0).length
  (decide (41 ≤ best), decide (840 ≤ same), last)

/-- A test failure: counted, the source failed, the fault raised. -/
def entropyFailed (rct apt : Bool) (s : State) : State :=
  let s := { s with ilk := { s.ilk with
    trng := 2, rctFails := if rct then sat 16 (s.ilk.rctFails + 1) else s.ilk.rctFails,
    aptFails := if apt then sat 16 (s.ilk.aptFails + 1) else s.ilk.aptFails, rctRun := none } }
  let s := if rct then s.raise 11 1 0 0 else s
  let s := if apt then s.raise 11 1 0 1 else s
  serveOpens s.exp.opens s

/-- One block of raw bits: tested, and conditioned into 256 bits of output. -/
def entropyBlock (raw : BitVec 1024) (s : State) : State :=
  let (rct, apt, last) := healthTest s.ilk.rctRun raw
  if rct || apt then entropyFailed rct apt s
  else
    let s := { s with ilk := { s.ilk with
      rctRun := last, blocks := wrap 32 (s.ilk.blocks + 1),
      entropy := s.ilk.entropy ++ sha256 (leBytes 128 raw.toNat) } }
    let s := serveMeter s
    serveOpens s.exp.opens s

def execEntropyBlock (raw : BitVec 1024) (s : State) : Host.Outcome State Fault Refusal :=
  next (when (s.core && s.ilk.trng == 1) (entropyBlock raw) s)

/-! ## Interrupt words (R284, R285) -/

def execIlkPintRc (p : Nat) (s : State) : Host.Outcome State Fault Refusal :=
  next (if s.core then
      (setRegData (nat64 (s.part p).pint.toNat) s).modPart p fun x => { x with pint := 0 }
    else setRegData 0 s)

def execIlkRintRc (s : State) : Host.Outcome State Fault Refusal :=
  next (if s.core then
      setRegData (nat64 s.ilk.rint.toNat) { s with ilk := { s.ilk with rint := 0 } }
    else setRegData 0 s)

end Sys2Proof.Machine
end

