-- ==== Sys2Proof/Machine/Epoch.lean ====
section
/-! DEFINITION. Opening an epoch: what every unit does at a boundary; COMMIT, EPOCH_SET, GOV_SET; the rate
monitor (chapters "Time base and epochs", "Asynchronous operation", "Command packets"). -/

namespace Sys2Proof.Machine

/-! ## COMMIT (R266) -/

/-- Bytes 0-7 of a fingerprint, byte 0 in [63:56]. -/
def fpWord (fp : List Byte) : Word := nat64 (ofBe (fp.take 8))

/-- The writes that wait become active as the next generation. Within an epoch the change has a switch-over point,
whose key the EPO record names (R116, Table 06-14). -/
def commitWrites (s : State) : State :=
  let ws := s.dsp.frozen ++ s.dsp.pending
  if ws.isEmpty then s
  else
    let s := activate ws { s with dsp := { s.dsp with pending := [], frozen := [] } }
    let s := forEach (List.range s.stn.length) followDefault s
    if s.ttb.running then
      s.modStat s.ttb.epoch fun x =>
        { x with lastGen := s.dsp.activeGen, fp := (fpWord s.dsp.fp).toNat, awaitKey := true, switchKey := none }
    else s

def answerCommit (t : Ticket) (s : State) : State := s.complete t statusDone s.dsp.activeGen (fpWord s.dsp.fp)

/-- Between the stamp of a master edge that opens a boundary and its T a COMMIT waits; it keeps its reservation. -/
def commitNow (_pk : List Word) (t : Ticket) (s : State) : State :=
  if s.ttb.announced.isSome then
    let s := s.modWin t.w fun x => { x with owes := x.owes + 1 }
    { s with dsp := { s.dsp with commitHeld := some t } }
  else answerCommit t (commitWrites s)

def execCommit (w : Nat) (s : State) : Host.Outcome State Fault Refusal := next (issue 0x03 w commitNow s)

/-- The token-line request that was running has ended: its reply is ready (R352). -/
def endBusy (rdata : Word) (x : TokenLine) : TokenLine :=
  match x.busy with
  | some (commit, q) =>
    { x with busy := none, reply := some { seq := q, status := 0, rdata := if commit then rdata else 0 } }
  | none => x

/-- A held COMMIT is carried out once no announced boundary waits. -/
def commitResume (s : State) : State :=
  match s.dsp.commitHeld with
  | some t =>
    if s.ttb.announced.isSome then s
    else
      let s := answerCommit t (commitWrites { s with dsp := { s.dsp with commitHeld := none } })
      let s := { s with tkl := endBusy (nat64 s.dsp.activeGen) s.tkl }
      if t.tkl then s else s.modWin t.w fun x => { x with owes := x.owes - 1 }
  | none => s

def execCommitHeldResume (s : State) : Host.Outcome State Fault Refusal := next (when s.core commitResume s)

/-! ## EPOCH_SET, GOV_SET -/

/-- The epoch configuration enters the pending generation; an earlier pending write of it gives way, and epoch_en
stays 1 once set (R84, R266). -/
def pendEpochCfg (word : Word) (s : State) : State × Word :=
  let w := clampEpochCfg word
  let w := put w 8 1 (b2n (bit w 8 || bit s.ttb.epochCfg 8))
  let other := fun e : EWrite => match e with | .epochCfg _ => false | _ => true
  (State.pendE { s with dsp := { s.dsp with pending := s.dsp.pending.filter other } } (.epochCfg w), w)

def epochSet (pk : List Word) (t : Ticket) (s : State) : State :=
  let (s, w) := pendEpochCfg (pw pk 1) s
  s.complete t statusDone 0 w

def execEpochSet (w : Nat) (s : State) : Host.Outcome State Fault Refusal := next (issue 0x05 w epochSet s)

/-- SBX_GOV_CFG after its clamps: the applied budget_rate is never above cap_rate (Table 03-5). -/
def clampGovCfg (w : Word) : Word :=
  let cap := clamp 20 90 (fld w 0 8)
  pack [(32, 1, fld w 32 1), (24, 8, clamp 50 100 (fld w 24 8)), (8, 8, min cap (clamp 20 90 (fld w 8 8))), (0, 8, cap)]

/-- The L fields apply at once, and budget_rate enters the pending generation; without hint_en every hint is 0
(R67, Table 03-5). -/
def writeGov (w : Word) (s : State) : State :=
  let now := put w 8 8 (fld s.sbx.govCfg 8 8)
  let s := { s with sbx := { s.sbx with govCfg := now, govHint := if bit w 32 then s.sbx.govHint else 0 } }
  s.pendE (.govBudget (fld w 8 8))

def govSet (pk : List Word) (t : Ticket) (s : State) : State :=
  let w := clampGovCfg (pw pk 1)
  (writeGov w s).complete t statusDone 0 w

def execGovSet (w : Nat) (s : State) : Host.Outcome State Fault Refusal := next (issue 0x04 w govSet s)

/-! ## The rate monitor (R60, R61) -/

/-- A value on a band edge belongs to the higher band (Table 03-3). -/
def vqBand (mv : Nat) : Nat := if mv < 650 then 0 else if mv < 725 then 1 else if mv < 800 then 2 else 3
def tjBand (c : Int) : Nat := if c < 0 then 0 else if c < 60 then 1 else if c < 105 then 2 else 3

def rateMeasure (rate : BitVec 8) (vqMv : Nat) (tjC : Int) (s : State) : State :=
  { s with sbx := { s.sbx with naturalRate := rate.toNat, vtBand := 4 * vqBand vqMv + tjBand tjC } }

def execRateMonitorMeasure (rate : BitVec 8) (vqMv : Nat) (tjC : Int) (s : State) : Host.Outcome State Fault Refusal :=
  next (when s.core (rateMeasure rate vqMv tjC) s)

/-! ## At T -/

/-- The fields of an epoch's EPO record that T ends (Table 06-14 W5 [63:59]). -/
def qualityOf (t : Timetable) : Nat :=
  packN [(3, 2, timeStateCode t.worst), (2, 1, b2n t.openedStepped),
    (0, 2, match t.openedKind with | .real => 0 | .internal => 1 | .synthetic => 2 | .restart => 3)]

/-- The status entry of an epoch that opens (R69): the fatal state marks every epoch (R315). -/
def openStat (s : State) (e t : Nat) : EpochStat :=
  { epoch := e, openedAt := t, closedAt := none, loss := false, late := false, fault := s.fatal, emitted := false,
    final := false, told := false, lastDue := 0, planned := 0, received := 0, firstGen := s.dsp.activeGen,
    lastGen := s.dsp.activeGen, switchKey := none, awaitKey := false, fp := (fpWord s.dsp.fp).toNat, quality := 0 }

/-- The ended epoch's entry closes, and the new one stands before it. -/
def turnStats (e t : Nat) (s : State) : State :=
  let q := qualityOf s.ttb
  let close := fun x : EpochStat =>
    if s.ttb.running && x.epoch == s.ttb.epoch then { x with closedAt := some t, quality := q } else x
  { s with ttb := { s.ttb with stats := (openStat s e t :: s.ttb.stats.map close).take 8 } }

/-- Block time steps forward at T: the offset is gone, stamps continue from T plus the step, and no measured
interval spans the step (R75). -/
def applyStep (b : Boundary) (t : Timetable) : Timetable :=
  if b.step && t.stepWait && decide (t.offset < 0) then
    let d := t.offset.natAbs
    { t with
      time := t.time + d, offset := 0, stepWait := false, stepCount := sat 16 (t.stepCount + 1), state := .locked,
      worst := .locked, openedStepped := true, lastReal := none, stepTo := b.t + d }
  else t

/-- The Timetable opens epoch `e` at T (R83, R84): the settings of the generation in force govern from here. -/
def openEpoch (e : Nat) (b : Boundary) (t : Timetable) : Timetable :=
  applyStep b (useEpochCfg { t with
    announced := none, armed := false, running := true, anyBoundary := true, anyEpoch := true, epoch := e,
    startT := if t.running then t.startT else b.t, startEpoch := if t.running then t.startEpoch else e,
    epochT := b.t, openedKind := b.kind, openedStepped := false, worst := t.state })

/-- Busy share of a track in the epoch just ended, in % (R67). -/
def busyShare (x : Track) : Nat := if x.refills = 0 then 0 else min 100 (x.busy * 100 / x.refills)

/-- GOV_HINT for the following epoch (R67). DESIGN CHOICE: the track that served a station is the one to which its
route leads at the boundary, also where the route changed within the ended epoch. -/
def hintsFor (s : State) (busy : List Nat) : BitVec 64 :=
  match s.wtp.cur with
  | none => 0
  | some p =>
    if bit s.sbx.govCfg 32 then
      BitVec.ofNat 64 (maskOf ((List.range 64).filter fun n =>
        let t := s.jct.route.getD n 0
        s.enumerated n && decide (fld s.sbx.govCfg 24 8 ≤ busy.getD t 0) && p.frac.getD t 0 == p.floor))
    else 0

/-- The governor's and the Signal Box's part: busy shares, hints, C occurrences already recorded. -/
def governorBoundary (e : Nat) (s : State) : State :=
  let busy := s.trk.map busyShare
  let keep := fun k : Nat × Nat × Nat => k.1 == s.ttb.epoch || k.1 == e
  { s with
    sbx := { s.sbx with busy := busy, govHint := hintsFor s busy, cPairs := s.sbx.cPairs.filter keep },
    trk := s.trk.map fun x =>
      { x with
        busy := 0, refills := 0, reread := [], katDue := x.state == 1, katLeft := if x.state = 1 then 512 else 0 } }

/-- ILK_UNOBS: stations parked, in reset, without their rail or failed at the boundary (R285). -/
def noteUnobserved (s : State) : State :=
  let off := fun n => s.enumerated n && (asParked (s.station n) || (s.station n).st == .failed)
  let m := BitVec.ofNat 64 (maskOf ((List.range 64).filter off))
  { s with ilk := { s.ilk with unobs := m, rint := if m = 0 then s.ilk.rint else s.ilk.rint ||| 2#4 } }

/-- WTP_FRAC of an epoch (Table 10-9). -/
def fracWord (p : EpochPlan) : Word :=
  pack ((List.range 4).flatMap fun t => [(16 * t + 15, 1, b2n (p.short.getD t false)), (16 * t, 11, p.frac.getD t 0)])

/-- Frame windows opened in an epoch end at the second boundary after it opened (R195, R207). -/
def endWindows (e t : Nat) (s : State) : State :=
  let f := fun w : FrameWin =>
    if w.opened && !w.closed && decide (2 ≤ (e + 2 ^ 32 - w.epoch) % 2 ^ 32) then
      { w with closeAt := some (match w.closeAt with | some c => min c t | none => t) }
    else w
  { s with wtp := { s.wtp with windows := s.wtp.windows.map f } }

/-- Decisions still needed: the newest four, and those whose coverage has not been told. -/
def keepOld (l : List EpochPlan) : List EpochPlan := l.take 4 ++ (l.drop 4).filter fun p => !p.told

/-- The prepared decision governs the epoch: fractions, reservations, masks and the applied budget_rate (R199,
R200, R214, Table 03-5). -/
def startPlan (s : State) : State :=
  match s.wtp.prep with
  | none => s
  | some p =>
    let s := { s with wtp := { s.wtp with
      prep := none, cur := some p, old := keepOld (s.wtp.cur.toList ++ s.wtp.old), frac := fracWord p } }
    writeMasks { s with sbx := { s.sbx with govCfg := put s.sbx.govCfg 8 8 p.budget } }

/-- Streams of the plans of an epoch. -/
def planStreams (p : EpochPlan) : List Nat := (p.plans.map fun x => x.2.stream).eraseDups

/-- Coverage shortfalls known when the epoch opens (R216). -/
def planShortfalls (e : Nat) (s : State) : State :=
  match s.wtp.cur with
  | none => s
  | some p =>
    let s := forEach ((List.range 4).filter fun t => p.short.getD t false) (fun t s =>
      shortfall 5 (0x40 + t) e 0 (streamsAt s fun n => routeOf p.inTracks n == some t) 16 s) s
    let s := forEach (p.plans.filter fun x => !hasFrames s x.2.stream) (fun x s =>
      shortfall 7 (0x80 + x.1) e 0 [x.2.stream] (s.wtp.slots.getD x.1 PlanSlot.reset).owner s) s
    if p.inTracks.isEmpty && !p.plans.isEmpty then shortfall 8 0xFF e 0 (planStreams p) 16 s else s

/-- Contexts of detaches whose T_d this boundary is. -/
def leavingNow (edge : Nat) (s : State) : BitVec 32 :=
  s.ilk.detaches.foldl (fun m d => if d.ends edge then m ||| d.mask else m) 0

/-- Boundary T opens epoch `e`: every unit does its boundary work on the owners at T. -/
def boundaryAt (b : Boundary) (s : State) : State :=
  let e := if s.ttb.running then wrap 32 (s.ttb.epoch + 1) else nextEpoch s.ttb
  let owners := (List.range 32).map s.ctxOwner
  let first := !s.ttb.running
  let leaving := leavingNow b.edge s
  let s := if first then s else weighBoundary b.t s.ttb.epoch owners s
  let s := governorBoundary e s
  let s := activate s.dsp.frozen { s with dsp := { s.dsp with frozen := [] } }
  let s := turnStats e b.t s
  let s := noteUnobserved (endWindows e b.t s)
  let s := forEach (List.range s.stn.length) (boundaryAtStation e b.t) { s with ttb := openEpoch e b s.ttb }
  let s := meterBoundary b.t e (detachBoundary b.edge b.t s)
  let s := returnContexts leaving (ledgerBoundary b.t e owners s)
  let s := settleCoverage (planShortfalls e (startPlan s))
  if first then takeOverOutputs b.t s else s

/-- An announced boundary whose time has come (R83). -/
def epochBoundary (s : State) : State :=
  match s.ttb.announced with
  | some b => if b.t ≤ s.now then boundaryAt b s else s
  | none => s

def execEpochBoundary (s : State) : Host.Outcome State Fault Refusal := next (when s.core epochBoundary s)

end Sys2Proof.Machine
end

