-- ==== Sys2Proof/Machine/SbxCmds.lean ====
section
/-! DEFINITION. What the Signal Box receives, what the fatal state ends, and the commands INJECT, SELFTEST and
SBX_READREC (chapter "Faults and safety reaction"). -/

namespace Sys2Proof.Machine

/-! ## The fatal state ends the checking (R315) -/

/-- The uncommitted sample sets of an item commit INCOMPLETE; those of an item that gathers keep their records until
its due time is known. -/
def stopItem (it : WorkItem) (s : State) : State :=
  if it.phase = 0 then forEach (it.samples.filter fun x => !x.done) (loseSample lostNone it) s
  else abandonItem lostNone it s

def stopFrame (f : PFrame) (s : State) : State := skipFrame f skipOther (releasePilot f s)

/-- Every sample set commits at once, and every Pilot frame not yet judged is skipped. -/
def stopChecking (s : State) : State :=
  let s := forEach s.wtp.items stopItem s
  settleCoverage (forEach (s.plt.frames.filter fun f => !f.judged) stopFrame s)

/-- The Signal Box applies an occurrence, with what a new fatal state entails. -/
def deliver (o : Occurrence) (s : State) : State × Nat :=
  let (s', k) := receive o s
  (if s'.fatal && !s.fatal then s'.containing o.sub o.engine stopChecking else s', k)

/-- The occurrence that arrived first is placed (R305). -/
def occurrenceReceive (s : State) : State :=
  match s.sbx.inbox with
  | [] => s
  | o :: r => (deliver o { s with sbx := { s.sbx with inbox := r } }).1

def execSbxOccurrenceReceive (s : State) : Host.Outcome State Fault Refusal := next (when s.core occurrenceReceive s)

/-- The output stage enters the fatal state by itself (R304). -/
def selfCheckMiscompare (s : State) : State := (deliver { occ 12 8 0 with time := s.now } s).1

def execSbxSelfCheckMiscompare (s : State) : Host.Outcome State Fault Refusal := next (when s.core selfCheckMiscompare s)

/-! ## SBX_READREC (R306) -/

def sbxReadrec (pk : List Word) (t : Ticket) (s : State) : State :=
  let k := param pk 0 5
  let ws := (List.range 8).map (frecWord k (s.frec k))
  let result := nat64 (fld (ws.getD 0 0) 0 32)
  let a := fld (pw pk 1) 0 48
  if a = 0 then s.complete t statusDone result.toNat (ws.getD 1 0)
  else addJob clsOther 16 true a 64 (wordsBytes ws) (.readrec t result (ws.getD 1 0)) (s.startLong t)

def execSbxReadrec (w : Nat) (s : State) : Host.Outcome State Fault Refusal := next (issue 0x91 w sbxReadrec s)

/-- The write of a record ends: reason 0x03 for a port error, 0x04 for a refusal. -/
def readrecJobEnd (j : Job) (t : Ticket) (result result2 : Word) (s : State) : State :=
  if j.err = 0 then s.finish t statusDone result.toNat result2
  else s.finish t statusFaulted (accessReason j.err * 2 ^ 24) result2

/-! ## INJECT (R316) -/

/-- Cause 0x0F of subsystem 12 replaces an undefined code. -/
def injectCause (sub cause : Nat) : Nat × Nat := if (causeClass sub cause).isSome then (sub, cause) else (12, 0x0F)

/-- The rows of an injected outcome; none for a fault source. -/
def injectRows (sub cause engine : Nat) : List Nat :=
  let r := 8 * (engine % 16)
  match sub, cause with
  | 8, 1 => [r] | 8, 2 => [r + 1] | 8, 3 => [r, r + 1] | 8, 4 => [r + 2]
  | 8, 5 => [r + 3] | 8, 6 => [r + 3] | 8, 7 => [r + 3] | 8, 8 => [r + 3]
  | 9, 1 => [r + 4] | 9, 2 => [r + 5] | 9, 3 => [r + 6]
  | 10, 1 => [0x8D] | 10, 2 => [0x8E]
  | _, _ => []

/-- The class floor: that of the cause, or of the rows that an outcome selects. -/
def injectFloor (s : State) (sub cause : Nat) (rows : List Nat) : Nat :=
  if rows.isEmpty then (causeClass sub cause).getD 2
  else rows.foldl (fun c r => max c (rowReaction s r).cls) 0

/-- The contexts that an injected station cause names, as a real one does (R122). -/
def injectCtxs (s : State) (sub cause engine : Nat) : List Nat :=
  if sub = 1 ∧ (cause = 1 ∨ cause = 2 ∨ cause = 6) ∧ engine < s.stn.length then [(s.station engine).curCtx] else []

/-- The owner that an injected outcome names: only that of a Weighbridge entry (R316). -/
def injectOwner (s : State) (sub engine : Nat) : Nat :=
  let w := s.wbr.sel.getD engine wbrSelReset
  if sub = 10 ∧ bit w 63 then selOwner w else 16

def injectOcc (s : State) (cls sub cause engine : Nat) : Occurrence :=
  let (sub, cause) := injectCause sub cause
  let rows := injectRows sub cause engine
  { occ sub cause engine 0 (injectCtxs s sub cause engine) with
    cls := max cls (injectFloor s sub cause rows), time := s.now, rows := rows, outcome := !rows.isEmpty,
    injected := true, owner := if rows.isEmpty then 16 else injectOwner s sub engine }

/-- Cause 0x06 of subsystem 7 withdraws the track that it names; no other unit contains anything. -/
def injectContain (o : Occurrence) (s : State) : State :=
  if o.sub == 7 && o.cause == 6 && (s.track o.engine).state == 1 && decide (o.engine < 4) then
    s.containing 7 o.engine (removeTrack o.engine wdInjected)
  else s

def inject (pk : List Word) (t : Ticket) (s : State) : State :=
  let o := injectOcc s (param pk 30 2) (param pk 24 6) (param pk 16 8) (param pk 8 8)
  let s := { s with sbx := { s.sbx with injected := wrap 32 (s.sbx.injected + 1) } }
  let (s, k) := deliver o (injectContain o s)
  s.complete t statusDone k 0

def execInject (w : Nat) (s : State) : Host.Outcome State Fault Refusal := next (issue 0xB0 w inject s)

/-! ## SELFTEST (R269, Table 14-8) -/

def selftest (pk : List Word) (t : Ticket) (s : State) : State :=
  let s := s.startLong t
  { s with dsp := { s.dsp with selftests := s.dsp.selftests ++ [(t, param pk 0 3)] } }

def execSelftest (w : Nat) (s : State) : Host.Outcome State Fault Refusal := next (issue 0xB1 w selftest s)

/-- The start-up test of the entropy source over 1024 raw bits, which releases no output (R289). -/
def entropyStart (raw : BitVec 1024) (s : State) : State × Bool :=
  let (rct, apt, last) := healthTest none raw
  if rct || apt then (entropyFailed rct apt s, false)
  else ({ s with ilk := { s.ilk with trng := 1, rctRun := last } }, true)

/-- Tracks in service whose decrypt stage failed. -/
def decryptFails (s : State) (ok : BitVec 4) : List Nat := (inService s).filter fun t => !ok.getLsbD t

/-- The tests of one SELFTEST end: each failure is a fault, and the result names the parts that passed. -/
def selftestEnd (hashOk : Bool) (decryptOk : BitVec 4) (raw : BitVec 1024) (t : Ticket) (scope : Nat) (s : State) :
    State :=
  let bad := if scope.testBit 1 then decryptFails s decryptOk else []
  let s := if scope.testBit 0 && !hashOk then s.raise 12 5 0 else s
  let s := forEach bad (fun k s => s.raise 7 7 k) s
  let (s, healthy) := if scope.testBit 2 then entropyStart raw s else (s, true)
  let passed := packN [(0, 1, b2n (scope.testBit 0 && hashOk)), (1, 1, b2n (scope.testBit 1 && bad.isEmpty)),
    (2, 1, b2n (scope.testBit 2 && healthy))]
  s.finish t (if passed = scope then statusDone else statusFaulted) passed 0

def selftestDone (hashOk : Bool) (decryptOk : BitVec 4) (raw : BitVec 1024) (s : State) : State :=
  match s.dsp.selftests with
  | [] => s
  | (t, scope) :: r => selftestEnd hashOk decryptOk raw t scope { s with dsp := { s.dsp with selftests := r } }

def execSelftestDone (hashOk : Bool) (decryptOk : BitVec 4) (entropyRaw : BitVec 1024) (s : State) :
    Host.Outcome State Fault Refusal :=
  next (when s.core (selftestDone hashOk decryptOk entropyRaw) s)

end Sys2Proof.Machine
end

