-- ==== Sys2Proof/Machine/Memory.lean ====
section
/-! DEFINITION. The events of the memory port, and which unit an access belongs to (R41, R303, R335-R338). -/

namespace Sys2Proof.Machine

/-- An access has ended, and the unit that made it goes on. -/
def jobEnd (j : Job) (s : State) : State :=
  match j.purpose with
  | .boot slot code => bootJobEnd j slot code s
  | .plan t k body => planJobEnd j t k body s
  | .model t k body => modelJobEnd j t k body s
  | .zones t i => zonesJobEnd j t i s
  | .binding t k head => bindingJobEnd j t k head s
  | .chunk t item pilot index body => chunkRead j t item pilot index body s
  | .snap k t => snapWritten k t j.err s
  | .drain sid => drainJobEnd j sid s
  | .session t => sessionJobEnd j t s
  | .readrec t r r2 => readrecJobEnd j t r r2 s
  | .evidence t bytes seq => evidenceJobEnd j t bytes seq s
  | .scrub p k => scrubJobEnd p k s

/-- Accesses that have ended leave the port, at most `n` of them. -/
def settleJobs : Nat → State → State
  | 0, s => s
  | n + 1, s => match takeEnded s with
    | some (j, s) => settleJobs n (jobEnd j s)
    | none => s

def afterPort (s : State) : State := settleJobs (s.mem.jobs.length + 1) s

def execMemCmdIssue (job : Nat) (s : State) : Host.Outcome State Fault Refusal :=
  next (when (s.core && s.drives) (fun s => afterPort (memCmdIssue job s)) s)

def execMemWriteBeat (s : State) : Host.Outcome State Fault Refusal :=
  next (when (s.core && s.drives) memWriteBeat s)

/-- While BLK_RST_N is low beats and responses are discarded (R42). -/
def execMemReadBeat (id : BitVec 8) (data : BitVec 1024) (last err : Bool) (s : State) :
    Host.Outcome State Fault Refusal :=
  next (when (s.core && s.drives) (fun s => afterPort (memReadBeat id.toNat data last err s)) s)

def execMemWriteResponse (id : BitVec 8) (err : Bool) (s : State) : Host.Outcome State Fault Refusal :=
  next (when (s.core && s.drives) (fun s => afterPort (memWriteResponse id.toNat err s)) s)

def execMemTimeout (id : BitVec 8) (s : State) : Host.Outcome State Fault Refusal :=
  next (when s.core (fun s => afterPort (memTimeout id.toNat s)) s)

/-- The crossing of a port holds work: 0 memory, 1 export; the register port's lies with its master. -/
def portHoldsWork (s : State) (port : Nat) : Bool :=
  match port with
  | 0 => s.mem.jobs.any Job.moreToIssue || !s.mem.txns.isEmpty || !s.mem.wbeats.isEmpty
  | 1 => s.exp.lanes.any fun l => l.cur.isSome || l.abort
  | p => p == 2

/-- A port's clock has made no edge for 100 µs (R303, Table 16-2); the export port's stall is timed (R344). -/
def clockStall (port : Nat) (s : State) : State :=
  let s := s.raise 0 1 port
  if port = 1 && s.exp.stallAt.isNone then { s with exp := { s.exp with stallAt := some s.now } } else s

def execPortClockStall (port : Nat) (s : State) : Host.Outcome State Fault Refusal :=
  next (when (s.core && portHoldsWork s port) (clockStall port) s)

end Sys2Proof.Machine
end

