-- ==== Sys2Proof/Machine/QApply.lean ====
section
/-! DEFINITION. Held Q-class writes apply when their unit goes idle (R267, R372, Table 20-6). -/

namespace Sys2Proof.Machine

/-- The unit of a held write has gone idle. -/
def unitIdle (s : State) (k : Nat) : Bool :=
  match k / 0x1000 with
  | 0 => sidingIdle (s.siding k)
  | 1 => !planBusy s (k % 0x1000)
  | 2 => !modelBusy s (k % 0x1000)
  | _ => match keySlot s (k % 0x1000) with
    | some x => !bundleInUse s x.bundle
    | none => true

/-- The held write acts on its unit, and its final completion follows. -/
def applyHeld (h : HeldQ) (s : State) : State :=
  let i := h.unit % 0x1000
  match h.unit / 0x1000 with
  | 0 => changeSiding h.ticket.w h.unit h.words h.ticket s
  | 1 => planLoadNow i h.words h.ticket s
  | 2 => pltLoadNow i h.words h.ticket s
  | _ => freeKeyNow i h.ticket s

def qWriteApply (k : Nat) (s : State) : State :=
  match takeFirst (fun h : HeldQ => h.unit == k) s.dsp.heldQ with
  | some (h, rest) => if unitIdle s k then applyHeld h (setHeld rest s) else s
  | none => s

def execQWriteApply (k : Nat) (s : State) : Host.Outcome State Fault Refusal := next (when s.core (qWriteApply k) s)

end Sys2Proof.Machine
end

