-- ==== Sys2Proof/Machine/Resets.lean ====
section
/-! DEFINITION. Resets, supplies, the fuse read, the start-up self-test, the station enumeration and the test
wrapper (chapters "Boundary ports and integration" and "Start-up and configuration"), and the register accesses
that touch only a view or a user field. -/

namespace Sys2Proof.Machine

/-! ## What a reset of the core macro resets (Table 02-12, Table 04-8, Table 17-8, R369) -/

def keepStation (x : Station) : Station := { Station.reset with inReset := x.inReset, vioOff := x.vioOff }

/-- Time, its discipline and the epoch number continue; epochs stop (Table 04-8). -/
def stopEpochs (t : Timetable) : Timetable :=
  { t with
    epochCfg := epochCfgReset, eff := epochCfgReset, running := false, armed := false, announced := none, synthRun := 0,
    edgeCount := 0, prevMaster := none, lastAccepted := none, lastReal := none, interval := none,
    stats := [] }

/-- The fuse shadow and the identity continue (R369). -/
def keepInterlock (x : Interlock) : Interlock :=
  { Interlock.reset with
    fuses := x.fuses, rootKey := x.rootKey, identity := x.identity, testState := x.testState }

/-- A lane in mid-frame ends the frame with the abort beat (R43). -/
def resetLane (l : Lane) : Lane :=
  if l.abort || l.cur.isSome then { l with next := none, frames := 0, abort := true, resets := true }
  else Lane.reset

/-- The core macro at its reset values; the station macros and the lanes as `stn` and `lane` leave them. -/
def resetCore (stn : Station → Station) (lane : Lane → Lane) (s : State) : State :=
  { s with
    ttb := stopEpochs s.ttb, stn := s.stn.map stn, jct := Junction.reset, myd := Yard.reset,
    ldg := Ledger.reset, sdg := Sidings.reset, trk := List.replicate 4 Track.reset, wtp := Checker.reset,
    plt := Pilot.reset, wbr := Weigh.reset, ilk := keepInterlock s.ilk, dsp := Dispatcher.reset,
    sbx := SignalBox.reset, mem := MemPort.reset,
    exp := { Export.reset with lanes := s.exp.lanes.map lane },
    tkl := { endBusy 0 s.tkl with auto := false, view := 0 },
    pins := { s.pins with regData := 0 } }

/-- The deltas that a station still holds reach the tallies, which keep counting (Table 17-8). -/
def tallyRest (n : Nat) (s : State) : State :=
  let x := s.station n
  let rest := x.link ++ (x.vacated ++ [x.active]).flatMap fun b => bankDeltas b []
  forEach (rest.filter fun d => !d.mark) (fun d s => forEach (mappedTallies s n d) (tallyDelta d) s) s

/-- Steps 6 on of Table 20-1 begin once the core runs and the fuses have been read. -/
def startCore (s : State) : State :=
  if s.core then
    let s := deliverMeter s
    if s.pins.fuseReq then s else startBoot s
  else s

/-- BLK_RST_N does not reach the station macros: they keep their configuration and count for the tallies until
they are enumerated anew (Table 02-12, Table 17-8, Table 20-4 step 4). -/
def blkRstAssert (s : State) : State :=
  if s.pins.blkRstN then resetCore id resetLane { s with pins := { s.pins with blkRstN := false } } else s

def execBlkRstAssert (s : State) : Host.Outcome State Fault Refusal := next (blkRstAssert s)

def blkRstRelease (s : State) : State :=
  if s.pins.blkRstN then s else startCore { s with pins := { s.pins with blkRstN := true } }

def execBlkRstRelease (s : State) : Host.Outcome State Fault Refusal := next (blkRstRelease s)

/-! ## The core supply (R52) -/

/-- Every output of the core macro holds its reset value; no lane can send an abort beat (R43), and the chain cells
lose the stations' addresses. -/
def vqOff (s : State) : State :=
  if s.pins.vqOn then resetCore keepStation (fun _ => Lane.reset) { s with pins := { s.pins with vqOn := false } } else s

def execVqOff (s : State) : Host.Outcome State Fault Refusal := next (vqOff s)

def vqOn (s : State) : State :=
  if s.pins.vqOn then s else startCore { s with pins := { s.pins with vqOn := true } }

def execVqOn (s : State) : Host.Outcome State Fault Refusal := next (vqOn s)

/-! ## Power-on (R363) -/

/-- Everything takes its reset value; the levels of the other pins stand. -/
def porstAssert (s : State) : State :=
  { State.reset with
    params := s.params, stn := s.stn.map keepStation,
    mtr := { Meter.reset with sealOpen := s.mtr.sealOpen, inReset := !s.pins.mtrRstN },
    pins := { Pins.reset with blkRstN := s.pins.blkRstN, mtrRstN := s.pins.mtrRstN, vqOn := s.pins.vqOn },
    free := s.free, pending := s.pending }

def execPorstAssert (s : State) : Host.Outcome State Fault Refusal := next (porstAssert s)

/-- The fuse read begins at word 0 (R45). -/
def porstRelease (s : State) : State :=
  if s.pins.porstN then s
  else { s with pins := { s.pins with porstN := true, fuseReq := true, fuseAddr := 0 } }

def execPorstRelease (s : State) : Host.Outcome State Fault Refusal := next (porstRelease s)

/-- Fuse word 8: the development fuse and the manufacturing lock (Table 02-6). -/
def devFuse (s : State) : Bool := (s.ilk.fuses.getD 8 0).getLsbD 0
def mfgLock (s : State) : Bool := (s.ilk.fuses.getD 8 0).getLsbD 1

def fuseKey (s : State) : List Byte := (s.ilk.fuses.take 8).flatMap fun w => leBytes 4 w.toNat

/-- The identity key pair (R286). -/
def deriveIdentity (key : List Byte) : Identity :=
  let okm := hkdf (List.replicate 32 0) key (ascii "ZUFEN IDENTITY P-256") 48
  let d := ofBe okm % (p256n - 1) + 1
  let q := (p256Base d).getD (0, 0)
  { d := d, qx := q.1, qy := q.2, deviceId := (sha256 (beBytes 32 q.1 ++ beBytes 32 q.2)).take 8 }

/-- The fuse read is done: the root key stands in its shadow, and the identity is derived where the lock is
set. -/
def fusesRead (s : State) : State :=
  let s := { s with pins := { s.pins with fuseReq := false, fuseAddr := 0 } }
  let key := fuseKey s
  let s := { s with ilk := { s.ilk with
    rootKey := key, identity := if mfgLock s then some (deriveIdentity key) else none } }
  if s.core then startBoot s else s

/-- A fuse word is sampled: words 16-63 are read and ignored. The read stands still while FUSE_REQ holds its reset
value, with VQ off and in the test state, so that it brings no key back there (R29, R56; log 108). -/
def fuseWord (data : BitVec 32) (s : State) : State :=
  let a := s.pins.fuseAddr
  let s := if a < 16 then { s with ilk := { s.ilk with fuses := s.ilk.fuses.set a data } } else s
  if a < 63 then { s with pins := { s.pins with fuseAddr := a + 1 } } else fusesRead s

def execFuseWordSample (data : BitVec 32) (s : State) : Host.Outcome State Fault Refusal :=
  next (when (s.drives && s.pins.fuseReq) (fuseWord data) s)

/-! ## The start-up self-test (Table 20-2) -/

/-- A failing word outside the tracks is a fault of its unit; the Ledger contains its own. DESIGN CHOICE: the details
of 5/0x02 and 6/0x02 name a sequence, which a tested word has not: they are 0. -/
def bistWord (w : BistWord) (s : State) : State :=
  match w.subsystem with
  | 1 => s.raise 1 (if w.multi then 2 else 1) w.engine w.word
  | 4 => if w.word < 1048576 then ledgerEcc w.word (if w.multi then .uncorrectable else .corrected) s else s
  | 5 => s.raise 5 (if w.multi then 2 else 1) w.engine 0
  | 6 => s.raise 6 (if w.multi then 2 else 1) w.engine 0
  | _ => s

/-- The tracks enter service, and those that failed are withdrawn (R186). -/
def bistTracks (bad : BitVec 4) (s : State) : State :=
  let s := { s with trk := s.trk.map fun x => { x with state := 1 } }
  forEach ((List.range 4).filter fun t => bad.getLsbD t) (fun t s => withdrawTrack t wdSelftest s) s

/-- Siding 255 and Root's window (step 8 of Table 20-1). -/
def openRoot (s : State) : State :=
  match placeSiding s 255 0 with
  | some base => (makeCompl 255 16 0 base s).modWin 16 fun x => { x with isOpen := true, compl := 255 }
  | none => s

def startupSelftest (r : BistResult) (s : State) : State :=
  let s := { s with ldg := { s.ldg with words := [] }, sdg := { s.sdg with pool := [] } }
  let s := if r.sbxOk then s else s.raise 12 8 0
  let s := forEach ((List.range 2).filter fun p => !r.conductorOk.getLsbD p) (fun p s => s.raise 12 4 p) s
  let s := forEach r.words bistWord s
  let s := bistTracks (r.arrayFail ||| r.decryptFail) s
  let (s, trngOk) := entropyStart r.entropyRaw s
  let bist : Bist :=
    { done := true, blocking := !r.sbxOk || r.conductorOk != 3#2,
      words := sat 16 (r.words.filter fun w => w.multi).length, sbxOk := r.sbxOk, trngOk := trngOk,
      condOk := r.conductorOk, decFail := r.decryptFail, arrFail := r.arrayFail }
  openRoot { s with dsp := { s.dsp with bist := bist, enumSent := true } }

def execStartupSelftestComplete (r : BistResult) (s : State) : Host.Outcome State Fault Refusal :=
  next (when (s.core && s.dsp.boot.state == 1 && !s.dsp.bist.done) (startupSelftest r) s)

/-! ## Station enumeration (R87, R88) -/

/-- The token passes a chain cell: the station has its address and every field at its reset value. -/
def addressStation (now : Nat) (x : Station) : Station :=
  { beginMeasure (keepStation x) with
    addressed := true, st := .running, lastHand := now, clearAt := now, lastEdge := now }

/-- CFG_FP of generation 0 follows enum_count: the blocks of the addressed stations now hold their reset values,
and the others still count as zero (R359, R377). -/
def refreshFp (s : State) : State :=
  if s.dsp.activeGen = 0 then { s with dsp := { s.dsp with fp := fingerprint s } } else s

/-- Every station field takes its reset value (R106): what a station has counted until then goes to the tallies.
A station that the token does not reach has no address. -/
def stationEnum (count : Nat) (s : State) : State :=
  let s := forEach (List.range s.stn.length) tallyRest s
  let s := { s with dsp := { s.dsp with enumCount := count, enumSent := false } }
  let give := fun n (x : Station) => if n < count then addressStation s.now x else keepStation x
  let s := { s with stn := s.stn.mapIdx give }
  refreshFp (if count = s.params.nStn then s else s.raise 1 7 0 (s.params.nStn * 256 + count))

def execStationEnumTokenReturn (count : BitVec 7) (s : State) : Host.Outcome State Fault Refusal :=
  next (when (s.core && s.dsp.enumSent) (stationEnum (min 64 count.toNat)) s)

/-! ## The test wrapper (R55, R56) -/

/-- Entry into the test state: every key but the signer key is zeroised, and the meter writes its audit record. -/
def enterTest (code : Nat) (s : State) : State :=
  let s := forEach (List.range 17) (fun o s => if sessionBusy (s.session o) then dropSession o s else s) s
  let s := forEach (List.range 8) freeKey s
  let zero := fun i : Identity => { i with d := 0 }
  let s := { s with ilk := { s.ilk with
    testState := true, rootKey := List.replicate 32 0, identity := s.ilk.identity.map zero,
    fuses := List.replicate 8 0 ++ s.ilk.fuses.drop 8 } }
  audit 9 code s

def destroyedLWord (w : Word) : LWord :=
  { count := BitVec.ofNat 48 (fld w 0 48), lost := bit w 50, ovf := bit w 49, chain := bit w 48,
    owner := BitVec.ofNat 4 (fld w 52 4) }

/-- ZF_MBIST destroys what the SRAMs hold: the Ledger and the siding pool hold free values. The contents of the other
SRAMs stand, which no output shows: the test state holds every output until PORST_N, which resets them (R56; DESIGN
CHOICE, log 126). -/
def destroyMemory (s : State) : State :=
  let words := (List.range 1048576).foldl (fun l i =>
    store LWord.zero i (destroyedLWord (Config.destroyedWord s.free i)) l) []
  let pool := (List.range 1048576).foldl (fun l i => store 0 i (Config.destroyedWord (s.free + 1) i) l) []
  ({ s with ldg := { s.ldg with words := words }, sdg := { s.sdg with pool := pool } }).draw.draw

def wrapperUpdate (code : BitVec 8) (s : State) : State :=
  let ran := s.core
  let s := { s with pins := { s.pins with wir := code } }
  let s := if functionalWir code.toNat || s.ilk.testState then s else enterTest code.toNat s
  let s := if code.toNat = 0x11 then destroyMemory s else s
  if ran then s else deliverMeter s

def execWrapperInstructionUpdate (code : BitVec 8) (s : State) : Host.Outcome State Fault Refusal :=
  next (when s.pins.porstN (wrapperUpdate code) s)

/-! ## Register accesses -/

/-- A read of STN_VIEW_SEL[n] (R375). -/
def stnViewSelRead (n : Nat) (s : State) : State :=
  if s.core then
    setRegData (if n < s.dsp.enumCount then stnStatus (s.station n) else 0)
      { s with dsp := { s.dsp with view := n } }
  else setRegData 0 s

def execStnViewSelRead (n : Nat) (s : State) : Host.Outcome State Fault Refusal := next (stnViewSelRead n s)

/-- LDG_UREAD_SEL is the one user field; a write to any other register is ignored (R3, R21). One of a whole word
to the Sealed Meter page is refused with a record while the meter is not open (R323). -/
def registerWrite (addr : Nat) (word : Word) (be : BitVec 8) (s : State) : State :=
  let p := (addr - 0x200000) / 0x10000
  if 0x200000 ≤ addr ∧ p < 16 ∧ addr % 0x10000 = 0 then
    let w := mergeBytes (s.ldg.userSel.getD p 0) word be
    { s with ldg := { s.ldg with userSel := s.ldg.userSel.set p (pack [(0, 21, fld w 0 21)]) } }
  else if addr / 0x10000 = 0x30 then meterWrite be id s
  else s

def execRegisterWriteOther (addr : BitVec 22) (word : BitVec 64) (be : BitVec 8) (s : State) :
    Host.Outcome State Fault Refusal :=
  next (when s.core (registerWrite addr.toNat word be) s)

end Sys2Proof.Machine
end

