-- ==== Sys2Proof/Machine/TokenLine.lean ====
section
/-! DEFINITION. The token line: frames, enumeration, observe and take-over, WRITE under the field classes, the
forced safe state (chapter "Management chain", R22-R24). -/

namespace Sys2Proof.Machine

/-! ## Frames (R349-R352) -/

def opNop : Nat := 0x00
def opEnum : Nat := 0x01
def opRead : Nat := 0x02
def opWrite : Nat := 0x03
def opReadCnt : Nat := 0x04
def opReadCntHi : Nat := 0x05
def opTake : Nat := 0x08
def opGive : Nat := 0x09
def opForce : Nat := 0x0A
def opRelease : Nat := 0x0B
def opCommit : Nat := 0x0C
def opClearRec : Nat := 0x0D
def opSetver : Nat := 0x0E

def tklOps : List Nat := [0, 1, 2, 3, 4, 5, 8, 9, 0xA, 0xB, 0xC, 0xD, 0xE]
def broadcastOps : List Nat := [opNop, opForce, opRelease, opSetver]

/-- Bits of a field in transmission order, most significant first. -/
def msbFirst (n v : Nat) : List Bool := (List.range n).map fun i => v.testBit (n - 1 - i)

/-- CRC-32C as R350 gives it: not reflected, all ones at the start, complemented. -/
def tklCrc (bits : List Bool) : Nat :=
  let step := fun (r : Nat) (b : Bool) =>
    let top := r.testBit 31 != b
    wrap 32 (2 * r) ^^^ (if top then 0x1EDC6F41 else 0)
  bits.foldl step 0xFFFFFFFF ^^^ 0xFFFFFFFF

/-- Bits 1-111 of a frame (Table 19-1). -/
def queryBits (f : TklFrame) : List Bool :=
  msbFirst 3 f.ver.toNat ++ [f.bcast] ++ msbFirst 5 f.dst.toNat ++ msbFirst 6 f.op.toNat ++ msbFirst 8 f.seq.toNat
    ++ msbFirst 24 f.arg.toNat ++ msbFirst 64 f.wdata.toNat

def crcOk (f : TklFrame) : Bool := f.crcQ.toNat == tklCrc (queryBits f)

/-- A reply written into a frame, with crc_r over bits 144-223. -/
def replyTo (f : TklFrame) (r : TklReply) : TklFrame :=
  { f with
    rspSeq := BitVec.ofNat 8 r.seq, rspStatus := BitVec.ofNat 8 r.status, rdata := r.rdata,
    crcR := BitVec.ofNat 32 (tklCrc (msbFirst 8 r.seq ++ msbFirst 8 r.status ++ msbFirst 64 r.rdata.toNat)) }

/-- The token line works: powered, in no reset, and past the fuse read (Table 20-1 step 5, R353). -/
def tklUp (s : State) : Bool :=
  s.pins.porstN && s.pins.vqOn && functionalWir s.pins.wir.toNat && !s.pins.fuseReq

/-- SETVER is accepted in every version spoken (R360). -/
def verOk (s : State) (f : TklFrame) : Bool :=
  f.ver.toNat == s.tkl.verOp || (f.op.toNat == opSetver && (f.ver == 1#3 || f.ver == 2#3))

def toUs (s : State) (f : TklFrame) : Bool :=
  s.tkl.addrValid && !f.bcast && f.dst.toNat == s.tkl.addr && f.op.toNat != opEnum

/-- ENUM goes to the unaddressed instance that holds the token (R353). -/
def enumForUs (s : State) (f : TklFrame) (token : Bool) : Bool :=
  f.op.toNat == opEnum && !f.bcast && !s.tkl.addrValid && token

/-- The instance accepts the frame (R350, R351). -/
def accepts (s : State) (f : TklFrame) : Bool :=
  tklUp s && crcOk f && verOk s f
    && ((toUs s f && f.rspStatus == 0xFF#8) || (f.bcast && broadcastOps.contains f.op.toNat))

def setTkl (f : TokenLine → TokenLine) (s : State) : State := { s with tkl := f s.tkl }

/-- What a request does: the state after it, its reply status and its reply data. -/
abbrev TklAct := TklFrame → State → State × Nat × Word

/-- An addressed request while none is running: the frame takes the reply to the request before, and the
request acts (R352). -/
def answerFrame (act : TklAct) (f : TklFrame) (s : State) : State :=
  let out := match s.tkl.reply with | some r => replyTo f r | none => f
  let (s, status, rdata) := act f s
  setTkl (fun x => { x with out := some out, reply := some { seq := f.seq.toNat, status := status, rdata := rdata } }) s

/-- An addressed frame while a request is running: PENDING, and only FORCE and RELEASE act (R352). -/
def pendingFrame (act : TklAct) (q : Nat) (f : TklFrame) (s : State) : State :=
  let s := setTkl (fun x => { x with out := some (replyTo f { seq := q, status := 0x10, rdata := 0 }) }) s
  if f.op.toNat = opForce ∨ f.op.toNat = opRelease then (act f s).1 else s

/-- A frame that the instance accepts. -/
def acceptFrame (act : TklAct) (f : TklFrame) (s : State) : State :=
  if f.bcast then setTkl (fun x => { x with out := some f }) (act f s).1
  else
    let s := setTkl (fun x => { x with lastAt := s.now }) s
    match s.tkl.busy with
    | some (_, q) => pendingFrame act q f s
    | none => answerFrame act f s

/-- A row of Table 19-2: it acts on an accepted frame that carries its code. -/
def tklRow (op : Nat) (act : TklAct) (f : TklFrame) (s : State) : State :=
  if accepts s f && f.op.toNat == op then acceptFrame act f s else s

/-- An addressed frame that already carries a reply: another instance has the same address (R351). -/
def clashes (s : State) (f : TklFrame) : Bool := crcOk f && verOk s f && toUs s f && f.rspStatus != 0xFF#8

/-- A frame that is not accepted goes on unchanged, counted where its CRC or version is wrong. An accepted frame
with an undefined code is answered UNKNOWN_OP. -/
def frameForward (f : TklFrame) (s : State) : State :=
  if accepts s f then
    if tklOps.contains f.op.toNat then s else acceptFrame (fun _ s => (s, statusUnknownOp, 0)) f s
  else
    setTkl (fun x =>
      { x with
        out := some f,
        crcErr := if crcOk f then x.crcErr else sat 16 (x.crcErr + 1),
        verRej := if crcOk f && !verOk s f then sat 16 (x.verRej + 1) else x.verRej,
        clash := x.clash || clashes s f }) s

def execTklFrameForward (f : TklFrame) (s : State) : Host.Outcome State Fault Refusal :=
  next (when (tklUp s) (frameForward f) s)

/-! ## NOP, ENUM, SETVER -/

def execTklNop (f : TklFrame) (s : State) : Host.Outcome State Fault Refusal :=
  next (tklRow opNop (fun _ s => (s, 0, tklStatus s)) f s)

/-- The reply of ENUM: the versions spoken and BLK_VERSION (Table 19-2). -/
def enumReply : Word := pack [(36, 3, 2), (32, 3, 1), (0, 32, blkVersion)]

def takeAddress (f : TklFrame) (s : State) : State :=
  setTkl (fun x =>
    { x with
      addrValid := true, addr := f.dst.toNat, out := some f, lastAt := s.now,
      reply := some { seq := f.seq.toNat, status := 0, rdata := enumReply } }) s

def tklEnum (f : TklFrame) (token : Bool) (s : State) : State :=
  if f.op.toNat != opEnum || !crcOk f || !verOk s f then s
  else if enumForUs s f token then takeAddress f s
  else setTkl (fun x => { x with out := some f }) s

def execTklEnum (f : TklFrame) (tokenIn : Bool) (s : State) : Host.Outcome State Fault Refusal :=
  next (when (tklUp s) (tklEnum f tokenIn) s)

/-- The argument of SETVER, clamped (R360). -/
def setver (f : TklFrame) (s : State) : State × Nat × Word :=
  let v := clamp 1 2 (f.arg.toNat % 8)
  (setTkl (fun x => { x with verOp := v }) s, 0, nat64 v)

def execTklSetver (f : TklFrame) (s : State) : Host.Outcome State Fault Refusal := next (tklRow opSetver setver f s)

/-! ## Observe (R354, R376) -/

/-- The byte address of a READ or WRITE. -/
def tklAddr (f : TklFrame) : Nat := f.arg.toNat / 8 % 2 ^ 19 * 8

/-- The read of a word; one of the Sealed Meter's tally store or audit ring is checked (R325, Table 17-7). -/
def readChecked (view a : Nat) (ecc : Ecc) (s : State) : State × Nat × Word :=
  let o := a % 0x10000
  if !s.core || a / 0x10000 != 0x30 then (s, 0, readReg s view a)
  else match slotAt o 0x1800 8 256, slotAt o 0x2000 8 2048 with
    | some t, _ => let s := tallyEcc t ecc s; (s, 0, readReg s view a)
    | none, some _ => let (s', w) := auditEcc ecc (readReg s view a) s; (s', 0, w)
    | none, none => (s, 0, readReg s view a)

def execTklRead (c : CheckedFrame) (s : State) : Host.Outcome State Fault Refusal :=
  next (tklRow opRead (fun f s => readChecked (fld f.wdata 0 6) (tklAddr f) c.ecc s) c.frame s)

/-- READ_CNT of an even index latches the odd word (R142, R354). -/
def readCnt (ecc : PairEcc) (f : TklFrame) (s : State) : State × Nat × Word :=
  let i := f.arg.toNat % 2 ^ 20
  if s.core then
    let s := ledgerEcc i ecc.ecc s
    let s := if i % 2 = 0 then
        let s := ledgerEcc (i + 1) ecc.eccHi s
        setTkl (fun x => { x with oddWord := readCounter s (i + 1) }) s
      else s
    (s, 0, readCounter s i)
  else (s, 0, 0)

def execTklReadCnt (f : TklFrame) (ecc : PairEcc) (s : State) : Host.Outcome State Fault Refusal :=
  next (tklRow opReadCnt (readCnt ecc) f s)

/-- READ_CNT_HI is not defined in version 1. -/
def readCntHi (f : TklFrame) (s : State) : State × Nat × Word :=
  if f.ver = 1#3 then (s, statusUnknownOp, 0) else (s, 0, s.tkl.oddWord)

def execTklReadCntHi (f : TklFrame) (s : State) : Host.Outcome State Fault Refusal :=
  next (tklRow opReadCntHi readCntHi f s)

/-! ## Take-over (R22, R23, R355) -/

/-- TAKE waits for the command that the Dispatcher is executing: a COMMIT that is held. DESIGN CHOICE (R22, R355): a
TAKE received while the core macro is in reset or off is answered DONE and begins no take-over. -/
def take (f : TklFrame) (s : State) : State × Nat × Word :=
  if s.core then
    let first := !s.dsp.takeover
    let s := { s with dsp := { s.dsp with takeover := true } }
    if first && s.dsp.commitHeld.isSome then
      (setTkl (fun x => { x with busy := some (false, f.seq.toNat) }) s, 0x10, 0)
    else (s, 0, 0)
  else (s, 0, 0)

def execTklTake (f : TklFrame) (s : State) : Host.Outcome State Fault Refusal := next (tklRow opTake take f s)

def endTakeover (s : State) : State :=
  setTkl (fun x => { x with view := 0 }) { s with dsp := { s.dsp with takeover := false } }

/-- A take-over request outside take-over is NOT_PERMITTED. -/
def inTakeover (act : TklAct) (f : TklFrame) (s : State) : State × Nat × Word :=
  if s.dsp.takeover then act f s else (s, statusNotPermitted, 0)

def give (_f : TklFrame) (s : State) : State × Nat × Word :=
  if s.tkl.auto then (s, statusNotPermitted, 0) else (endTakeover s, 0, 0)

def execTklGive (f : TklFrame) (s : State) : Host.Outcome State Fault Refusal :=
  next (tklRow opGive (inTakeover give) f s)

def leaseMs (s : State) : Nat := fld s.tkl.cfg 0 16

def leaseExpire (s : State) : State :=
  if s.dsp.takeover && !s.tkl.auto && leaseMs s != 0 && decide (s.tkl.lastAt + leaseMs s * 1000000 ≤ s.now) then
    endTakeover s
  else s

def execTakeoverLeaseExpire (s : State) : Host.Outcome State Fault Refusal := next (when s.core leaseExpire s)

/-! ## The forced safe state (R24, R314, R357) -/

/-- FORCE: SAFE_REQ, and the forced record. A block whose boot failed makes no record (R366). -/
def forceSafe (s : State) : State :=
  if !s.core || s.sbx.forced then s
  else
    let s := { s with sbx := { s.sbx with forced := true } }
    if s.dsp.boot.state = 2 then refresh s
    else
      let o : Occurrence := { occ 12 7 0 with time := s.now, forced := true }
      refresh (placeNew o (reactionOf s o) (s.markFault s.now)).1

def execTklForce (f : TklFrame) (s : State) : Host.Outcome State Fault Refusal :=
  next (tklRow opForce (fun _ s => (forceSafe s, 0, 0)) f s)

/-- The forced record leaves force; a record that it had to join is forced no longer. -/
def unforceRec (now : Nat) (r : FRec) : FRec :=
  if r.valid && r.forced && r.inForce then
    if r.sub = 12 ∧ r.cause = 7 then { r with inForce := false, exitTime := now } else { r with forced := false }
  else r

def releaseSafe (s : State) : State :=
  if s.sbx.forced then
    refresh { s with sbx := { s.sbx with forced := false, recs := s.sbx.recs.map (unforceRec s.now) } }
  else s

def execTklRelease (f : TklFrame) (s : State) : Host.Outcome State Fault Refusal :=
  next (tklRow opRelease (fun _ s => (releaseSafe s, 0, 0)) f s)

/-! ## COMMIT and CLEAR_REC -/

/-- The sender of a request of the token line: no window, no completion (R356). -/
def tklTicket : Ticket := { w := 16, seq := 0, op := 0, reply := false, later := false, tkl := true }

/-- COMMIT as Root's, with the hold of R266. -/
def tklCommit (f : TklFrame) (s : State) : State × Nat × Word :=
  if s.ttb.announced.isSome || s.dsp.commitHeld.isSome then
    let t := s.dsp.commitHeld.getD tklTicket
    let s := { s with dsp := { s.dsp with commitHeld := some t } }
    (setTkl (fun x => { x with busy := some (true, f.seq.toNat) }) s, 0x10, 0)
  else
    let s := commitWrites s
    (s, 0, nat64 s.dsp.activeGen)

def execTklCommit (f : TklFrame) (s : State) : Host.Outcome State Fault Refusal :=
  next (tklRow opCommit (inTakeover tklCommit) f s)

/-- CLEAR_REC as SBX_CLEAR (R313). -/
def clearRec (f : TklFrame) (s : State) : State × Nat × Word :=
  let (s, n) := clearSlots (if f.arg.getLsbD 5 then List.range 32 else [f.arg.toNat % 32]) s
  (s, 0, nat64 n)

def execTklClearRec (f : TklFrame) (s : State) : Host.Outcome State Fault Refusal :=
  next (tklRow opClearRec (inTakeover clearRec) f s)

/-! ## WRITE (R356, R376) -/

/-- What a written word acts as. -/
inductive WriteKind where
  | reg
  | partCreate (p : Nat)
  | partDetach (p : Nat)
  | mirror (p : Nat)
  | window (o k : Nat) (isSize : Bool)
  | sdgCreate (sid : Nat)
  | sdgFree (sid : Nat)
  | view (n : Nat)
  deriving DecidableEq, Repr

/-- ILK_PART[p] stands in the Interlocking block and on the privileged page of p. -/
def partAt (a : Nat) : Option Nat :=
  if 0x1900 ≤ a ∧ a < 0x1A00 ∧ a % 16 = 0 then some ((a - 0x1900) / 16)
  else if 0x100000 ≤ a ∧ a < 0x200000 ∧ a % 0x10000 = 0x100 then some ((a - 0x100000) / 0x10000)
  else none

/-- ILK_WIN_BASE and ILK_WIN_SIZE of an owner's window, likewise. -/
def windowAt (a : Nat) : Option (Nat × Nat × Bool) :=
  if 0x1A00 ≤ a ∧ a < 0x1E40 then some ((a - 0x1A00) / 64, (a - 0x1A00) / 16 % 4, a / 8 % 2 == 1)
  else if 0x100000 ≤ a ∧ a < 0x200000 ∧ 0x120 ≤ a % 0x10000 ∧ a % 0x10000 < 0x160 then
    some ((a - 0x100000) / 0x10000, (a % 0x10000 - 0x120) / 16, a / 8 % 2 == 1)
  else none

/-- The siding whose SDG_CFG stands at an address. -/
def sdgCfgAt (a : Nat) : Option Nat :=
  if 0x8000 ≤ a ∧ a < 0xC000 ∧ a % 0x40 = 0 then some ((a - 0x8000) / 0x40) else none

def partKind (s : State) (p : Nat) (w : Word) : WriteKind :=
  if fld w 62 2 = 1 ∧ (s.part p).state = 0 then .partCreate p
  else if fld w 62 2 = 2 ∧ (s.part p).state = 1 then .partDetach p
  else if bit w 61 != (s.part p).mirror then .mirror p
  else .reg

def sdgKind (s : State) (sid : Nat) (w : Word) : WriteKind :=
  let st := (s.siding sid).state
  if fld w 62 2 = 1 ∧ st = 0 then .sdgCreate sid
  else if fld w 62 2 = 0 ∧ (st = 1 ∨ st = 2) then .sdgFree sid
  else .reg

def writeKind (s : State) (a : Nat) (w : Word) : WriteKind :=
  match partAt a, windowAt a, sdgCfgAt a with
  | some p, _, _ => partKind s p w
  | _, some (o, k, z), _ => .window o k z
  | _, _, some sid => sdgKind s sid w
  | _, _, _ => if 0x2C00 ≤ a ∧ a < 0x2E00 then .view ((a - 0x2C00) / 8) else .reg

/-- A WRITE answers with the word read back. -/
def readBack (f : TklFrame) (status : Nat) (s : State) : State × Nat × Word :=
  (s, status, readReg s s.tkl.view (tklAddr f))

/-- A WRITE of the kind that its row acts on, in take-over. -/
def writeRow (pick : WriteKind → Option (State → State)) (f : TklFrame) (s : State) : State :=
  match pick (writeKind s (tklAddr f) f.wdata) with
  | some act => tklRow opWrite (inTakeover fun f s => readBack f 0 (act s)) f s
  | none => s

/-! ### ILK_PART and the windows -/

/-- A changed mirror_en acts as GRANT right 0b001. -/
def writeMirror (p : Nat) (on : Bool) (s : State) : State :=
  let (state, mirror) := partSoon s p
  if on = mirror || state != 1 then s else tableChange (.mirror p on) s

def writePartCreate (p : Nat) (w : Word) (s : State) : State :=
  writeMirror p (bit w 61) (createNow p 0 (fld w 0 32) tklTicket s)

def execTklWritePartCreate (f : TklFrame) (s : State) : Host.Outcome State Fault Refusal :=
  next (writeRow (fun k => match k with | .partCreate p => some (writePartCreate p f.wdata) | _ => none) f s)

def writePartDetach (p : Nat) (w : Word) (s : State) : State :=
  writeMirror p (bit w 61) (detachNow p tklTicket s)

def execTklWritePartDetach (f : TklFrame) (s : State) : Host.Outcome State Fault Refusal :=
  next (writeRow (fun k => match k with | .partDetach p => some (writePartDetach p f.wdata) | _ => none) f s)

def execTklWriteMirror (f : TklFrame) (s : State) : Host.Outcome State Fault Refusal :=
  next (writeRow (fun k => match k with | .mirror p => some (writeMirror p (bit f.wdata 61)) | _ => none) f s)

/-- WINDOW_SET with the other register of the window as it stands. -/
def writeWindow (o k : Nat) (isSize : Bool) (w : Word) (s : State) : State :=
  let x := (s.ilk.win.getD o []).getD k Window.reset
  let base := if isSize then x.base else w
  let size := if isSize then w else x.size
  if barredPart s o then s
  else setWindow o k (fld base 0 48) (fld size 0 48) (bit base 0) (bit base 1) s

def execTklWriteWindow (f : TklFrame) (s : State) : Host.Outcome State Fault Refusal :=
  next (writeRow (fun k => match k with | .window o k z => some (writeWindow o k z f.wdata) | _ => none) f s)

/-! ### Sidings -/

/-- The SDG_CREATE packet of a written SDG_CFG, with the ring registers `ring`. -/
def sdgPacket (sid : Nat) (w ring : Word) (free : Bool) : List Word :=
  [pack [(24, 8, sid), (20, 4, fld w 44 4), (18, 2, fld w 60 2), (17, 1, fld w 57 1), (5, 5, fld w 48 5), (4, 1, b2n free)],
    pack [(7, 41, fld ring 7 41)], pack [(0, 5, fld ring 0 5)]]

def cfgOf (s : State) (sid : Nat) : Word := sdgCfgWord s sid
def ringOf (s : State) (sid : Nat) : Word := sdgReg s sid 0x30

/-- The Q fields of a live siding change, or the write is held. -/
def changeQ (sid : Nat) (pk : List Word) (s : State) : State :=
  if sidingIdle (s.siding sid) then changeSiding 16 sid pk tklTicket (dropHeld (unitSiding sid) s)
  else defer (unitSiding sid) pk tklTicket s

def qStatus (s : State) (sid : Nat) : Nat :=
  if isLive (s.siding sid) && !sidingIdle (s.siding sid) then statusDeferred else statusDone

def writeSdgCreate (sid : Nat) (w : Word) (s : State) : State :=
  createSiding 16 sid (sdgPacket sid w (ringOf s sid) false) tklTicket s

def execTklWriteSdgCreate (f : TklFrame) (s : State) : Host.Outcome State Fault Refusal :=
  next (writeRow (fun k => match k with | .sdgCreate sid => some (writeSdgCreate sid f.wdata) | _ => none) f s)

def sdgFreeAct (sid : Nat) (f : TklFrame) (s : State) : State × Nat × Word :=
  readBack f (qStatus s sid) (changeQ sid (sdgPacket sid f.wdata (ringOf s sid) true) s)

def execTklWriteSdgFree (f : TklFrame) (s : State) : Host.Outcome State Fault Refusal :=
  next (match writeKind s (tklAddr f) f.wdata with
    | .sdgFree sid => tklRow opWrite (inTakeover (sdgFreeAct sid)) f s
    | _ => s)

/-! ### The station view -/

def execTklWriteStnViewSel (f : TklFrame) (s : State) : Host.Outcome State Fault Refusal :=
  next (writeRow (fun k => match k with | .view n => some (setTkl fun x => { x with view := n }) | _ => none) f s)

/-! ### Every other register -/

/-- The words of STN_CONFIG of a station as the pending generation leaves them. -/
def stnSoon (s : State) (n : Nat) : Word × Word × Word × Word :=
  let x := s.station n
  (s.dsp.frozen ++ s.dsp.pending).foldl (fun a e => match e with
    | .stnCfg k c lo hi acc => if k = n then (c, lo, hi, acc) else a
    | _ => a) (x.cfg, x.evselLo, x.evselHi, x.accFilt)

/-- A word at offset `o` of a station block (Table 05-2). -/
def writeStation (n o : Nat) (w : Word) (s : State) : State :=
  let (cfg, lo, hi, acc) := stnSoon s n
  if s.dsp.enumCount ≤ n then s
  else if o = 0x00 then
    let c := clampStnCfg (s.params.accTapEn.getLsbD n) w
    (s.modStation n fun x => { x with cfg := put x.cfg 36 8 (fld c 36 8) }).pendE (.stnCfg n c lo hi acc)
  else if o = 0x08 then s.pendE (.stnCfg n cfg (clampEvsel w) hi acc)
  else if o = 0x10 then s.pendE (.stnCfg n cfg lo (clampEvsel w) acc)
  else if o = 0x18 then s.pendE (.stnCfg n cfg lo hi w)
  else if 0x40 ≤ o ∧ o < 0x140 then s.pendE (.stnReg n o (clampTagmap w))
  else if 0x140 ≤ o ∧ o < 0x1C0 then s.pendE (.stnReg n o (clampThresh w))
  else if 0x1C0 ≤ o ∧ o < 0x3C0 then
    match (o - 0x1C0) % 0x40 with
    | 0x00 => s.pendE (.stnReg n o (clampWinAddr w))
    | 0x08 => s.pendE (.stnReg n o (clampWinAddr w))
    | 0x10 => s.pendE (.stnReg n o (clampWinCtl w))
    | _ => s
  else s

/-- MYD_STREAM_CFG: siding_en attaches the stream to a siding; none is attached to a completion siding or to a
session's. -/
def writeMyd (i : Nat) (w : Word) (s : State) : State :=
  let sid := fld w 40 8
  let en := bit w 39 && takesStream s sid
  s.pendE (.myd i (pack [(36, 12, 0xFFF)]) (put w 39 1 (b2n en)))

/-- PLT_STREAM: an armed stream needs a loaded model, as PLT_ARM does. -/
def writePStream (i : Nat) (w : Word) (s : State) : State :=
  let w := clampStream (fld w 63 1) w
  if bit w 63 && (modelSlot s (pSlotOf w)).model.isNone then s else s.pendE (.pltStream i w 16)

/-- WBR_ENTRY_SEL; an enabled entry keeps its owner, and no two name the same beats (R243). -/
def writeWbrSel (i : Nat) (w : Word) (s : State) : State :=
  let owner := if bit (selSoon s i) 63 then selOwner (selSoon s i) else 16
  let sel := clampSel (bit w 63) owner w
  if bit w 63 && entryClash s i sel then s else s.pendE (.wbrSel i sel)

/-- WBR_ENTRY_Q; its clamp is against the element type in force when it applies (R373). -/
def writeWbrQ (i : Nat) (w : Word) (s : State) : State := s.pendE (.wbrQ i w)

/-- LDG_CTX: the owner and user_read of a context. One that passes from Root to a tenant is fresh (R277). -/
def writeCtx (c : Nat) (w : Word) (s : State) : State :=
  let passes := decide (16 ≤ s.ctxOwner c) && decide (ofOwnerCode (fld w 8 5) < 16)
  let s := if passes then { s with ilk := { s.ilk with fresh := s.ilk.fresh ||| BitVec.ofNat 32 (2 ^ c) } } else s
  { s with ldg := { s.ldg with
    ctx := s.ldg.ctx.set c (pack [(16, 1, fld w 16 1), (8, 5, ownerCode (ofOwnerCode (fld w 8 5)))]) } }

/-- The snapshot registers of a slot as the pending generation leaves them. -/
def snapSoon (s : State) (k : Nat) : Word × Word :=
  (s.dsp.frozen ++ s.dsp.pending).foldl (fun a e => match e with
    | .ldgSnap j addr ctl => if j = k then (addr, ctl) else a
    | _ => a) (s.ldg.cfg.addr.getD k 0, s.ldg.cfg.ctl.getD k 0)

/-- A word of the Ledger block. -/
def writeLdg (o : Nat) (w : Word) (s : State) : State :=
  match slotAt o 0x100 8 32, slotAt o 0x200 8 34, slotAt o 0x800 8 256 with
  | some c, _, _ => writeCtx c w s
  | _, some i, _ =>
    let (addr, ctl) := snapSoon s (i / 2)
    if i % 2 = 0 then s.pendE (.ldgSnap (i / 2) (pack [(7, 41, fld w 7 41)]) ctl)
    else s.pendE (.ldgSnap (i / 2) addr (pack [(32, 32, fld w 32 32), (16, 1, fld w 16 1), (8, 8, max 1 (fld w 8 8))]))
  | _, _, some i => if s.dsp.enumCount ≤ i / 4 then s else s.pendE (.ldgChain i w (BitVec.allOnes 64))
  | _, _, _ => s

/-- A word of the Signal Box block. -/
def writeSbx (o : Nat) (w : Word) (s : State) : State :=
  if o = 0x00 then sbxConfig [0, w] tklTicket s
  else if o = 0x28 then writeGov (clampGovCfg w) s
  else match slotAt o 0x100 8 0x8F with
    | some r => reactSet [pack [(0, 8, r)], w] tklTicket s
    | none => s

/-- A word of a siding descriptor that creates and frees nothing. -/
def writeSdg (sid o : Nat) (w : Word) (s : State) : State :=
  let live := isLive (s.siding sid)
  match o with
  | 0x00 => if live then changeQ sid (sdgPacket sid w (ringOf s sid) false) s else s
  | 0x18 => sdgLevel [pack [(31, 1, fld w 63 1), (8, 20, fld w 40 20), (0, 8, sid)]] tklTicket s
  | 0x20 =>
    sdgWatermark [pack [(24, 1, fld w 16 1), (16, 8, fld w 8 8), (8, 8, fld w 0 8), (0, 8, sid)]] tklTicket s
  | 0x30 => if live then changeQ sid (sdgPacket sid (cfgOf s sid) w false) s else s
  | _ => s

/-- A lease is 0 or 10-60,000 ms (Table 19-7). -/
def clampLease (w : Word) : Word := pack [(0, 16, if fld w 0 16 = 0 then 0 else clamp 10 60000 (fld w 0 16))]

/-- A word of the Root page below the Interlocking block. -/
def writeLow (o : Nat) (w : Word) (s : State) : State :=
  if o = 0x118 then (pendEpochCfg w s).1
  else if o = 0x200 then s.pendE (.pltDue (clamp 2 100 (fld w 0 8)))
  else if o = 0x300 then setTkl (fun x => { x with cfg := clampLease w }) s
  else if o = 0x1400 then s.pendE (.cover (coverWord (fld w 63 1) (fld w 32 11) (fld w 16 11) (fld w 0 8)))
  else match slotAt o 0x400 8 33, slotAt o 0xE00 8 16 with
    | some i, _ => writeMyd i w s
    | _, some i => writePStream i w s
    | _, _ => s

/-- A word of the Root page (Table 20-7). -/
def writeRoot (o : Nat) (w : Word) (s : State) : State :=
  if o < 0x2000 then writeLow o w s
  else if o < 0x2800 then
    match slotAt (o - 0x2000) 0x100 8 128 with
    | some i => if i % 2 = 0 then writeWbrSel (i / 2) w s else writeWbrQ (i / 2) w s
    | none => s
  else if o < 0x2C00 then writeStation s.tkl.view (o - 0x2800) w s
  else if o < 0x3000 then s
  else if o < 0x4000 then writeLdg (o - 0x3000) w s
  else if o < 0x5000 then writeSbx (o - 0x4000) w s
  else if o < 0x8000 then s
  else if o < 0xC000 then writeSdg ((o - 0x8000) / 0x40) ((o - 0x8000) % 0x40) w s
  else s

/-- A word of the Sealed Meter page, in open (R323, Table 17-9). -/
def writeMeter (o : Nat) (w : Word) (s : State) : State :=
  if o = 0x88 then applyTtbCfg w s
  else if o = 0x90 then (if bit w 0 then emptyStore s else s)
  else if o = 0x98 then appendStore w s
  else match slotAt o 0x1000 8 256 with
    | some t => applyMap t w s
    | none => s

/-- The status of a WRITE of a Q field whose siding is busy is DEFERRED. -/
def regStatus (s : State) (a : Nat) : Nat :=
  if 0x8000 ≤ a ∧ a < 0xC000 ∧ (a % 0x40 = 0x00 ∨ a % 0x40 = 0x30) then qStatus s ((a - 0x8000) / 0x40) else statusDone

/-- A WRITE of a plain register: command windows and user pages take none. -/
def writeReg (f : TklFrame) (s : State) : State × Nat × Word :=
  let a := tklAddr f
  if 0x300000 ≤ a ∧ a < 0x310000 then
    if meterOpen s then readBack f statusDone (writeMeter (a - 0x300000) f.wdata s)
    else readBack f statusSealed (refuseWrite 2 s)
  else if a < 0x10000 then readBack f (regStatus s a) (writeRoot a f.wdata s)
  else readBack f statusDone s

def execTklWrite (f : TklFrame) (s : State) : Host.Outcome State Fault Refusal :=
  next (match writeKind s (tklAddr f) f.wdata with
    | .reg => tklRow opWrite (inTakeover writeReg) f s
    | _ => s)

end Sys2Proof.Machine
end

