-- ==== Sys2Proof/Machine/Dispatch.lean ====
section
/-! DEFINITION. One arm for each command of the block. -/

namespace Sys2Proof.Machine

def exec (i : Instr) (s : State) : Host.Outcome State Fault Refusal :=
  match i with
  | .porstAssert => Sys2Proof.Machine.execPorstAssert s
  | .porstRelease => Sys2Proof.Machine.execPorstRelease s
  | .fuseWordSample data => Sys2Proof.Machine.execFuseWordSample data s
  | .meterReady => Sys2Proof.Machine.execMeterReady s
  | .firmwareBootComplete => Sys2Proof.Machine.execFirmwareBootComplete s
  | .startupSelftestComplete r => Sys2Proof.Machine.execStartupSelftestComplete r s
  | .stationEnumTokenReturn count => Sys2Proof.Machine.execStationEnumTokenReturn count s
  | .blkRstAssert => Sys2Proof.Machine.execBlkRstAssert s
  | .blkRstRelease => Sys2Proof.Machine.execBlkRstRelease s
  | .mtrRstAssert => Sys2Proof.Machine.execMtrRstAssert s
  | .mtrRstRelease => Sys2Proof.Machine.execMtrRstRelease s
  | .stnRstAssert n => Sys2Proof.Machine.execStnRstAssert n s
  | .stnRstRelease n => Sys2Proof.Machine.execStnRstRelease n s
  | .vioStnOff n => Sys2Proof.Machine.execVioStnOff n s
  | .vioStnOn n => Sys2Proof.Machine.execVioStnOn n s
  | .vqOff => Sys2Proof.Machine.execVqOff s
  | .vqOn => Sys2Proof.Machine.execVqOn s
  | .wrapperInstructionUpdate code => Sys2Proof.Machine.execWrapperInstructionUpdate code s
  | .timeAdvance timeNs valid => Sys2Proof.Machine.execTimeAdvance timeNs valid s
  | .timeValidFall => Sys2Proof.Machine.execTimeValidFall s
  | .holdoverExpire => Sys2Proof.Machine.execHoldoverExpire s
  | .ppsEdge => Sys2Proof.Machine.execPpsEdge s
  | .fsyncEdge stream => Sys2Proof.Machine.execFsyncEdge stream s
  | .syntheticMasterEdge => Sys2Proof.Machine.execSyntheticMasterEdge s
  | .internalMasterEdge => Sys2Proof.Machine.execInternalMasterEdge s
  | .upperTimeMessage => Sys2Proof.Machine.execUpperTimeMessage s
  | .epochBoundary => Sys2Proof.Machine.execEpochBoundary s
  | .epochStatusClose => Sys2Proof.Machine.execEpochStatusClose s
  | .governorRefill => Sys2Proof.Machine.execGovernorRefill s
  | .rateMonitorMeasure rate vqMv tjC => Sys2Proof.Machine.execRateMonitorMeasure rate vqMv tjC s
  | .stationDelayMeasured n delay => Sys2Proof.Machine.execStationDelayMeasured n delay s
  | .stationEdge n stamp inp => Sys2Proof.Machine.execStationEdge n stamp inp s
  | .deltaBankTimer n => Sys2Proof.Machine.execDeltaBankTimer n s
  | .deltaBankHandoverEnd n badParity => Sys2Proof.Machine.execDeltaBankHandoverEnd n badParity s
  | .stationRecordHandover n ecc => Sys2Proof.Machine.execStationRecordHandover n ecc s
  | .lineClearToken n => Sys2Proof.Machine.execLineClearToken n s
  | .stationPark n => Sys2Proof.Machine.execStationPark n s
  | .stationUnpark n stamp => Sys2Proof.Machine.execStationUnpark n stamp s
  | .stationFail n => Sys2Proof.Machine.execStationFail n s
  | .stnViewSelRead n => Sys2Proof.Machine.execStnViewSelRead n s
  | .operandBeatDeliver n ecc => Sys2Proof.Machine.execOperandBeatDeliver n ecc s
  | .junctionRelease => Sys2Proof.Machine.execJunctionRelease s
  | .internalRecordOverdue src => Sys2Proof.Machine.execInternalRecordOverdue src s
  | .mydRecordDeliver ecc => Sys2Proof.Machine.execMydRecordDeliver ecc s
  | .payloadClose stream => Sys2Proof.Machine.execPayloadClose stream s
  | .ledgerDeltaApply n ecc => Sys2Proof.Machine.execLedgerDeltaApply n ecc s
  | .ledgerPatrol index ecc => Sys2Proof.Machine.execLedgerPatrol index ecc s
  | .sweepTraverseStart => Sys2Proof.Machine.execSweepTraverseStart s
  | .sweepWordVisit ecc => Sys2Proof.Machine.execSweepWordVisit ecc s
  | .snapshotTimeout slot => Sys2Proof.Machine.execSnapshotTimeout slot s
  | .tallyDeltaAdd n ecc => Sys2Proof.Machine.execTallyDeltaAdd n ecc s
  | .tallyLatch => Sys2Proof.Machine.execTallyLatch s
  | .sidingWordWrite sid => Sys2Proof.Machine.execSidingWordWrite sid s
  | .sidingItemClose sid => Sys2Proof.Machine.execSidingItemClose sid s
  | .sdgPop page slot corrected lost => Sys2Proof.Machine.execSdgPop page slot corrected lost s
  | .drainItemWrite sid corrected lost => Sys2Proof.Machine.execDrainItemWrite sid corrected lost s
  | .sdgFlushComplete sid => Sys2Proof.Machine.execSdgFlushComplete sid s
  | .memCmdIssue job => Sys2Proof.Machine.execMemCmdIssue job s
  | .memWriteBeat => Sys2Proof.Machine.execMemWriteBeat s
  | .memReadBeat id data last err => Sys2Proof.Machine.execMemReadBeat id data last err s
  | .memWriteResponse id err => Sys2Proof.Machine.execMemWriteResponse id err s
  | .memTimeout id => Sys2Proof.Machine.execMemTimeout id s
  | .portClockStall port => Sys2Proof.Machine.execPortClockStall port s
  | .exportFrameStart lane corrected lost => Sys2Proof.Machine.execExportFrameStart lane corrected lost s
  | .exportBeatAccept lane => Sys2Proof.Machine.execExportBeatAccept lane s
  | .exportEofAccept lane => Sys2Proof.Machine.execExportEofAccept lane s
  | .exportAbortAccept lane => Sys2Proof.Machine.execExportAbortAccept lane s
  | .sessionEndClock owner => Sys2Proof.Machine.execSessionEndClock owner s
  | .epochPreparation => Sys2Proof.Machine.execEpochPreparation s
  | .frameWindowOpen slot => Sys2Proof.Machine.execFrameWindowOpen slot s
  | .frameWindowClose slot => Sys2Proof.Machine.execFrameWindowClose slot s
  | .workItemStart t => Sys2Proof.Machine.execWorkItemStart t s
  | .chunkDecryptComplete t ecc => Sys2Proof.Machine.execChunkDecryptComplete t ecc s
  | .trackPassEnd t check => Sys2Proof.Machine.execTrackPassEnd t check s
  | .knownAnswerTileEnd t ok => Sys2Proof.Machine.execKnownAnswerTileEnd t ok s
  | .sequencerWatchdog t => Sys2Proof.Machine.execSequencerWatchdog t s
  | .sampleSetCommit t ecc => Sys2Proof.Machine.execSampleSetCommit t ecc s
  | .verdictDeadline => Sys2Proof.Machine.execVerdictDeadline s
  | .pilotReadyTime stream => Sys2Proof.Machine.execPilotReadyTime stream s
  | .pilotFrameStart t => Sys2Proof.Machine.execPilotFrameStart t s
  | .pilotFrameJudge stream => Sys2Proof.Machine.execPilotFrameJudge stream s
  | .pilotOverrun stream => Sys2Proof.Machine.execPilotOverrun stream s
  | .statisticsClose => Sys2Proof.Machine.execStatisticsClose s
  | .commandWindowWrite w word be => Sys2Proof.Machine.execCommandWindowWrite w word be s
  | .packetDiscardTimeout w => Sys2Proof.Machine.execPacketDiscardTimeout w s
  | .packetAbandon w => Sys2Proof.Machine.execPacketAbandon w s
  | .unknownOp w => Sys2Proof.Machine.execUnknownOp w s
  | .nop w => Sys2Proof.Machine.execNop w s
  | .readVersion w => Sys2Proof.Machine.execReadVersion w s
  | .commit w => Sys2Proof.Machine.execCommit w s
  | .commitHeldResume => Sys2Proof.Machine.execCommitHeldResume s
  | .govSet w => Sys2Proof.Machine.execGovSet w s
  | .epochSet w => Sys2Proof.Machine.execEpochSet w s
  | .partCreate w => Sys2Proof.Machine.execPartCreate w s
  | .partDetach w => Sys2Proof.Machine.execPartDetach w s
  | .detachScrubStart p => Sys2Proof.Machine.execDetachScrubStart p s
  | .detachComplete p => Sys2Proof.Machine.execDetachComplete p s
  | .windowSet w => Sys2Proof.Machine.execWindowSet w s
  | .grant w => Sys2Proof.Machine.execGrant w s
  | .stnConfig w => Sys2Proof.Machine.execStnConfig w s
  | .stnTagmap w => Sys2Proof.Machine.execStnTagmap w s
  | .stnThresh w => Sys2Proof.Machine.execStnThresh w s
  | .stnSnoopwin w => Sys2Proof.Machine.execStnSnoopwin w s
  | .ldgRead w ecc => Sys2Proof.Machine.execLdgRead w ecc s
  | .ldgReadPair w ecc => Sys2Proof.Machine.execLdgReadPair w ecc s
  | .ldgChain w => Sys2Proof.Machine.execLdgChain w s
  | .ldgSnapcfg w => Sys2Proof.Machine.execLdgSnapcfg w s
  | .ldgClear w => Sys2Proof.Machine.execLdgClear w s
  | .ldgUreadData p ecc => Sys2Proof.Machine.execLdgUreadData p ecc s
  | .ldgUreadPairLo p ecc => Sys2Proof.Machine.execLdgUreadPairLo p ecc s
  | .sdgCreate w => Sys2Proof.Machine.execSdgCreate w s
  | .sdgMark w => Sys2Proof.Machine.execSdgMark w s
  | .sdgRewind w => Sys2Proof.Machine.execSdgRewind w s
  | .sdgRelease w => Sys2Proof.Machine.execSdgRelease w s
  | .sdgFlush w => Sys2Proof.Machine.execSdgFlush w s
  | .sdgLevel w => Sys2Proof.Machine.execSdgLevel w s
  | .sdgWatermark w => Sys2Proof.Machine.execSdgWatermark w s
  | .planLoad w => Sys2Proof.Machine.execPlanLoad w s
  | .planArm w => Sys2Proof.Machine.execPlanArm w s
  | .planDisarm w => Sys2Proof.Machine.execPlanDisarm w s
  | .coverSet w => Sys2Proof.Machine.execCoverSet w s
  | .pltLoad w => Sys2Proof.Machine.execPltLoad w s
  | .pltZones w => Sys2Proof.Machine.execPltZones w s
  | .pltArm w => Sys2Proof.Machine.execPltArm w s
  | .wbrConfig w => Sys2Proof.Machine.execWbrConfig w s
  | .sessionOpen w => Sys2Proof.Machine.execSessionOpen w s
  | .sessionClose w => Sys2Proof.Machine.execSessionClose w s
  | .bundleUnwrap w => Sys2Proof.Machine.execBundleUnwrap w s
  | .sbxConfig w => Sys2Proof.Machine.execSbxConfig w s
  | .sbxReadrec w => Sys2Proof.Machine.execSbxReadrec w s
  | .sbxClear w => Sys2Proof.Machine.execSbxClear w s
  | .reactSet w => Sys2Proof.Machine.execReactSet w s
  | .mtrRead c => Sys2Proof.Machine.execMtrRead c s
  | .mtrEvidence c => Sys2Proof.Machine.execMtrEvidence c s
  | .mtrMap w => Sys2Proof.Machine.execMtrMap w s
  | .ttbSet w => Sys2Proof.Machine.execTtbSet w s
  | .inject w => Sys2Proof.Machine.execInject w s
  | .selftest w => Sys2Proof.Machine.execSelftest w s
  | .selftestDone hashOk decryptOk entropyRaw => Sys2Proof.Machine.execSelftestDone hashOk decryptOk entropyRaw s
  | .qWriteApply k => Sys2Proof.Machine.execQWriteApply k s
  | .ilkPintRc p => Sys2Proof.Machine.execIlkPintRc p s
  | .ilkRintRc => Sys2Proof.Machine.execIlkRintRc s
  | .entropyBlock raw => Sys2Proof.Machine.execEntropyBlock raw s
  | .sbxOccurrenceReceive => Sys2Proof.Machine.execSbxOccurrenceReceive s
  | .quietPeriodExpire slot => Sys2Proof.Machine.execQuietPeriodExpire slot s
  | .cQuietExpire => Sys2Proof.Machine.execCQuietExpire s
  | .heartbeatToggle => Sys2Proof.Machine.execHeartbeatToggle s
  | .faultClassIntermediateEnd => Sys2Proof.Machine.execFaultClassIntermediateEnd s
  | .conductorWatchdogExpire pair => Sys2Proof.Machine.execConductorWatchdogExpire pair s
  | .lockstepMiscompare pair => Sys2Proof.Machine.execLockstepMiscompare pair s
  | .sbxSelfCheckMiscompare => Sys2Proof.Machine.execSbxSelfCheckMiscompare s
  | .sealOpen => Sys2Proof.Machine.execSealOpen s
  | .sealClose => Sys2Proof.Machine.execSealClose s
  | .meterClosingRetry => Sys2Proof.Machine.execMeterClosingRetry s
  | .meterCoreStall => Sys2Proof.Machine.execMeterCoreStall s
  | .mtrMapWrite t word be => Sys2Proof.Machine.execMtrMapWrite t word be s
  | .ttbCfgWrite word be => Sys2Proof.Machine.execTtbCfgWrite word be s
  | .mtrImgCtlBegin word be => Sys2Proof.Machine.execMtrImgCtlBegin word be s
  | .mtrImgDataWrite word be => Sys2Proof.Machine.execMtrImgDataWrite word be s
  | .registerWriteOther addr word be => Sys2Proof.Machine.execRegisterWriteOther addr word be s
  | .tklFrameForward f => Sys2Proof.Machine.execTklFrameForward f s
  | .tklNop f => Sys2Proof.Machine.execTklNop f s
  | .tklEnum f tokenIn => Sys2Proof.Machine.execTklEnum f tokenIn s
  | .tklRead c => Sys2Proof.Machine.execTklRead c s
  | .tklReadCnt f ecc => Sys2Proof.Machine.execTklReadCnt f ecc s
  | .tklReadCntHi f => Sys2Proof.Machine.execTklReadCntHi f s
  | .tklWrite f => Sys2Proof.Machine.execTklWrite f s
  | .tklWritePartCreate f => Sys2Proof.Machine.execTklWritePartCreate f s
  | .tklWritePartDetach f => Sys2Proof.Machine.execTklWritePartDetach f s
  | .tklWriteMirror f => Sys2Proof.Machine.execTklWriteMirror f s
  | .tklWriteWindow f => Sys2Proof.Machine.execTklWriteWindow f s
  | .tklWriteSdgCreate f => Sys2Proof.Machine.execTklWriteSdgCreate f s
  | .tklWriteSdgFree f => Sys2Proof.Machine.execTklWriteSdgFree f s
  | .tklWriteStnViewSel f => Sys2Proof.Machine.execTklWriteStnViewSel f s
  | .tklTake f => Sys2Proof.Machine.execTklTake f s
  | .tklGive f => Sys2Proof.Machine.execTklGive f s
  | .tklForce f => Sys2Proof.Machine.execTklForce f s
  | .tklRelease f => Sys2Proof.Machine.execTklRelease f s
  | .tklCommit f => Sys2Proof.Machine.execTklCommit f s
  | .tklClearRec f => Sys2Proof.Machine.execTklClearRec f s
  | .tklSetver f => Sys2Proof.Machine.execTklSetver f s
  | .takeoverLeaseExpire => Sys2Proof.Machine.execTakeoverLeaseExpire s

end Sys2Proof.Machine
end

