-- ==== Sys2Proof/Safety.lean ====
section
/-! DEFINITION. What counts as a safe state and a safe run of the block, in the terms that claims use. -/

namespace Sys2Proof.Machine

/-- The two addressed stores of the block, the Ledger's words and the Siding pool, are in canonical form, so
that equal contents are equal data. -/
def State.storesCanonical (s : State) : Bool :=
  canonical LWord.zero s.ldg.words && canonical 0 s.sdg.pool

/-- Every array of the block has as many elements as the spec gives it: 64 stations, 256 sidings, 4 tracks,
16 partitions, 17 command windows, 32 fault records, 33 streams, and so on. -/
def State.shaped (s : State) : Bool :=
  s.stn.length == 64 && s.jct.stnIn.length == 64 && s.jct.intIn.length == 6 &&
  s.jct.intSeq.length == 6 && s.myd.streams.length == 33 && s.ldg.ctx.length == 32 &&
  s.ldg.inq.length == 64 && s.sdg.desc.length == 256 && s.trk.length == 4 &&
  s.wtp.slots.length == 16 && s.plt.models.length == 4 && s.plt.streams.length == 16 &&
  s.wbr.sel.length == 64 && s.wbr.q.length == 64 && s.ilk.parts.length == 16 &&
  s.ilk.win.length == 17 && s.dsp.wins.length == 17 && s.sbx.recs.length == 32 &&
  s.sbx.react.length == 0x8F && s.mtr.map.length == 256 && s.mtr.tally.length == 256 &&
  s.exp.sess.length == 17 && s.exp.lanes.length == 2

/-- A run of commands, one after the other, that ends in a next state. -/
inductive Runs : List Instr → State → State → Prop where
  | done (s : State) : Runs [] s s
  | cons (i : Instr) (r : List Instr) (s t u : State) :
      exec i s = .next t → Runs r t u → Runs (i :: r) s u

/-- A command is safe in a state when it answers a next state. -/
def SafeAt (i : Instr) (s : State) : Prop := ∃ t, exec i s = .next t

end Sys2Proof.Machine

namespace Sys2Proof.Claims

open Sys2Proof.Machine

/-- The command answers a next state, and that state satisfies `P`. -/
def Answers (i : Instr) (s : State) (P : State → Prop) : Prop := ∃ t, exec i s = .next t ∧ P t

/-- An occurrence as the Signal Box receives it in state `s`: with the present time, and the containment it arises
from. -/
abbrev received (s : State) (o : Occurrence) : Occurrence := { o with time := s.ttb.time, arises := s.sbx.arising }

/-- The packet `pk` at the head of window `w` carries `op` and is the next to issue, its sender may send it, and
the window's completion siding is live (R260-R264, R269). -/
abbrev Issues (op w : Nat) (pk : List Word) (s : State) : Prop :=
  s.fw = true ∧ headPacket s w = some { words := pk } ∧ nextInRound s = some w ∧ pkOpcode pk = op ∧
  s.dsp.takeover = false ∧ departing s w = false ∧ (rootOps.contains op = true → w = 16) ∧
  (s.siding (s.win w).compl).state = 1

/-- The head packet has left window `w`, and the round goes on after it (R260). -/
def taken (w : Nat) (s : State) : State :=
  { s with dsp := { s.dsp with
    wins := s.dsp.wins.modify w fun x => { x with ready := x.ready.drop 1 },
    round := if w = 16 then 1 else (w + 2) % 17 } }

/-- A completion (Table 14-2) stands last in the queue of the window's siding: for reply 1, and for any status
but DONE (R258). -/
def told (w : Nat) (pk : List Word) (status result : Nat) (result2 : Word) (s : State) : State :=
  let item : ProdItem :=
    { kind := .completion, src := 0x7F, seq := fld (pk.getD 0 0) 40 12,
      words := [pack [(56, 8, status), (40, 12, fld (pk.getD 0 0) 40 12), (32, 8, fld (pk.getD 0 0) 56 8),
        (0, 32, result)], result2] }
  let put := fun d : Siding => { d with prodq := d.prodq ++ [item] }
  if bit (pk.getD 0 0) 32 || status != 0 then
    { s with sdg := { s.sdg with desc := s.sdg.desc.modify (s.win w).compl put } }
  else s

end Sys2Proof.Claims
end

