-- ==== Sys2Proof/Certificates/Slice0/Obligations.lean ====
section
/-! DEFINITION. The statements for the provers. Each says what commands do, by the rules of the spec, as an
equation or a property of the next state; a state written as an update of `s` names everything that changes. -/

open Sys2Proof Sys2Proof.Machine Sys2Proof.Claims

/-! ## The queue of commands -/

/-- A step with a command at the front of the queue is that command on the state whose queue is the rest; on an
empty queue the block idles. -/
def Obligations.StepRunsFront : Prop :=
  (∀ (c : Instr) (r : List Instr) (s : State), step { s with pending := c :: r } = exec c { s with pending := r }) ∧
  (∀ s : State, s.pending = [] → step s = .next s)

/-- Every command answers a next state, and none touches the queue or the parameters of the instance. -/
def Obligations.EveryCommandCompletes : Prop :=
  ∀ (c : Instr) (s : State), Answers c s fun t => t.pending = s.pending ∧ t.params = s.params

/-- Whatever waits in the queue, the block runs through it in order: after as many steps as there are commands the
queue is empty. -/
def Obligations.QueueDrains : Prop :=
  ∀ (s : State) (k : Nat), k ≤ s.pending.length →
    ∃ t, core.run k s = .next t ∧ t.pending = s.pending.drop k ∧ t.params = s.params

/-! ## Invariants of every step -/

/-- The Ledger's words and the Siding pool keep their canonical form in every step. -/
def Obligations.StoresStayCanonical : Prop :=
  ∀ s t : State, s.storesCanonical = true → step s = .next t → t.storesCanonical = true

def Obligations.ResetIsCanonical : Prop := State.reset.storesCanonical = true ∧ State.reset.shaped = true

/-- After the first epoch boundary since PORST_N, block time never decreases (R73): no step but the assertion of
PORST_N sets it back. -/
def Obligations.TimeNeverGoesBack : Prop :=
  ∀ (c : Instr) (s t : State), c ≠ .porstAssert → s.ttb.anyBoundary = true → s.ttb.time + 2 ^ 40 < 2 ^ 64 →
    s.ttb.acc < accUnit s.ttb → exec c s = .next t → s.ttb.time ≤ t.ttb.time

/-- While the meter is not open, no command but a reset by PORST_N changes a tally mapping or TTB_CFG: neither a
command, nor a register write, nor a token-line write (R78, R323). -/
def Obligations.SealGuardsConfiguration : Prop :=
  ∀ (c : Instr) (s t : State), c ≠ .porstAssert → meterOpen s = false → exec c s = .next t →
    t.mtr.map = s.mtr.map ∧ t.ttb.cfg = s.ttb.cfg

/-- The root-key shadow and the identity are written only by the fuse read, and cleared only by the test state or
PORST_N (R45, R56, R369). -/
def Obligations.RootKeyIsolated : Prop :=
  ∀ (c : Instr) (s t : State), (∀ d, c ≠ .fuseWordSample d) → (∀ x, c ≠ .wrapperInstructionUpdate x) →
    c ≠ .porstAssert → exec c s = .next t →
    t.ilk.rootKey = s.ilk.rootKey ∧ t.ilk.fuses = s.ilk.fuses ∧ t.ilk.identity = s.ilk.identity

/-! ## Resets, supplies and start-up -/

/-- PORST_N: every unit takes its reset values, those of the Sealed Meter and the epoch number among them
(R53, R86). Pin levels, rails and parameters are no registers and stand. -/
def Sys2Proof.Claims.PowerOnReset : Prop :=
  ∀ s : State, Answers .porstAssert s fun t =>
    t.ttb = Timetable.reset ∧ t.jct = Junction.reset ∧ t.myd = Yard.reset ∧ t.ldg = Ledger.reset ∧
    t.sdg = Sidings.reset ∧ t.trk = List.replicate 4 Track.reset ∧ t.wtp = Checker.reset ∧
    t.plt = Pilot.reset ∧ t.wbr = Weigh.reset ∧ t.ilk = Interlock.reset ∧ t.dsp = Dispatcher.reset ∧
    t.sbx = SignalBox.reset ∧ t.mem = MemPort.reset ∧ t.exp = Export.reset ∧ t.tkl = TokenLine.reset ∧
    t.mtr = { Meter.reset with sealOpen := s.mtr.sealOpen, inReset := !s.pins.mtrRstN } ∧
    t.stn = s.stn.map (fun x => { Station.reset with inReset := x.inReset, vioOff := x.vioOff }) ∧
    t.pins = { Pins.reset with blkRstN := s.pins.blkRstN, mtrRstN := s.pins.mtrRstN, vqOn := s.pins.vqOn } ∧
    t.params = s.params ∧ t.pending = s.pending

/-- Releasing PORST_N starts the fuse read at word 0 (R45, R363). -/
def Sys2Proof.Claims.PowerOnStartsFuseRead : Prop :=
  ∀ s : State, s.pins.porstN = false →
    exec .porstRelease s = .next { s with pins := { s.pins with porstN := true, fuseReq := true, fuseAddr := 0 } }

/-- The fuse read (R45): words 0 to 15 are kept in address order, and after word 63 the root-key shadow holds words
0 to 7 and FUSE_REQ is low for good. While the supply is off or the block is in the test state FUSE_REQ holds its
reset value, and no word is taken. Little-endian key bytes, and the pause of the read, are the model's choice. -/
def Sys2Proof.Claims.FuseRead : Prop :=
  (∀ (s : State) (d : BitVec 32), s.drives = true → s.pins.fuseReq = true → s.pins.fuseAddr < 63 →
    exec (.fuseWordSample d) s = .next { s with
      ilk := if s.pins.fuseAddr < 16 then { s.ilk with fuses := s.ilk.fuses.set s.pins.fuseAddr d } else s.ilk,
      pins := { s.pins with fuseAddr := s.pins.fuseAddr + 1 } }) ∧
  (∀ (s : State) (d : BitVec 32), s.drives = true → s.pins.fuseReq = true → s.pins.fuseAddr = 63 → (s.ilk.fuses.getD 8 0).getLsbD 1 = false →
    Answers (.fuseWordSample d) s fun t =>
      t.pins.fuseReq = false ∧ t.ilk.fuses = s.ilk.fuses ∧ t.ilk.identity = none ∧
      t.ilk.rootKey = (s.ilk.fuses.take 8).flatMap (fun w => leBytes 4 w.toNat)) ∧
  (∀ (s : State) (d : BitVec 32), s.pins.fuseReq = false ∨ s.pins.vqOn = false ∨ s.ilk.testState = true →
    exec (.fuseWordSample d) s = .next s)

/-- BLK_RST_N (R369, Table 02-12, Table 04-8): the core macro takes its reset values, with keys, sessions, pending
and held writes gone and no completion; block time, its state and configuration, the epoch number, the fuse shadow,
the identity and the station macros go on; epochs stop. -/
def Sys2Proof.Claims.BlockReset : Prop :=
  ∀ s : State, s.pins.blkRstN = true → Answers .blkRstAssert s fun t =>
    t.pins.blkRstN = false ∧ t.core = false ∧
    t.dsp = Dispatcher.reset ∧ t.sdg = Sidings.reset ∧ t.ldg = Ledger.reset ∧ t.jct = Junction.reset ∧
    t.myd = Yard.reset ∧ t.wtp = Checker.reset ∧ t.plt = Pilot.reset ∧ t.wbr = Weigh.reset ∧
    t.sbx = SignalBox.reset ∧ t.mem = MemPort.reset ∧ t.trk = List.replicate 4 Track.reset ∧
    t.exp.sess = List.replicate 17 Session.reset ∧ t.ilk.keys = List.replicate 8 none ∧ t.stn = s.stn ∧
    t.ilk.rootKey = s.ilk.rootKey ∧ t.ilk.fuses = s.ilk.fuses ∧ t.ilk.identity = s.ilk.identity ∧
    t.ttb.time = s.ttb.time ∧ t.ttb.state = s.ttb.state ∧ t.ttb.cfg = s.ttb.cfg ∧ t.ttb.epoch = s.ttb.epoch ∧
    t.ttb.anyEpoch = s.ttb.anyEpoch ∧ t.ttb.running = false ∧ t.ttb.armed = false ∧ t.ttb.announced = none ∧
    t.mtr.map = s.mtr.map ∧ t.mtr.state = s.mtr.state ∧ t.mtr.key = s.mtr.key ∧ t.mtr.seals = s.mtr.seals

/-- The core supply (R52): as it goes off the core macro holds its reset values and no lane can send an abort beat,
while the Sealed Meter keeps everything; block time and the epoch number go on. -/
def Sys2Proof.Claims.CoreSupplyOff : Prop :=
  ∀ s : State, s.pins.vqOn = true → Answers .vqOff s fun t =>
    t.pins.vqOn = false ∧ t.core = false ∧ t.outputsHeld = true ∧ t.mtr = s.mtr ∧ t.dsp = Dispatcher.reset ∧ t.sdg = Sidings.reset ∧
    t.ldg = Ledger.reset ∧ t.exp = { Export.reset with lanes := s.exp.lanes.map fun _ => Lane.reset } ∧
    t.ttb.time = s.ttb.time ∧ t.ttb.epoch = s.ttb.epoch ∧ t.ttb.running = false

/-- A warm start (R369): with the core supplied and functional, releasing BLK_RST_N lets the Conductor cores boot
from slot A, the fuse read is not repeated, and the faults that the meter kept reach the Signal Box. The return of
VQ starts the core alike. -/
def Sys2Proof.Claims.WarmStart : Prop :=
  (∀ s : State, s.pins.blkRstN = false → s.pins.porstN = true → s.pins.vqOn = true → s.pins.fuseReq = false →
    functionalWir s.pins.wir.toNat = true → Answers .blkRstRelease s fun t =>
      t.pins = { s.pins with blkRstN := true } ∧ t.dsp.coresRun = true ∧ t.dsp.boot.phase = 1 ∧
      t.dsp.boot.slot = 0 ∧ t.dsp.boot.state = 0 ∧ t.dsp.boot.started = s.ttb.time ∧
      t.sbx.inbox = s.sbx.inbox ++ s.mtr.queue ∧ t.mtr = { s.mtr with queue := [] } ∧
      t.ilk = s.ilk ∧ t.ttb = s.ttb) ∧
  (∀ s : State, s.pins.vqOn = false → s.pins.porstN = true → s.pins.blkRstN = true → s.pins.fuseReq = false →
    functionalWir s.pins.wir.toNat = true → Answers .vqOn s fun t =>
      t.pins = { s.pins with vqOn := true } ∧ t.dsp.coresRun = true ∧ t.dsp.boot.phase = 1 ∧
      t.dsp.boot.slot = 0 ∧ t.sbx.inbox = s.sbx.inbox ++ s.mtr.queue ∧ t.ttb = s.ttb)

/-- The firmware boot (R365, R366): an accepted image starts; slot B is tried after slot A fails, and after both the
boot has failed with the cores halted, each slot's reason kept (Table 20-10). -/
def Sys2Proof.Claims.FirmwareBoot : Prop :=
  ∀ s : State, s.core = true → s.dsp.boot.state = 0 → 3 ≤ s.dsp.boot.phase → Answers .firmwareBootComplete s fun t =>
    if bootReason s.dsp.boot = 0 then
      t.dsp.boot.state = 1 ∧ t.dsp.fwVersion = imageVersion s.dsp.boot.header ∧
      t.dsp.fwHash = imageHash s.dsp.boot.header s.dsp.boot.code ∧ t.dsp.boot.slot = s.dsp.boot.slot ∧
      t.dsp.boot.bootUs = min (2 ^ 32 - 1) ((s.ttb.time - s.dsp.boot.started) / 1000)
    else if s.dsp.boot.slot = 0 then
      t.dsp.boot.state = 0 ∧ t.dsp.boot.slot = 1 ∧ t.dsp.boot.phase = 1 ∧
      t.dsp.boot.failA = bootReason s.dsp.boot ∧ t.mem.jobs.length = s.mem.jobs.length + 1
    else
      t.dsp.boot.state = 2 ∧ t.dsp.coresRun = false ∧ t.dsp.boot.failA = s.dsp.boot.failA ∧
      t.dsp.boot.failB = bootReason s.dsp.boot ∧ t.mem = s.mem

/-- The start-up self-test ends (R363, Table 20-2): its result stands, the station token is sent, and with siding 255
created Root's window is open. -/
def Sys2Proof.Claims.StartupSelftest : Prop :=
  ∀ (s : State) (r : BistResult), s.core = true → s.dsp.boot.state = 1 → s.dsp.bist.done = false →
    s.sdg = Sidings.reset → s.exp.opens = [] → s.dsp.wins.length = 17 →
    Answers (.startupSelftestComplete r) s fun t =>
      t.dsp.bist.done = true ∧ t.dsp.bist.arrFail = r.arrayFail ∧ t.dsp.bist.decFail = r.decryptFail ∧
      t.dsp.bist.sbxOk = r.sbxOk ∧ t.dsp.enumSent = true ∧
      (t.win 16).isOpen = true ∧ (t.win 16).compl = 255 ∧
      (t.siding 255).state = 1 ∧ (t.siding 255).owner = 16

/-- The enumeration token returns (R87): enum_count is stored, each station below it has its address and measures its
delay, a count other than N_STN raises "station chain incomplete", and while generation 0 is active CFG_FP is the
fingerprint of the configuration with these stations. -/
def Sys2Proof.Claims.StationEnumeration : Prop :=
  ∀ (s : State) (c : BitVec 7), s.core = true → s.dsp.enumSent = true → c.toNat ≤ 64 →
    Answers (.stationEnumTokenReturn c) s fun t =>
      t.dsp = { s.dsp with enumCount := c.toNat, enumSent := false, fp := t.dsp.fp } ∧
      t.dsp.fp = (if s.dsp.activeGen = 0 then fingerprint { t with dsp := { t.dsp with fp := s.dsp.fp } }
        else s.dsp.fp) ∧
      (∀ n < s.stn.length, n < c.toNat → (t.station n).addressed = true ∧ (t.station n).st = .running ∧
        ((t.station n).measuring.map (·.1)) = some 64 ∧ (t.station n).inReset = (s.station n).inReset) ∧
      (∀ n, c.toNat ≤ n → t.station n =
        { Station.reset with inReset := (s.station n).inReset, vioOff := (s.station n).vioOff }) ∧
      (if c.toNat = s.params.nStn then t.sbx = s.sbx
       else t.sbx.inbox = s.sbx.inbox ++ [received s (occ 1 7 0 (s.params.nStn * 256 + c.toNat))])

/-- The test wrapper (R55, R56): an instruction other than WS_BYPASS, ZF_STATUS and the undefined codes enters the
test state; the root-key shadow is zero, no key slot and no session key is left, and code 9 is audited. -/
def Sys2Proof.Claims.TestState : Prop :=
  (∀ (s : State) (x : BitVec 8), s.pins.porstN = true → functionalWir x.toNat = true → s.core = true →
    exec (.wrapperInstructionUpdate x) s = .next { s with pins := { s.pins with wir := x } }) ∧
  (∀ (s : State) (x : BitVec 8), s.pins.porstN = true → functionalWir x.toNat = false → x.toNat ≠ 0x11 →
    s.ilk.testState = false → s.ilk.keys.length = 8 → s.exp.sess.length = 17 →
    Answers (.wrapperInstructionUpdate x) s fun t =>
      t.ilk.testState = true ∧ t.core = false ∧ t.ilk.rootKey = List.replicate 32 0 ∧
      t.ilk.keys = List.replicate 8 none ∧ (∀ k ∈ t.ilk.fuses.take 8, k = 0) ∧
      (∀ i ∈ t.ilk.identity, i.d = 0) ∧ (∀ x ∈ t.exp.sess, sessionBusy x = false) ∧
      (t.mtr.audit.head?.map fun a => (a.kind, a.detail)) = some (9, x.toNat) ∧ t.mtr.key = s.mtr.key)

/-- A write to the one user field of the register port stores its 21 bits; a write to any other register without
behaviour of its own changes nothing (R3, R21). A whole-word write to the Sealed Meter page while the meter is not open
is refused with an audit record of kind 8 and the fault 2/0x16 (R323). -/
def Sys2Proof.Claims.RegisterWrites : Prop :=
  (∀ (s : State) (a : BitVec 22) (w : BitVec 64) (p : Nat), s.core = true → p < 16 →
    a.toNat = 0x200000 + 0x10000 * p →
    exec (.registerWriteOther a w 0xFF) s = .next { s with ldg := { s.ldg with
      userSel := s.ldg.userSel.set p (pack [(0, 21, fld w 0 21)]) } }) ∧
  (∀ (s : State) (a : BitVec 22) (w : BitVec 64) (be : BitVec 8), s.core = true →
    (∀ p < 16, a.toNat ≠ 0x200000 + 0x10000 * p) → a.toNat / 0x10000 ≠ 0x30 ∨ meterOpen s = true ∨ be ≠ 0xFF →
    exec (.registerWriteOther a w be) s = .next s) ∧
  (∀ (s : State) (a : BitVec 22) (w : BitVec 64), s.core = true → a.toNat / 0x10000 = 0x30 → meterOpen s = false →
    Answers (.registerWriteOther a w 0xFF) s fun t =>
      (t.mtr.audit.head?.map fun x => (x.kind, x.detail / 2 ^ 62)) = some (8, 1) ∧
      (t.mtr.map, t.mtr.state, t.mtr.tally, t.ttb) = (s.mtr.map, s.mtr.state, s.mtr.tally, s.ttb) ∧
      (∃ o ∈ t.sbx.inbox, (o.sub, o.cause) = (2, 0x16)))

/-- A register read of STN_VIEW_SEL[n] sets the view to `n` and returns STN_STATUS of the station; a view at or beyond
enum_count reads 0 (R375). -/
def Sys2Proof.Claims.StationView : Prop :=
  ∀ (s : State) (n : Nat), s.core = true → exec (.stnViewSelRead n) s = .next { s with
    dsp := { s.dsp with view := n },
    pins := { s.pins with regData := if n < s.dsp.enumCount then stnStatus (s.station n) else 0 } }

/-! ## Time -/

/-- Before the first epoch boundary since PORST_N, the first edge at which TIME_VALID is 1 sets block time to TIME_NS,
in either direction, and the state becomes LOCKED (R74). -/
def Obligations.FirstValidTimeSetsBlockTime : Prop :=
  ∀ (s : State) (x : BitVec 64), s.pins.porstN = true → s.ttb.anyBoundary = false → s.ttb.everValid = false →
    Answers (.timeAdvance x true) s fun t =>
      t.ttb.time = x.toNat ∧ t.ttb.state = .locked ∧ t.ttb.timeValid = true ∧ t.ttb.timeNs = x.toNat

/-- After the first boundary (R75, R77): TIME_NS never sets block time; an offset within lock_win locks, any other is
slewed, and one further behind than step_thr waits for a step. With TIME_VALID at 0 a LOCKED or SLEWING Timetable goes
to HOLDOVER. A period with no rate correction adds 1000 / tclk_mhz ns. -/
def Sys2Proof.Claims.TimeDiscipline : Prop :=
  (∀ (s : State) (x : BitVec 64), s.pins.porstN = true → s.ttb.anyBoundary = true →
    let o : Int := ((advance s.ttb).time : Int) - x.toNat
    Answers (.timeAdvance x true) s fun t =>
      t.ttb.time = (advance s.ttb).time ∧ t.ttb.offset = o ∧
      (t.ttb.state = .locked ↔ (o.natAbs : Int) ≤ lockWinNs s.ttb) ∧
      (t.ttb.state = .slewing ↔ lockWinNs s.ttb < o.natAbs) ∧
      (lockWinNs s.ttb < o.natAbs → o < - stepThrNs s.ttb → t.ttb.stepWait = true)) ∧
  (∀ (s : State) (x : BitVec 64), s.pins.porstN = true →
    Answers (.timeAdvance x false) s fun t =>
      t.ttb.time = (advance s.ttb).time ∧ t.ttb.timeValid = false ∧
      (s.ttb.state = .locked ∨ s.ttb.state = .slewing → t.ttb.state = .holdover) ∧
      (s.ttb.state = .holdover ∨ s.ttb.state = .freerun → t.ttb.state = s.ttb.state)) ∧
  (∀ t : Timetable, rateOf t = 0 → fld t.cfg 0 8 = 125 → t.acc < accUnit t → t.time < 2 ^ 64 - 8 →
    (advance t).time = t.time + 8 ∧ (advance t).acc = t.acc)

/-- TIME_VALID falls (R77): a LOCKED or SLEWING Timetable enters HOLDOVER with the frequency error it has learned. -/
def Sys2Proof.Claims.TimeValidFall : Prop :=
  ∀ s : State, s.pins.porstN = true → s.ttb.state = .locked ∨ s.ttb.state = .slewing →
    exec .timeValidFall s = .next { s with ttb := { s.ttb with
      state := .holdover, worst := worse s.ttb.worst .holdover, timeValid := false, stepWait := false,
      holdoverAt := s.ttb.time, ppsPhase := 0 } }

/-- HOLDOVER lasts holdover_s; then the state is FREERUN and the U fault "time reference lost" carries the last offset
(R77). -/
def Sys2Proof.Claims.HoldoverExpires : Prop :=
  ∀ s : State, s.core = true → s.ttb.state = .holdover →
    s.ttb.holdoverAt + fld s.ttb.cfg 52 12 * 1000000000 ≤ s.ttb.time →
    exec .holdoverExpire s = .next { s with
      ttb := { s.ttb with state := .freerun, worst := worse s.ttb.worst .freerun },
      sbx := { s.sbx with inbox := s.sbx.inbox ++
        [received s (occ 2 1 0 (unsigned 64 s.ttb.offset))] } }

/-- A PPS_IN edge (R77): its stamp is kept; while TIME_VALID is 1 with pps_chk_en an edge further than pps_tol from a
whole second counts in pps_err and raises a C fault; with pps_hold_en it gives the phase error in HOLDOVER. -/
def Sys2Proof.Claims.PpsEdge : Prop :=
  (∀ s : State, s.pins.porstN = true → s.ttb.timeValid = false → s.ttb.state ≠ .holdover →
    exec .ppsEdge s = .next { s with ttb := { s.ttb with ppsAt := some s.ttb.time } }) ∧
  (∀ s : State, s.core = true → s.ttb.timeValid = true → bit s.ttb.cfg 14 = true → s.ttb.state ≠ .holdover →
    (fld s.ttb.cfg 8 6 * 100 : Int) < (secondPhase s.ttb.time).natAbs →
    exec .ppsEdge s = .next { s with
      ttb := { s.ttb with ppsAt := some s.ttb.time, ppsErr := min 65535 (s.ttb.ppsErr + 1) },
      sbx := { s.sbx with inbox := s.sbx.inbox ++
        [received s (occ 2 2 0 (unsigned 64 (secondPhase s.ttb.time)))] } }) ∧
  (∀ s : State, s.pins.porstN = true → s.ttb.timeValid = false → s.ttb.state = .holdover → bit s.ttb.cfg 15 = true →
    exec .ppsEdge s = .next { s with ttb := { s.ttb with
      ppsAt := some s.ttb.time, ppsPhase := secondPhase s.ttb.time * accUnit s.ttb } })

/-- The upper part of block time goes out once per millisecond (R79). -/
def Sys2Proof.Claims.UpperTime : Prop :=
  ∀ s : State, s.pins.porstN = true → s.ttb.upperAt + 1000000 ≤ s.ttb.time →
    exec .upperTimeMessage s = .next { s with ttb := { s.ttb with
      upper := s.ttb.time / 2 ^ 33, upperAt := s.ttb.time } }

/-! ## Edges and epochs -/

/-- An FSYNC edge of an enabled stream takes the stream's next frame number; a stream that is neither enabled nor the
master is not numbered (chapter "Time base and epochs", R81). -/
def Sys2Proof.Claims.FsyncNumbersFrames : Prop :=
  ∀ (s : State) (i : Nat), s.pins.porstN = true → i < 16 → boundaryDue s = false → s.ttb.running = false →
    masterOf s.ttb ≠ i →
    exec (.fsyncEdge i) s = .next (
      if bit s.ttb.epochCfg (28 + i) = true ∧ s.ttb.anyBoundary = true then
        { s with ttb := { s.ttb with
          frameNext := s.ttb.frameNext.modify i fun n => (n + 1) % 2 ^ 32,
          frameStamp := s.ttb.frameStamp.set i (some s.ttb.time) } }
      else s)

/-- Real master edges (R81, R82): one that comes less than 1 ms after the previous accepted or synthetic one counts in
early_count and does nothing else to the Timetable; an accepted one clears the run of synthetic edges and gives the
interval to the real edge before it. -/
def Sys2Proof.Claims.RealMasterEdge : Prop :=
  (∀ (s : State) (i p : Nat), s.core = true → i < 16 → boundaryDue s = false → masterOf s.ttb = i →
    s.ttb.running = false → s.ttb.anyBoundary = false → s.ttb.lastAccepted = some p → s.ttb.time < p + 1000000 →
    exec (.fsyncEdge i) s = .next { s with ttb := { s.ttb with early := min 65535 (s.ttb.early + 1) } }) ∧
  (∀ (s : State) (i p : Nat), s.core = true → i < 16 → boundaryDue s = false → masterOf s.ttb = i →
    s.ttb.running = true → s.ttb.armed = false → s.ttb.edgeCount + 1 < fld s.ttb.eff 12 4 + 1 →
    s.ttb.lastAccepted = some p → p + 1000000 ≤ s.ttb.time →
    Answers (.fsyncEdge i) s fun t =>
      t.ttb.prevMaster = some s.ttb.time ∧ t.ttb.lastAccepted = some s.ttb.time ∧
      t.ttb.lastReal = some s.ttb.time ∧ t.ttb.synthRun = 0 ∧ t.ttb.edgeCount = s.ttb.edgeCount + 1 ∧
      t.ttb.early = s.ttb.early ∧ t.ttb.announced = s.ttb.announced ∧
      t.ttb.interval = (match s.ttb.lastReal with | some r => some (s.ttb.time - r) | none => s.ttb.interval))

/-- Each boundary is announced as its edge is stamped, at the stamp plus 4 µs, and the writes accepted so far are the
ones that will apply at it (R81, R83, R266): at the first master edge after epoch_en, and then at every (fpe_m1 + 1)-th
one by the settings in force since the last boundary (R84, Table 20-1). -/
def Sys2Proof.Claims.BoundaryAnnounced : Prop :=
  ∀ (s : State) (d : Nat), edgesRun s = true → masterOf s.ttb = 16 → internalDue s.ttb = some d →
    d ≤ s.ttb.time →
    s.ttb.armed = true ∨ fld s.ttb.eff 12 4 + 1 ≤ s.ttb.edgeCount + 1 →
    Answers .internalMasterEdge s fun t =>
      (∃ b, t.ttb.announced = some b ∧ b.t = d + 4000 ∧ b.edge = d) ∧
      t.ttb.prevMaster = some d ∧ t.ttb.synth = s.ttb.synth ∧ t.ttb.synthRun = 0 ∧
      t.dsp.frozen = s.dsp.frozen ++ s.dsp.pending ∧ t.dsp.pending = [] ∧ t.ttb.epoch = s.ttb.epoch

/-- A synthetic master edge comes at the previous master edge plus interval × timeout_pct / 100, counts in synth_count
and leaves the interval as it is; the miss_limit-th in a row raises "epoch source lost" (R82). The settings are those in
force since the last boundary (R84), and no edge is stamped before the end of the last forward step (R75). -/
def Sys2Proof.Claims.SyntheticMasterEdge : Prop :=
  ∀ (s : State) (p d : Nat), edgesRun s = true → masterOf s.ttb ≠ 16 →
    s.ttb.armed = false → s.ttb.edgeCount + 1 < fld s.ttb.eff 12 4 + 1 → s.ttb.prevMaster = some p →
    d = max s.ttb.stepTo (p + s.ttb.interval.getD (fld s.ttb.eff 44 20 * 1000) * fld s.ttb.eff 16 8 / 100) →
    d ≤ s.ttb.time →
    s.ttb.synthRun < 255 →
    exec .syntheticMasterEdge s = .next { s with
      ttb := { s.ttb with
        prevMaster := some d, lastAccepted := some d, lastReal := none, lastEdge := d,
        synthRun := s.ttb.synthRun + 1, synth := min 65535 (s.ttb.synth + 1), edgeCount := s.ttb.edgeCount + 1 },
      sbx := if s.ttb.synthRun + 1 = fld s.ttb.eff 24 4 then
          { s.sbx with inbox := s.sbx.inbox ++ [received s (occ 2 3 0 (masterOf s.ttb))] }
        else s.sbx }

/-- At T the next epoch opens (R83, R84): epoch 0 after PORST_N, else the number after the last one issued, from
0xFFFF_FFFF on to 0; its boundary is no longer announced, and the frozen writes have gone. -/
def Sys2Proof.Claims.EpochOpens : Prop :=
  ∀ (s : State) (b : Boundary), s.core = true → s.ttb.announced = some b → b.t ≤ s.ttb.time →
    Answers .epochBoundary s fun t =>
      t.ttb.running = true ∧ t.ttb.epochT = b.t ∧ t.ttb.announced = none ∧ t.ttb.anyEpoch = true ∧
      t.dsp.frozen = [] ∧ t.ttb.epoch =
        (if s.ttb.running = true ∨ s.ttb.anyEpoch = true then (s.ttb.epoch + 1) % 2 ^ 32 else 0)

/-- The status of an epoch closes once its EPO record has been emitted and its last verdict is in; it stays closed, and
no other field of it changes (R70). -/
def Sys2Proof.Claims.EpochStatusCloses : Prop :=
  ∀ s : State, s.core = true → Answers .epochStatusClose s fun t =>
    t.ttb.stats = s.ttb.stats.map fun x =>
      { x with final := x.final || (x.emitted && verdictsDone s x.epoch) }

/-- The preparation of the next epoch fixes its sampling decision from what is known, until its master edge is stamped
(R214). A word of a Conductor pair's SRAM that its check finds wrong raises the pair's fault (R13, Table 16-2); that the
preparation reads such a word is the model's choice, with a free outcome (log 123). -/
def Sys2Proof.Claims.EpochPrepared : Prop :=
  ∀ s : State, s.fw = true → s.ttb.announced = none → s.ttb.running = true →
    let v := (Config.conductorCheck s.free).toNat
    exec .epochPreparation s = .next { s with
      wtp := { s.wtp with prep := some (prepared s ((s.ttb.epoch + 1) % 2 ^ 32)) },
      free := s.free + 1,
      sbx := { s.sbx with inbox := s.sbx.inbox ++
        if v % 4 = 1 then [received s (occ 12 3 (v / 4))]
        else if v % 4 = 2 then [received s (occ 12 4 (v / 4))] else [] } }

/-- A pending write of the epoch configuration takes the place of an earlier one and reads back clamped, and epoch_en
stays 1 once set (R84, R266). GOV_SET applies its L fields at once, with budget_rate held back for the next generation
and never above cap_rate (R66, Table 03-5). -/
def Sys2Proof.Claims.EpochAndGovernorSettings : Prop :=
  (∀ (s : State) (pk : List Word) (w : Nat), Issues 0x05 w pk s →
    let v := put (clampEpochCfg (pk.getD 1 0)) 8 1 (b2n (bit (pk.getD 1 0) 8 || bit s.ttb.epochCfg 8))
    exec (.epochSet w) s = .next (told w pk 0 0 v (taken w { s with dsp := { s.dsp with
      pending := s.dsp.pending.filter (fun e => match e with | .epochCfg _ => false | _ => true)
        ++ [.epochCfg v] } }))) ∧
  (∀ (s : State) (pk : List Word) (w : Nat), Issues 0x04 w pk s →
    let v := clampGovCfg (pk.getD 1 0)
    fld v 8 8 ≤ fld v 0 8 ∧
    exec (.govSet w) s = .next (told w pk 0 0 v (taken w { s with
      sbx := { s.sbx with
        govCfg := put v 8 8 (fld s.sbx.govCfg 8 8), govHint := if bit v 32 then s.sbx.govHint else 0 },
      dsp := { s.dsp with pending := s.dsp.pending ++ [.govBudget (fld v 8 8)] } })))

/-- COMMIT (R266): with no boundary announced and nothing pending it answers with the active generation at once; between
the stamp of an edge that places a boundary and its T it is held, and owes its completion. A held COMMIT is carried out
once no announced boundary waits. -/
def Sys2Proof.Claims.CommitTiming : Prop :=
  (∀ (s : State) (pk : List Word), Issues 0x03 16 pk s → s.ttb.announced = none →
    s.dsp.pending = [] → s.dsp.frozen = [] →
    exec (.commit 16) s = .next (told 16 pk 0 s.dsp.activeGen (BitVec.ofNat 64 (ofBe (s.dsp.fp.take 8))) (taken 16 s))) ∧
  (∀ (s : State) (pk : List Word), Issues 0x03 16 pk s → s.ttb.announced ≠ none →
    Answers (.commit 16) s fun t =>
      t.dsp.commitHeld = some (ticketOf 16 pk) ∧ t.dsp.pending = s.dsp.pending ∧ t.dsp.activeGen = s.dsp.activeGen ∧
      t.sdg = s.sdg ∧ t.ttb = s.ttb) ∧
  (∀ (s : State) (k : Ticket), s.core = true → s.dsp.commitHeld = some k → s.ttb.announced = none →
    Answers .commitHeldResume s fun t =>
      t.dsp.commitHeld = none ∧ t.dsp.pending = [] ∧ t.dsp.frozen = [] ∧ t.dsp.activeGen =
        (if s.dsp.frozen ++ s.dsp.pending = [] then s.dsp.activeGen else (s.dsp.activeGen + 1) % 2 ^ 32))

/-- The rate monitor gives the natural rate and the V/T band, with a value on a band edge in the higher band (R61). -/
def Sys2Proof.Claims.RateMonitor : Prop :=
  (∀ (s : State) (r : BitVec 8) (mv : Nat) (tj : Int), s.core = true →
    exec (.rateMonitorMeasure r mv tj) s = .next { s with sbx := { s.sbx with
      naturalRate := r.toNat, vtBand := 4 * vqBand mv + tjBand tj } }) ∧
  vqBand 649 = 0 ∧ vqBand 650 = 1 ∧ vqBand 725 = 2 ∧ vqBand 800 = 3 ∧
  tjBand (-1) = 0 ∧ tjBand 0 = 1 ∧ tjBand 60 = 2 ∧ tjBand 105 = 3

/-- Every microsecond a track in service takes cap_rate × 1 µs step tokens, and its bucket never holds more than twice
that (R65). -/
def Sys2Proof.Claims.GovernorBucket : Prop :=
  ∀ s : State, s.core = true → s.sbx.refillAt / 1000 < s.ttb.time / 1000 →
    Answers .governorRefill s fun t =>
      t.trk.length = s.trk.length ∧ t.sbx = { s.sbx with refillAt := s.ttb.time } ∧
      ∀ k < s.trk.length,
        ((s.track k).state = 1 → (t.track k).tokens =
          min (20 * fld s.sbx.govCfg 0 8) ((s.track k).tokens + 10 * fld s.sbx.govCfg 0 8)) ∧
        ((s.track k).state ≠ 1 → t.track k = s.track k)

/-! ## Command windows -/

/-- A full-width write into the command window of an open or departing sender (R44, R253, R257): with no packet under
way it is word 0, whose partition field is that of the page, and a packet of one word is ready at once; a further word
joins the packet, which is ready with its last word. A write with other byte enables has no effect. -/
def Sys2Proof.Claims.WindowAssembly : Prop :=
  (∀ (s : State) (w : Nat) (x : BitVec 64), s.core = true → w < 17 → (s.win w).isOpen = true → (s.win w).asm = none →
    fld x 36 4 = 0 → fifoUsed (s.win w) < 64 →
    exec (.commandWindowWrite w x 0xFF) s = .next { s with dsp := { s.dsp with
      wins := s.dsp.wins.modify w fun y => { y with
        asm := none, ready := y.ready ++ [{ words := [put x 52 4 (if w < 16 then w else 0)] }] } } }) ∧
  (∀ (s : State) (w : Nat) (x : BitVec 64) (a : Assembly), s.core = true → w < 17 → (s.win w).isOpen = true →
    (s.win w).asm = some a → a.drop = false →
    exec (.commandWindowWrite w x 0xFF) s = .next { s with dsp := { s.dsp with
      wins := s.dsp.wins.modify w fun y =>
        if a.words.length + 1 < a.need then { y with asm := some { a with words := a.words ++ [x] } }
        else { y with asm := none, ready := y.ready ++ [{ words := a.words ++ [x] }] } } }) ∧
  (∀ (s : State) (w : Nat) (x : BitVec 64) (be : BitVec 8), be ≠ 0xFF#8 →
    exec (.commandWindowWrite w x be) s = .next s)

/-- The end of a packet that does not come whole, 1 ms after its word 0: discarding of a refused packet ends, and an
incomplete packet is given up, counted and answered ABORTED with result 0xFFFFFFFF where the siding has room beyond its
reservations (R255, R256). -/
def Sys2Proof.Claims.PacketTimeouts : Prop :=
  (∀ (s : State) (w : Nat) (a : Assembly), s.core = true → (s.win w).asm = some a → a.drop = true →
    a.t0 + 1000000 ≤ s.ttb.time →
    exec (.packetDiscardTimeout w) s = .next { s with dsp := { s.dsp with
      wins := s.dsp.wins.modify w fun y => { y with asm := none } } }) ∧
  (∀ (s : State) (w : Nat) (a : Assembly), s.core = true → (s.win w).asm = some a → a.drop = false →
    a.t0 + 1000000 ≤ s.ttb.time → (s.siding (s.win w).compl).state = 1 →
    3 * ((s.win w).owes + 1) + (s.siding (s.win w).compl).coming ≤ (s.siding (s.win w).compl).free →
    exec (.packetAbandon w) s = .next (told w a.words 6 0xFFFFFFFF 0 { s with dsp := { s.dsp with
      wins := s.dsp.wins.modify w fun y => { y with asm := none, abandoned := min 255 (y.abandoned + 1) } } }))

/-- NOP echoes its parameter, READ_VERSION answers BLK_VERSION and the firmware version, and an opcode outside
Table 14-4 is answered UNKNOWN_OP (R269). -/
def Sys2Proof.Claims.AnswersOnly : Prop :=
  (∀ (s : State) (w : Nat) (pk : List Word), Issues 0x01 w pk s →
    exec (.nop w) s = .next (told w pk 0 (fld (pk.getD 0 0) 0 32) 0 (taken w s))) ∧
  (∀ (s : State) (w : Nat) (pk : List Word), Issues 0x02 w pk s →
    exec (.readVersion w) s = .next (told w pk 0 0x0204005A (BitVec.ofNat 64 s.dsp.fwVersion) (taken w s))) ∧
  (∀ (s : State) (w op : Nat) (pk : List Word), Issues op w pk s → op ∉ knownOps →
    exec (.unknownOp w) s = .next (told w pk 2 0 0 (taken w s)))

/-- The opcodes that only Root may send, as commands of the table. -/
def Sys2Proof.Claims.rootCommand (w : Nat) (ecc : Ecc) : Nat → Option Instr
  | 0x03 => some (.commit w) | 0x04 => some (.govSet w) | 0x05 => some (.epochSet w)
  | 0x10 => some (.partCreate w) | 0x11 => some (.partDetach w) | 0x12 => some (.windowSet w)
  | 0x13 => some (.grant w) | 0x20 => some (.stnConfig w) | 0x21 => some (.stnTagmap w)
  | 0x22 => some (.stnThresh w) | 0x23 => some (.stnSnoopwin w) | 0x32 => some (.ldgChain w)
  | 0x46 => some (.sdgWatermark w) | 0x53 => some (.coverSet w) | 0x90 => some (.sbxConfig w)
  | 0x91 => some (.sbxReadrec w) | 0x92 => some (.sbxClear w) | 0x93 => some (.reactSet w)
  | 0xA0 => some (.mtrRead ⟨w, ecc⟩) | 0xA1 => some (.mtrEvidence ⟨w, ecc⟩) | 0xA2 => some (.mtrMap w)
  | 0xA3 => some (.ttbSet w) | 0xB0 => some (.inject w) | 0xB1 => some (.selftest w)
  | 0x30 => some (.ldgRead w ecc) | 0x31 => some (.ldgReadPair w ⟨ecc, ecc⟩) | 0x33 => some (.ldgSnapcfg w)
  | 0x34 => some (.ldgClear w) | 0x40 => some (.sdgCreate w) | 0x41 => some (.sdgMark w)
  | 0x42 => some (.sdgRewind w) | 0x43 => some (.sdgRelease w) | 0x44 => some (.sdgFlush w)
  | 0x45 => some (.sdgLevel w) | 0x50 => some (.planLoad w) | 0x51 => some (.planArm w)
  | 0x52 => some (.planDisarm w) | 0x60 => some (.pltLoad w) | 0x61 => some (.pltZones w)
  | 0x62 => some (.pltArm w) | 0x70 => some (.wbrConfig w) | 0x80 => some (.sessionOpen w)
  | 0x81 => some (.sessionClose w) | 0x82 => some (.bundleUnwrap w)
  | _ => none

/-- A tenant that sends a command of Root's is answered NOT_PERMITTED, and under take-over every command of a window
is answered ABORTED: the packet is gone, and nothing else has changed (R269, R355). -/
def Sys2Proof.Claims.SenderRights : Prop :=
  (∀ (s : State) (w op : Nat) (pk : List Word) (e : Ecc) (c : Instr), rootCommand w e op = some c →
    op ∈ rootOps → w < 16 → s.fw = true → headPacket s w = some { words := pk } → nextInRound s = some w →
    pkOpcode pk = op → s.dsp.takeover = false → departing s w = false → (s.siding (s.win w).compl).state = 1 →
    exec c s = .next (told w pk 3 0 0 (taken w s))) ∧
  (∀ (s : State) (w op : Nat) (pk : List Word) (e : Ecc) (c : Instr), rootCommand w e op = some c →
    s.fw = true → headPacket s w = some { words := pk } → nextInRound s = some w → pkOpcode pk = op →
    s.dsp.takeover = true → (s.siding (s.win w).compl).state = 1 →
    exec c s = .next (told w pk 6 0 0 (taken w s)))

/-- The windows take turns, Root first (R260): a command of a window whose turn has not come, or of one that waits
under R262 or R264, changes nothing. -/
def Sys2Proof.Claims.TurnsAreKept : Prop :=
  ∀ (s : State) (w op : Nat) (e : Ecc) (c : Instr), rootCommand w e op = some c → nextInRound s ≠ some w →
    exec c s = .next s

/-! ## Partitions and security -/

/-- The next change of the partition table takes effect at once: no other change waits, and the last switch-over point
has its key, or no epoch runs yet (R278). -/
abbrev Sys2Proof.Claims.pointFree (s : State) : Prop :=
  s.ilk.changes = [] ∧ (s.ttb.running = false ∨ s.jct.switchWait = false)

/-- Two changes never share one switch-over point (R278): a change that would share one waits, and after a release the
oldest waiting change takes effect once the last point has its key, with a point of its own. That no change waits before
the first boundary is the model's choice (log 59). -/
def Sys2Proof.Claims.TableChangesWait : Prop :=
  (∀ (s : State) (pk : List Word) (p : Nat), Issues 0x13 16 pk s → p = fld (pk.getD 0 0) 0 4 →
    (s.part p).state = 1 → fld (pk.getD 0 0) 8 3 = 1 → s.ttb.running = true →
    s.jct.switchWait = true ∨ s.ilk.changes ≠ [] →
    let c := TableChange.mirror p (bit (pk.getD 0 0) 31)
    exec (.grant 16) s = .next (told 16 pk 0 p (BitVec.ofNat 64 (fld (pk.getD 0 0) 31 1)) (taken 16 { s with
      ilk := { s.ilk with changes := s.ilk.changes ++ [c] } }))) ∧
  (∀ (s : State) (c : TableChange) (r : List TableChange), s.core = true → s.ilk.changes = c :: r →
    Answers .junctionRelease s fun t =>
      ((junctionRelease s).jct.switchWait = true → t = junctionRelease s) ∧
      ((junctionRelease s).jct.switchWait = false →
        t.jct.switchWait = true ∧ t.ilk.serial = (s.ilk.serial + 1) % 2 ^ 32 ∧ t.ilk.changes = r ∧
        t.jct.released = (junctionRelease s).jct.released))

/-- PART_CREATE (R277): on a free entry, with a free siding from 4 up and room for it in the pool, the entry becomes
live with the named contexts that Root still owns, its completion siding is made and its window opens; the completion
names the siding and the contexts. Any other entry gives NO_RESOURCE. -/
def Sys2Proof.Claims.PartitionCreated : Prop :=
  (∀ (s : State) (pk : List Word) (p sid base : Nat), Issues 0x10 16 pk s → s.shaped = true →
    p = fld (pk.getD 0 0) 0 4 → (s.part p).state = 0 → pointFree s →
    (List.range 256).find? (fun i => decide (4 ≤ i) && (s.siding i).state == 0) = some sid →
    placeSiding s sid (min 10 (fld (pk.getD 0 0) 4 4)) = some base →
    Answers (.partCreate 16) s fun t =>
      t.part p = { Part.reset with state := 1 } ∧ (∀ q, q ≠ p → t.part q = s.part q) ∧
      (t.win p).isOpen = true ∧ (t.win p).compl = sid ∧ (t.win p).ready = [] ∧
      (t.siding sid).state = 1 ∧ (t.siding sid).owner = p ∧ (t.siding sid).producer = 2 ∧
      (t.siding sid).base = base ∧ (t.siding sid).intLevel = 2 ∧ (t.siding sid).intEn = true ∧
      t.ilk.serial = (s.ilk.serial + 1) % 2 ^ 32 ∧ t.jct.switchWait = true ∧
      (∀ c < 32, t.ctxOwner c =
        if (fld (pk.getD 1 0) 0 32).testBit c = true ∧ s.ctxOwner c = 16 then p else s.ctxOwner c) ∧
      t.ttb = s.ttb ∧ t.mtr = s.mtr) ∧
  (∀ (s : State) (pk : List Word), Issues 0x10 16 pk s → (partSoon s (fld (pk.getD 0 0) 0 4)).1 ≠ 0 →
    exec (.partCreate 16) s = .next (told 16 pk 4 0 0 (taken 16 s)))

/-- PART_DETACH (R293, Table 15-7): a live entry becomes detaching, its window closes and the detach is under way as a
long command; a second detach of the entry, and a detach of one that is not live, gives NO_RESOURCE. -/
def Sys2Proof.Claims.DetachBegins : Prop :=
  (∀ (s : State) (pk : List Word) (p : Nat), Issues 0x11 16 pk s → s.shaped = true →
    p = fld (pk.getD 0 0) 0 4 → detachable s p = true → pointFree s →
    Answers (.partDetach 16) s fun t =>
      (t.part p).state = 2 ∧ (t.win p).isOpen = false ∧
      (∃ d ∈ t.ilk.detaches, d.p = p ∧ d.at_ = some s.ttb.time ∧ d.ticket = ticketOf 16 pk) ∧
      (∀ d ∈ s.ilk.detaches, d.p ≠ p → d ∈ t.ilk.detaches) ∧
      t.ilk.serial = (s.ilk.serial + 1) % 2 ^ 32 ∧ t.jct.switchWait = true) ∧
  (∀ (s : State) (pk : List Word), Issues 0x11 16 pk s → detachable s (fld (pk.getD 0 0) 0 4) = false →
    exec (.partDetach 16) s = .next (told 16 pk 4 0 0 (taken 16 s)))

/-- Once steps 5 to 7 of a detach are complete the entry is scrubbing, its window holds nothing and no packet, and the
scrub is its own (R293). -/
def Sys2Proof.Claims.ScrubBegins : Prop :=
  ∀ (s : State) (p : Nat) (d : Detach), s.core = true → s.shaped = true → p < 16 →
    detachOf s p = some d → d.scrub = false → pointFree s → readyToScrub s p = true → (s.session p).isOpen = false →
    Answers (.detachScrubStart p) s fun t =>
      (t.part p).state = 3 ∧ (t.win p).ready = [] ∧ t.ilk.scrubPart = p ∧
      (∀ e ∈ t.ilk.detaches, e.p = p → e.scrub = true) ∧ (∀ q, q ≠ p → (t.part q).state = (s.part q).state)

/-- After the scrub and the final snapshot the entry is free, the detach has gone and ILK_RINT tells Root
(R285, R293). -/
def Sys2Proof.Claims.DetachEnds : Prop :=
  ∀ (s : State) (p : Nat) (d : Detach), s.core = true → s.shaped = true → p < 16 →
    detachOf s p = some d → (s.part p).state = 3 → pointFree s → d.scrubEnd = true → d.snapOk.isSome = true →
    Answers (.detachComplete p) s fun t =>
      t.part p = Part.reset ∧ t.ilk.detaches = s.ilk.detaches.filter (fun x => x.p != p) ∧
      t.ilk.rint = s.ilk.rint ||| 4#4 ∧ t.ilk.serial = (s.ilk.serial + 1) % 2 ^ 32 ∧
      (∀ q, q ≠ p → t.part q = s.part q)

/-- WINDOW_SET sets one window of an owner, page-aligned (R281); an owner in detach is not named (R296). -/
def Sys2Proof.Claims.WindowSet : Prop :=
  (∀ (s : State) (pk : List Word), Issues 0x12 16 pk s → barredPart s (ofOwnerCode (fld (pk.getD 0 0) 0 5)) = false →
    let x : Window := {
      base := pack [(12, 36, fld (pk.getD 1 0) 0 48 / 4096), (1, 1, b2n (bit (pk.getD 0 0) 11)),
        (0, 1, b2n (bit (pk.getD 0 0) 10))],
      size := pack [(12, 36, fld (pk.getD 2 0) 0 48 / 4096)] }
    let put := fun l : List Window => l.set (fld (pk.getD 0 0) 8 2) x
    exec (.windowSet 16) s = .next (told 16 pk 0 (fld (pk.getD 0 0) 8 2 * 256) (pack [(12, 36, fld (pk.getD 1 0) 12 36)])
      (taken 16 { s with ilk := { s.ilk with win := s.ilk.win.modify (ofOwnerCode (fld (pk.getD 0 0) 0 5)) put } }))) ∧
  (∀ (s : State) (pk : List Word), Issues 0x12 16 pk s → barredPart s (ofOwnerCode (fld (pk.getD 0 0) 0 5)) = true →
    exec (.windowSet 16) s = .next (told 16 pk 3 0 0 (taken 16 s)))

/-- GRANT (R269): user_read of the named contexts that the partition owns, or its mirror stream as a table change; a free
entry gives NO_RESOURCE and one in detach NOT_PERMITTED. -/
def Sys2Proof.Claims.Grant : Prop :=
  (∀ (s : State) (pk : List Word) (p : Nat), Issues 0x13 16 pk s → p = fld (pk.getD 0 0) 0 4 →
    (s.part p).state = 1 → fld (pk.getD 0 0) 8 3 ≠ 1 →
    let m := fld (pk.getD 1 0) 0 32 &&& ctxMaskOf s p
    let f := fun i w => if m.testBit i then put w 16 1 (fld (pk.getD 0 0) 31 1) else w
    exec (.grant 16) s = .next (told 16 pk 0 p (BitVec.ofNat 64 m)
      (taken 16 { s with ldg := { s.ldg with ctx := s.ldg.ctx.mapIdx f } }))) ∧
  (∀ (s : State) (pk : List Word) (p : Nat), Issues 0x13 16 pk s → p = fld (pk.getD 0 0) 0 4 →
    (s.part p).state = 1 → fld (pk.getD 0 0) 8 3 = 1 → pointFree s →
    let on := bit (pk.getD 0 0) 31
    let f := fun x : Part => { x with mirror := on }
    exec (.grant 16) s = .next (told 16 pk 0 p (BitVec.ofNat 64 (fld (pk.getD 0 0) 31 1)) (taken 16 { s with
      jct := { s.jct with switchWait := true },
      ilk := { s.ilk with parts := s.ilk.parts.modify p f, serial := (s.ilk.serial + 1) % 2 ^ 32 } }))) ∧
  (∀ (s : State) (pk : List Word), Issues 0x13 16 pk s → (s.part (fld (pk.getD 0 0) 0 4)).state ≠ 1 →
    exec (.grant 16) s = .next (told 16 pk (if (s.part (fld (pk.getD 0 0) 0 4)).state = 0 then 4 else 3) 0 0
      (taken 16 s)))

/-- BUNDLE_UNWRAP (R182, R271, R292): without an identity, or in the test state, NOT_PERMITTED; into an empty slot it reads
the head of the binding record at the packet's address as a long command; a free of the sender's own key that nothing
uses empties the slot in all decrypt stages. -/
def Sys2Proof.Claims.BundleKeys : Prop :=
  (∀ (s : State) (w : Nat) (pk : List Word), Issues 0x82 w pk s → s.ilk.testState = true ∨ s.ilk.identity = none →
    exec (.bundleUnwrap w) s = .next (told w pk 3 0 0 (taken w s))) ∧
  (∀ (s : State) (w : Nat) (pk : List Word), Issues 0x82 w pk s → s.ilk.testState = false →
    s.ilk.identity.isSome = true → bit (pk.getD 0 0) 3 = false → bit (pk.getD 0 0) 4 = false →
    keySlot s (fld (pk.getD 0 0) 0 3) = none → keyComing s (fld (pk.getD 0 0) 0 3) = false → w < s.dsp.wins.length →
    Answers (.bundleUnwrap w) s fun t =>
      t.sdg = s.sdg ∧ t.ilk = s.ilk ∧ (t.win w).longs = (s.win w).longs + 1 ∧
      ∃ j, t.mem.jobs = s.mem.jobs ++ [j] ∧ j.addr = fld (pk.getD 1 0) 0 48 ∧ j.len = 80 ∧ j.owner = w ∧
        j.write = false) ∧
  (∀ (s : State) (w : Nat) (pk : List Word) (x : KeySlot), Issues 0x82 w pk s → s.ilk.testState = false →
    s.ilk.identity.isSome = true → bit (pk.getD 0 0) 3 = true → s.shaped = true → s.dsp.heldQ = [] →
    s.ilk.keys.length = 8 → keySlot s (fld (pk.getD 0 0) 0 3) = some x → w = 16 ∨ x.owner = w →
    bundleInUse s x.bundle = false →
    Answers (.bundleUnwrap w) s fun t =>
      keySlot t (fld (pk.getD 0 0) 0 3) = none ∧
      (∀ k < 4, (t.track k).slotValid.getLsbD (fld (pk.getD 0 0) 0 3) = false) ∧
      t.sdg = (told w pk 0 (fld (pk.getD 0 0) 0 3) (BitVec.ofNat 64 x.bundle) s).sdg)

/-- One block of the entropy source (R289): raw bits that pass both health tests condition into 32 bytes; bits that fail
one take the source out, release nothing and raise the U fault. -/
def Sys2Proof.Claims.EntropySource : Prop :=
  (∀ (s : State) (raw : BitVec 1024), s.core = true → s.ilk.trng = 1 → s.mtr.state ≠ 2 → s.exp.opens = [] →
    (healthTest s.ilk.rctRun raw).1 = false → (healthTest s.ilk.rctRun raw).2.1 = false →
    exec (.entropyBlock raw) s = .next { s with ilk := { s.ilk with
      rctRun := (healthTest s.ilk.rctRun raw).2.2, blocks := (s.ilk.blocks + 1) % 2 ^ 32,
      entropy := s.ilk.entropy ++ sha256 (leBytes 128 raw.toNat) } }) ∧
  (∀ (s : State) (raw : BitVec 1024), s.core = true → s.ilk.trng = 1 → s.exp.opens = [] →
    (healthTest s.ilk.rctRun raw).1 = true ∨ (healthTest s.ilk.rctRun raw).2.1 = true →
    Answers (.entropyBlock raw) s fun t =>
      t.ilk.trng = 2 ∧ t.ilk.entropy = s.ilk.entropy ∧ t.ilk.blocks = s.ilk.blocks ∧
      s.sbx.inbox.length < t.sbx.inbox.length)

/-- A read of an interrupt word returns it and clears it (R284, R285). -/
def Sys2Proof.Claims.InterruptWords : Prop :=
  (∀ (s : State) (p : Nat), s.core = true →
    let clear := fun x : Part => { x with pint := 0 }
    exec (.ilkPintRc p) s = .next { s with
      pins := { s.pins with regData := BitVec.ofNat 64 (s.part p).pint.toNat },
      ilk := { s.ilk with parts := s.ilk.parts.modify p clear } }) ∧
  (∀ s : State, s.core = true →
    exec .ilkRintRc s = .next { s with
      pins := { s.pins with regData := BitVec.ofNat 64 s.ilk.rint.toNat }, ilk := { s.ilk with rint := 0 } })

/-! ## Probe stations -/

/-- A station that counts its edges: addressed, powered, running, with its delay measured and nothing owed from a stop,
and the edge's stamp is one that an edge can carry now (R75, R79, R83). -/
abbrev Sys2Proof.Claims.countsAt (s : State) (n stamp : Nat) : Prop :=
  s.core = true ∧ n < s.stn.length ∧ (s.station n).addressed = true ∧ (s.station n).vioOff = false ∧
  (s.station n).st = .running ∧ (s.station n).inReset = false ∧ (s.station n).measuring = none ∧
  (s.station n).resumes = false ∧ stampFits s (s.station n) stamp = true ∧ s.ttb.running = true ∧
  s.ttb.anyBoundary = true

/-- Station `n` as `x`, and every other station as it was. -/
abbrev Sys2Proof.Claims.onlyStation (s t : State) (n : Nat) (x : Station) : Prop :=
  t.station n = x ∧ ∀ m, m ≠ n → t.station m = s.station m

/-- A counted edge (R89, R93): with counting on and trace off, the active bank adds 1 to the delta of every event that is
true, and to no other; with no beat on the probe port nothing else of the block changes but the station's own edge
notes. -/
def Sys2Proof.Claims.EdgeCounts : Prop :=
  ∀ (s : State) (n stamp : Nat) (inp : StnInputs), countsAt s n stamp → stnCountEn (s.station n) = true →
    stnTraceEn (s.station n) = false → inp.tag = none → inp.snoop = none → inp.acc = none →
    canonical 0 (s.station n).active.deltas = true →
    Answers (.stationEdge n stamp inp) s fun t =>
      (∀ e < 512, look 0 e (t.station n).active.deltas =
        look 0 e (s.station n).active.deltas + (if (edgeEvents (s.station n) inp).getLsbD e then 1 else 0)) ∧
      canonical 0 (t.station n).active.deltas = true ∧ (t.station n).active.ctx = (s.station n).active.ctx ∧
      (t.station n).lastStamp = stamp ∧ (t.station n).vacated = (s.station n).vacated ∧
      (∀ m, m ≠ n → t.station m = s.station m) ∧ t.ldg = s.ldg ∧ t.jct = s.jct ∧ t.ttb = s.ttb ∧ t.sbx = s.sbx

/-- A taken tag (R92, R94): the lowest matching map entry gives the context, else default_ctx; with an empty bank it is
current from this edge on, and the bank before it is vacated, unless another trigger has vacated one on this edge
(R89). With no empty bank the counting goes on in the old context, every counter of the station is count-lost in both
contexts, and the overrun is counted and raises its C fault. -/
def Sys2Proof.Claims.TagSwitchesContext : Prop :=
  (∀ (s : State) (n stamp : Nat) (tag : BitVec 16), countsAt s n stamp → stnTraceEn (s.station n) = false →
    stnCountEn (s.station n) = false → (s.station n).vacated.length < 7 →
    (s.station n).active.since ≤ (s.station n).lastStamp →
    tagCtx (s.station n) tag.toNat ≠ (s.station n).curCtx →
    Answers (.stationEdge n stamp { ev := 0, occ := [], snoop := none, tag := some tag, acc := none }) s fun t =>
      (t.station n).curCtx = tagCtx (s.station n) tag.toNat ∧ (t.station n).curTag = tag.toNat ∧
      (t.station n).active.ctx = tagCtx (s.station n) tag.toNat ∧ (t.station n).active.epoch = s.ttb.epoch ∧
      (t.station n).active.deltas = [] ∧
      (t.station n).vacated = (s.station n).vacated ++ [{ (s.station n).active with mark := false }]) ∧
  (∀ (s : State) (n stamp : Nat) (tag : BitVec 16), countsAt s n stamp → stnTraceEn (s.station n) = false →
    stnCountEn (s.station n) = false → (s.station n).active.deltas = [] →
    (s.station n).lastStamp < (s.station n).active.since → tagCtx (s.station n) tag.toNat ≠ (s.station n).curCtx →
    Answers (.stationEdge n stamp { ev := 0, occ := [], snoop := none, tag := some tag, acc := none }) s fun t =>
      (t.station n).curCtx = tagCtx (s.station n) tag.toNat ∧
      (t.station n).active = { (s.station n).active with ctx := tagCtx (s.station n) tag.toNat } ∧
      (t.station n).vacated = (s.station n).vacated ∧ t.sbx = s.sbx) ∧
  (∀ (s : State) (n stamp : Nat) (tag : BitVec 16), countsAt s n stamp → stnTraceEn (s.station n) = false →
    stnCountEn (s.station n) = false → 7 ≤ (s.station n).vacated.length →
    (s.station n).active.since ≤ (s.station n).lastStamp →
    tagCtx (s.station n) tag.toNat ≠ (s.station n).curCtx →
    Answers (.stationEdge n stamp { ev := 0, occ := [], snoop := none, tag := some tag, acc := none }) s fun t =>
      (t.station n).curCtx = (s.station n).curCtx ∧
      (t.station n).active = { (s.station n).active with
        lost := (s.station n).active.lost ++ lostDeltas (s.station n).curCtx s.ttb.epoch (List.range 512) ++
          lostDeltas (tagCtx (s.station n) tag.toNat) s.ttb.epoch (List.range 512) } ∧
      (t.station n).lateCtx = some (tagCtx (s.station n) tag.toNat) ∧
      (t.station n).ctxOverrun = min 65535 ((s.station n).ctxOverrun + 1) ∧
      t.sbx.inbox = s.sbx.inbox ++ [received s (occ 1 4 n ((s.station n).curCtx * 2 ^ 8 + tagCtx (s.station n) tag.toNat))])

/-- Delta banks (R89, R92, R131): a bank active for 8 µs is swapped for an empty one under the same context; the oldest
vacated bank hands its deltas over, with its count-lost markings and the end-of-epoch mark where it carries one, and is
free. Both go on under BLK_RST_N, for the tallies keep counting (Table 17-8). -/
def Sys2Proof.Claims.DeltaBanks : Prop :=
  (∀ (s : State) (n : Nat), s.stationsRun = true → s.ttb.anyBoundary = true → n < s.stn.length → (s.station n).addressed = true →
    (s.station n).vacated.length < 7 → (s.station n).active.since + 8000 ≤ s.ttb.time →
    (s.station n).curCtx ∈ (s.station n).used →
    Answers (.deltaBankTimer n) s fun t => onlyStation s t n { s.station n with
      vacated := (s.station n).vacated ++ [{ (s.station n).active with mark := false }],
      active := { ctx := (s.station n).curCtx, epoch := s.ttb.epoch, since := s.ttb.time, deltas := [],
                  mark := false, lost := [] } }) ∧
  (∀ (s : State) (n : Nat) (b : Bank) (r : List Bank), s.stationsRun = true → n < s.stn.length →
    (s.station n).vacated = b :: r → (s.station n).lateCtx = none →
    Answers (.deltaBankHandoverEnd n []) s fun t => onlyStation s t n { s.station n with
      vacated := r,
      link := (s.station n).link ++
        (b.deltas.map (fun d => { ctx := b.ctx, ev := d.1, count := d.2, epoch := b.epoch, mark := false,
                                  lost := false }) ++ b.lost ++
          if b.mark then [{ ctx := b.ctx, ev := 0, count := 0, epoch := b.epoch, mark := true, lost := false }]
          else []) })

/-- A measured path delay ends the measurement: counting starts in default_ctx with no tag taken (R88, R94). -/
def Sys2Proof.Claims.DelayMeasured : Prop :=
  ∀ (s : State) (n : Nat) (d : BitVec 16), s.core = true → n < s.stn.length → (s.station n).addressed = true →
    (s.station n).measuring = some (0, 0) →
    Answers (.stationDelayMeasured n d) s fun t =>
      (t.station n).measuring = none ∧ (t.station n).pathDelay = d.toNat ∧
      (t.station n).curCtx = fld (s.station n).cfg 27 5 ∧ (t.station n).tagTaken = false ∧
      (t.station n).active.ctx = fld (s.station n).cfg 27 5 ∧ (t.station n).active.epoch = s.ttb.epoch ∧
      (∀ m, m ≠ n → t.station m = s.station m) ∧ t.sbx = s.sbx ∧ t.ttb = s.ttb

/-- The Junction takes a record of a station (R104): its line-clear time rises to the record's stamp, and the record joins
the input with its trailer; a station with nothing to hand over clears its line up to its latest stamp. -/
def Sys2Proof.Claims.StationHandsOver : Prop :=
  (∀ (s : State) (n : Nat) (r : Rec) (q : List Rec), s.core = true → n < s.stn.length → handsOver s n = true →
    (s.jct.stnIn.getD n []).length < 16 → (s.station n).trace = r :: q →
    Answers (.stationRecordHandover n .ok) s fun t =>
      onlyStation s t n { s.station n with
        trace := q, tLc := max (s.station n).tLc r.ts, lastHand := s.ttb.time } ∧
      t.jct.stnIn = s.jct.stnIn.modify n (fun l => l ++
        [{ r with trailer := if r.type = 4 then none else some (trailerWord s none r.ts) }]) ∧
      t.sbx = s.sbx ∧ t.ttb = s.ttb) ∧
  (∀ (s : State) (n : Nat), s.core = true → n < s.stn.length → handsOver s n = true → (s.station n).trace = [] →
    (s.station n).drops = none → (s.station n).dropTrace = false → (s.station n).dropOp = false →
    (s.station n).measuring = none → (s.station n).lastHand + fld (s.station n).cfg 36 8 * 100 ≤ s.ttb.time →
    Answers (.lineClearToken n) s fun t => onlyStation s t n { s.station n with
      tLc := max (s.station n).tLc (s.station n).lastStamp, lastHand := s.ttb.time, tokenDue := false })

/-- Parking (R34, R102, R382): with no edge for 2 µs a running station is parked and counted; as the clock resumes it runs
again, owes the discards of its capture buffer, and takes the previous value of every event as 0. The edges before it has
left the parked state count and leave no record. -/
def Sys2Proof.Claims.Parking : Prop :=
  (∀ (s : State) (n : Nat), s.core = true → n < s.stn.length → (s.station n).addressed = true →
    (s.station n).st = .running → (s.station n).inReset = false → (s.station n).lastEdge + 2000 ≤ s.ttb.time →
    Answers (.stationPark n) s fun t =>
      (t.station n).st = .parked ∧ (t.station n).parkCount = min 65535 ((s.station n).parkCount + 1) ∧
      (t.station n).trace = (s.station n).trace ∧ (∀ m, m ≠ n → t.station m = s.station m) ∧ t.jct = s.jct) ∧
  (∀ (s : State) (n stamp : Nat), s.core = true → n < s.stn.length → (s.station n).st = .parked →
    (s.station n).vioOff = false → (s.station n).inReset = false →
    stampFits s { s.station n with lastStamp := 0 } stamp = true → s.ttb.upper = stamp / 2 ^ 33 →
    Answers (.stationUnpark n stamp) s fun t => onlyStation s t n { s.station n with
      st := .running, resumes := true, prevEv := 0, quiet := 0, lastEdge := s.ttb.time, lastHand := s.ttb.time,
      clearAt := s.ttb.time, lastStamp := max (s.station n).lastStamp stamp,
      active := { (s.station n).active with epoch := s.ttb.epoch, since := s.ttb.time } }) ∧
  (∀ (s : State) (n stamp : Nat) (inp : StnInputs), s.core = true → n < s.stn.length → (s.station n).addressed = true →
    (s.station n).vioOff = false → (s.station n).st = .parked → (s.station n).inReset = false →
    (s.station n).measuring = none → stampFits s (s.station n) stamp = true → s.ttb.anyBoundary = true → stnCountEn (s.station n) = true → inp.tag = none →
    Answers (.stationEdge n stamp inp) s fun t =>
      (t.station n).active = countEvents (edgeEvents (s.station n) inp).toNat (s.station n).active ∧
      (t.station n).st = .parked ∧ (t.station n).trace = (s.station n).trace ∧
      (t.station n).op = (s.station n).op ∧ (∀ m, m ≠ n → t.station m = s.station m) ∧ t.jct = s.jct)

/-- A running station that hands over nothing for 16 lc_interval with an empty Junction input is failed: it leaves the
merge and raises its U fault (R105, R112). -/
def Sys2Proof.Claims.StationFails : Prop :=
  ∀ (s : State) (n : Nat), s.core = true → n < s.stn.length → handsOver s n = true → (s.station n).st = .running →
    s.jct.stnIn.getD n [] = [] → max (s.station n).lastHand (s.station n).clearAt + 16 * (fld (s.station n).cfg 36 8 * 100) ≤ s.ttb.time →
    s.ttb.time < (s.station n).lastEdge + 2000 →
    Answers (.stationFail n) s fun t =>
      (t.station n).st = .failed ∧ (t.station n).trace = [] ∧ inMerge t n = false ∧
      (∀ m, m ≠ n → t.station m = s.station m) ∧
      t.sbx.inbox = s.sbx.inbox ++ [received s (occ 1 6 n 0 [(s.station n).curCtx])]

/-- The reset and the rail of a station (R35, R36, R88): in reset or without its rail it takes no input and is treated as
parked; released, or with the rail back, an addressed station measures its delay anew over 64 edges. Deltas that it had
not flushed by then are reported lost. -/
def Sys2Proof.Claims.StationResetAndRail : Prop :=
  (∀ (s : State) (n : Nat), n < s.stn.length → (s.station n).inReset = false →
    Answers (.stnRstAssert n) s fun t =>
      (t.station n).inReset = true ∧ asParked (t.station n) = true ∧ (t.station n).seq = (s.station n).seq ∧
      (∀ m, m ≠ n → t.station m = s.station m)) ∧
  (∀ (s : State) (n : Nat), n < s.stn.length → (s.station n).inReset = true → (s.station n).addressed = true →
    Answers (.stnRstRelease n) s fun t =>
      (t.station n).inReset = false ∧ (t.station n).measuring = some (64, 0) ∧
      (∀ m, m ≠ n → t.station m = s.station m)) ∧
  (∀ (s : State) (n : Nat), n < s.stn.length →
    Answers (.vioStnOff n) s fun t => onlyStation s t n { s.station n with vioOff := true } ∧
      asParked (t.station n) = true) ∧
  (∀ (s : State) (n : Nat), n < s.stn.length → (s.station n).vioOff = true → (s.station n).addressed = true →
    Answers (.vioStnOn n) s fun t =>
      (t.station n).vioOff = false ∧ (t.station n).measuring = some (64, 0) ∧ (t.station n).resumes = true ∧
      (t.station n).lastEdge = s.ttb.time ∧ (t.station n).seq = (s.station n).seq ∧
      (∀ m, m ≠ n → t.station m = s.station m)) ∧
  (∀ (s : State) (n : Nat), s.stationsRun = true → n < s.stn.length → (s.station n).addressed = true →
    (s.station n).inReset = true → (s.station n).quiet < 1024 → (s.station n).active.deltas ≠ [] →
    (s.station n).vacated = [] →
    Answers (.stnRstRelease n) s fun t =>
      (t.station n).flushInc = true ∧ (t.station n).active.deltas = [] ∧
      (∀ e < 512, lostDeltas (s.station n).active.ctx (s.station n).active.epoch [e] ⊆ (t.station n).link) ∧
      (∃ o ∈ (if s.core then t.sbx.inbox else [occ 1 5 n (s.station n).active.ctx]),
        (o.sub, o.cause, o.engine, o.detail) = (1, 5, n, (s.station n).active.ctx % 2 ^ 64)))

/-- The station commands (R106, R270, R373): their E-class words enter the pending generation clamped, lc_interval
applies at once, and a command that names a station at or beyond enum_count answers DONE with no other effect. -/
def Obligations.StationCommands : Prop :=
  (∀ (s : State) (pk : List Word) (n : Nat), Issues 0x20 16 pk s → n = fld (pk.getD 0 0) 0 6 → n < s.dsp.enumCount →
    let c := clampStnCfg (s.params.accTapEn.getLsbD n) (pk.getD 1 0)
    let now := fun x : Station => { x with cfg := put x.cfg 36 8 (fld c 36 8) }
    exec (.stnConfig 16) s = .next (told 16 pk 0 n c (taken 16 { s with
      stn := s.stn.modify n now,
      dsp := { s.dsp with pending := s.dsp.pending ++
        [.stnCfg n c (clampEvsel (pk.getD 2 0)) (clampEvsel (pk.getD 3 0)) (pk.getD 4 0)] } }))) ∧
  (∀ (s : State) (a b : Word) (n k : Nat), Issues 0x21 16 [a, b] s → n = fld a 0 6 → n < s.dsp.enumCount →
    k = fld a 8 5 →
    exec (.stnTagmap 16) s = .next (told 16 [a, b] 0 (256 + n) 0 (taken 16 { s with dsp := { s.dsp with
      pending := s.dsp.pending ++ [.stnReg n (0x40 + 8 * k) (clampTagmap b)] } }))) ∧
  (∀ (s : State) (a b : Word) (n k : Nat), Issues 0x22 16 [a, b] s → n = fld a 0 6 → n < s.dsp.enumCount →
    k = fld a 8 4 →
    exec (.stnThresh 16) s = .next (told 16 [a, b] 0 (256 + n) 0 (taken 16 { s with dsp := { s.dsp with
      pending := s.dsp.pending ++ [.stnReg n (0x140 + 8 * k) (clampThresh b)] } }))) ∧
  (∀ (s : State) (pk : List Word) (n o : Nat), Issues 0x23 16 pk s → n = fld (pk.getD 0 0) 0 6 →
    n < s.dsp.enumCount → o = 0x1C0 + 0x40 * fld (pk.getD 0 0) 8 3 →
    exec (.stnSnoopwin 16) s = .next (told 16 pk 0 n (clampWinCtl (pk.getD 3 0)) (taken 16 { s with
      dsp := { s.dsp with pending := s.dsp.pending ++
        [.stnReg n o (clampWinAddr (pk.getD 1 0)), .stnReg n (o + 8) (clampWinAddr (pk.getD 2 0)),
         .stnReg n (o + 16) (clampWinCtl (pk.getD 3 0))] } }))) ∧
  (∀ (s : State) (pk : List Word), Issues 0x20 16 pk s → s.dsp.enumCount ≤ fld (pk.getD 0 0) 0 6 →
    exec (.stnConfig 16) s = .next (told 16 pk 0 0 0 (taken 16 s)))

/-! ## Operand crossbar, Junction, Marshalling Yard -/

/-- The head of a station's operand region leaves it once its consumers accept it, in order (R117); a beat for the
Weighbridge alone reaches it and nothing else, with its column by the row_pitch at its edge (R97). -/
def Sys2Proof.Claims.OperandBeats : Prop :=
  (∀ (s : State) (n : Nat) (it : OpItem) (r : List OpItem), s.core = true → handsOver s n = true →
    (s.station n).op = it :: r → accepted s it = true →
    Answers (.operandBeatDeliver n .ok) s fun t => (t.station n).op = r) ∧
  (∀ (s : State) (n stamp ctx w o p : Nat) (a : BitVec 48) (at8 : BitVec 8) (d : BitVec 512) (r : List OpItem),
    s.core = true → handsOver s n = true →
    (s.station n).op = .snoop stamp ctx w a o p at8 d false true false :: r →
    Answers (.operandBeatDeliver n .ok) s fun t =>
      t = wbrBeat n w ctx (o % p) stamp (some d) (s.modStation n fun x => settleDrops { x with op := r })) ∧
  (∀ (s : State) (n : Nat) (it : OpItem) (r : List OpItem) (e : Ecc), (s.station n).op = it :: r →
    accepted s it = false → exec (.operandBeatDeliver n e) s = .next s)

/-- The merge (R110, R111): a record that lies at the head of its source and whose key is below every other frontier is
released, one at a time; while no head lies below all other frontiers, or the Marshalling Yard does not accept, nothing
is released. -/
def Sys2Proof.Claims.MergeOrder : Prop :=
  (∀ (s : State) (i : Nat) (k : Nat × Nat) (r : Rec), s.core = true → s.myd.inq = [] → boundaryDue s = false →
    (i, k, some r) ∈ sources s →
    (∀ x ∈ sources s, x ≠ (i, k, some r) → keyLt k x.2.1 = true) →
    Answers .junctionRelease s fun t =>
      (t.myd.inq.map fun x => (x.type, x.ts, x.src, x.seq)) = [(r.type, r.ts, r.src, r.seq)] ∧
      t.jct.released = r.ts) ∧
  (∀ s : State, s.core = true → s.ilk.changes = [] →
    (s.myd.inq ≠ [] ∨ boundaryDue s = true ∨
      ∀ x ∈ sources s, x.2.2.isSome = true → ∃ y ∈ sources s, keyLt y.2.1 x.2.1 = true) →
    exec .junctionRelease s = .next s)

/-- The due time of a record passes while a source still owes it: overrun_count advances and the C fault names the source
and the due time (R113). -/
def Sys2Proof.Claims.InternalRecordOverdue : Prop :=
  ∀ (s : State) (k : Nat) (o : Owed) (r : List Owed), s.core = true → s.jct.owed = o :: r →
    o.src = srcOfInput k → o.counted = false → heldPast s o = true →
    exec (.internalRecordOverdue k) s = .next { s with
      jct := { s.jct with owed := { o with counted := true } :: r, overrun := min (2 ^ 32 - 1) (s.jct.overrun + 1) },
      sbx := { s.sbx with inbox := s.sbx.inbox ++ [{ occ 3 1 o.src o.due with time := s.ttb.time }] } }

/-- The Marshalling Yard delivers a record to a stream's siding in full form, and counts it in the stream if it is of the
deterministic set (R119, R122, Table 06-14); the siding remembers the stream. While a destination has not taken what came before, the
record waits (R347). -/
def Sys2Proof.Claims.RecordDelivered : Prop :=
  (∀ (s : State) (r : Rec) (q : List Rec) (d : Dest) (k : Nat), s.core = true → s.myd.inq = r :: q → r.dests = [d] →
    d.siding = some k → d.exp = false → (s.siding k).state = 1 → (s.siding k).prodq = [] → r.type ≠ 5 →
    let item : ProdItem :=
      { kind := .record, src := r.src, seq := r.seq, words := r.words (streamPartition d.stream) d.trailer }
    let add := fun x : Siding => { x with prodq := x.prodq ++ [item], stream := d.stream }
    let count := fun x : Stream => if r.type = 8 ∨ r.type = 4 then x else { x with count := (x.count + 1) % 2 ^ 32 }
    exec (.mydRecordDeliver .ok) s = .next { s with
      myd := { inq := q, streams := s.myd.streams.modify d.stream count },
      sdg := { s.sdg with desc := s.sdg.desc.modify k add } }) ∧
  (∀ (s : State) (r : Rec) (q : List Rec) (d : Dest) (e : Ecc), s.myd.inq = r :: q → d ∈ r.dests →
    destReady s d = false → exec (.mydRecordDeliver e) s = .next s)

/-- The streams of a fault record (R122): the Root stream, and the stream of the tenant that it names. An uncorrectable
Ledger word names the owner of the counter's context, a context overrun the owners of both contexts, and a siding cause
the owner of the siding; a context or siding that Root owns names no tenant. -/
def Sys2Proof.Claims.FaultRecordStreams : Prop :=
  (∀ (s : State) (r : Rec) (c n e cls slot : Nat), c < 32 → n < 64 → e < 512 → cls < 4 → slot < 32 →
    r.type = 8 → r.injected = false → r.specific = causeBits cls 4 2 ((e / 2 + n) % 64) slot false →
    r.body = [BitVec.ofNat 64 (counterIndex c n e)] →
    baseStreams s r = if s.ctxOwner c < 16 then [16, s.ctxOwner c] else [16]) ∧
  (∀ (s : State) (r : Rec) (a b n cls slot : Nat), a < 32 → b < 32 → n < 64 → cls < 4 → slot < 32 →
    r.type = 8 → r.injected = false → r.specific = causeBits cls 1 4 n slot false →
    r.body = [BitVec.ofNat 64 (a * 2 ^ 8 + b)] → s.ctxOwner a < 16 → s.ctxOwner b < 16 →
    baseStreams s r = if s.ctxOwner a = s.ctxOwner b then [16, s.ctxOwner a] else [16, s.ctxOwner a, s.ctxOwner b]) ∧
  (∀ (s : State) (r : Rec) (sid cause cls slot : Nat), sid < 256 → 1 ≤ cause → cause ≤ 3 → cls < 4 → slot < 32 →
    r.type = 8 → r.injected = false → r.specific = causeBits cls 6 cause sid slot false →
    baseStreams s r = if (s.siding sid).owner < 16 then [16, (s.siding sid).owner] else [16])

/-- A payload open for 100 µs is closed into one payload item of its session's siding (R340). -/
def Sys2Proof.Claims.PayloadCloses : Prop :=
  ∀ (s : State) (i : Nat) (p : Payload), s.core = true →
    (s.myd.streams.getD i Stream.reset).payload = some p → p.openAt + 100000 ≤ s.ttb.time →
    (s.session (sessionOf i)).isOpen = true → (s.siding (s.session (sessionOf i)).siding).state = 1 →
    let item : ProdItem :=
      { kind := .payload, src := i, seq := p.count,
        words := payloadWords (s.session (sessionOf i)) i p.firstTs p.bytes }
    let add := fun x : Siding => { x with prodq := x.prodq ++ [item] }
    let shut := fun x : Stream => { x with payload := none }
    exec (.payloadClose i) s = .next { s with
      myd := { s.myd with streams := s.myd.streams.modify i shut },
      sdg := { s.sdg with desc := s.sdg.desc.modify (s.session (sessionOf i)).siding add } }

/-! ## Counters -/

/-- Every index below 2^20 names one counter by context, station and event, and each counter has a bank and word of its
own; the two counters of a pair lie in one bank in adjacent words (R125, R126). -/
def Obligations.CounterPlacement : Prop :=
  (∀ i < 1048576, counterIndex (ixCtx i) (ixStn i) (ixEv i) = i) ∧
  (∀ c < 32, ∀ n < 64, ∀ e < 512, ixCtx (counterIndex c n e) = c ∧ ixStn (counterIndex c n e) = n ∧
    ixEv (counterIndex c n e) = e ∧ counterIndex c n e < 1048576) ∧
  (∀ i < 1048576, ∀ j < 1048576, ixBank i = ixBank j → ixWord i = ixWord j → i = j) ∧
  (∀ i < 1048576, ixBank i < 64 ∧ ixWord i < 16384) ∧
  (∀ i < 1048576, i % 2 = 0 → ixBank (i + 1) = ixBank i ∧ ixWord (i + 1) = ixWord i + 1)

/-- A delta that no sweep concerns (R131, R134, R135): its counter takes the sum, with overflow set by a carry out of 48
bits and the owner bits of the context in force, and no other counter changes. -/
def Sys2Proof.Claims.DeltaCounted : Prop :=
  ∀ (s : State) (n : Nat) (d : Delta) (r : List Delta), s.core = true → n < 64 → n < s.ldg.inq.length →
    s.ldg.inq.getD n [] = d :: r → d.mark = false → d.lost = false → s.ldg.sweep = none →
    d.ctx < 32 → d.ev < 512 → canonical LWord.zero s.ldg.words = true →
    chainedIn s.ldg.eff.chain (counterIndex d.ctx n d.ev) = false →
    Answers (.ledgerDeltaApply n ⟨.ok, .ok⟩) s fun t =>
      lword t (counterIndex d.ctx n d.ev) =
        { lword s (counterIndex d.ctx n d.ev) with
          count := (lword s (counterIndex d.ctx n d.ev)).count + BitVec.ofNat 48 d.count,
          ovf := (lword s (counterIndex d.ctx n d.ev)).ovf ||
            decide (2 ^ 48 ≤ (lword s (counterIndex d.ctx n d.ev)).count.toNat + d.count),
          owner := if s.ctxOwner d.ctx < 16 then BitVec.ofNat 4 (s.ctxOwner d.ctx) else 15 } ∧
      (∀ j, j ≠ counterIndex d.ctx n d.ev → lword t j = lword s j) ∧
      t.ldg.inq = s.ldg.inq.modify n (fun q => q.drop 1) ∧ t.sbx = s.sbx ∧ t.mtr = s.mtr

/-- A chained pair counts in 96 bits (R134, R135): a delta of the even event adds to the pair as one number, carry and
all, and a delta of the odd event is discarded. -/
def Sys2Proof.Claims.ChainedPairCounts : Prop :=
  (∀ (s : State) (n e : Nat) (d : Delta) (r : List Delta), s.core = true → n < 64 → n < s.ldg.inq.length →
    s.ldg.inq.getD n [] = d :: r → d.mark = false → d.lost = false → s.ldg.sweep = none → d.ctx < 32 →
    d.ev = 2 * e → e < 256 → d.count < 2 ^ 16 → canonical LWord.zero s.ldg.words = true →
    chainedIn s.ldg.eff.chain (counterIndex d.ctx n d.ev) = true →
    let i := counterIndex d.ctx n d.ev
    let value := fun u : State => (lword u i).count.toNat + 2 ^ 48 * (lword u (i + 1)).count.toNat
    Answers (.ledgerDeltaApply n ⟨.ok, .ok⟩) s fun t =>
      value t = (value s + d.count) % 2 ^ 96 ∧ (lword t i).ovf = (lword s i).ovf ∧
      (∀ j, j ≠ i → j ≠ i + 1 → lword t j = lword s j)) ∧
  (∀ (s : State) (n : Nat) (d : Delta) (r : List Delta), s.core = true → n < 64 → n < s.ldg.inq.length →
    s.ldg.inq.getD n [] = d :: r → d.mark = false → d.lost = false → s.ldg.sweep = none → d.ctx < 32 → d.ev < 512 →
    d.ev % 2 = 1 → chainedIn s.ldg.eff.chain (counterIndex d.ctx n d.ev) = true →
    Answers (.ledgerDeltaApply n ⟨.ok, .ok⟩) s fun t => t.ldg.words = s.ldg.words)

/-- A delta that came marked count-lost sets the mark of its counter and leaves the count (R133); a delta of the old
epoch that finds its word swept is added, marks its counter and raises the late-delta fault (R138). -/
def Sys2Proof.Claims.LostAndLateDeltas : Prop :=
  (∀ (s : State) (n : Nat) (d : Delta) (r : List Delta), s.core = true → n < 64 → n < s.ldg.inq.length →
    s.ldg.inq.getD n [] = d :: r → d.mark = false → d.lost = true → s.ldg.sweep = none → d.ctx < 32 → d.ev < 512 →
    canonical LWord.zero s.ldg.words = true →
    Answers (.ledgerDeltaApply n ⟨.ok, .ok⟩) s fun t =>
      lword t (counterIndex d.ctx n d.ev) = { lword s (counterIndex d.ctx n d.ev) with lost := true } ∧
      (∀ j, j ≠ counterIndex d.ctx n d.ev → lword t j = lword s j)) ∧
  (∀ (s : State) (n : Nat) (d : Delta) (r : List Delta) (w : Sweep), s.core = true → n < 64 → n < s.ldg.inq.length →
    s.ldg.inq.getD n [] = d :: r → d.mark = false → d.lost = false → s.ldg.sweep = some w →
    d.ctx < 32 → d.ev < 512 → canonical LWord.zero s.ldg.words = true → oldLabel w d.epoch = true →
    isSwept w (counterIndex d.ctx n d.ev) = true → chainedIn w.oldChain (counterIndex d.ctx n d.ev) = false →
    Answers (.ledgerDeltaApply n ⟨.ok, .ok⟩) s fun t =>
      (lword t (counterIndex d.ctx n d.ev)).lost = true ∧
      (lword t (counterIndex d.ctx n d.ev)).count =
        (lword s (counterIndex d.ctx n d.ev)).count + BitVec.ofNat 48 d.count ∧
      (∀ j, j ≠ counterIndex d.ctx n d.ev → lword t j = lword s j) ∧
      t.ldg.lateDelta = min 255 (s.ldg.lateDelta + 1) ∧ t.sbx.inbox.length = s.sbx.inbox.length + 1)

/-- The patrol (R130): a good word is left alone, a corrected one is counted and raises the C fault of its bank, and an
uncorrectable one is rewritten with count 0 and count_lost 1, its overflow and the other words as they were. -/
def Sys2Proof.Claims.Patrol : Prop :=
  (∀ (s : State) (i : Nat), i < 1048576 → exec (.ledgerPatrol i .ok) s = .next s) ∧
  (∀ (s : State) (i : Nat), s.core = true → i < 1048576 →
    exec (.ledgerPatrol i .corrected) s = .next { s with
      ldg := { s.ldg with eccCorr := min (2 ^ 32 - 1) (s.ldg.eccCorr + 1) },
      sbx := { s.sbx with inbox := s.sbx.inbox ++ [received s (occ 4 1 (ixBank i) (ixWord i))] } }) ∧
  (∀ (s : State) (i : Nat), s.core = true → i < 1048576 → chainedIn s.ldg.eff.chain i = false →
    canonical LWord.zero s.ldg.words = true →
    Answers (.ledgerPatrol i .uncorrectable) s fun t =>
      lword t i = { lword s i with count := 0, lost := true } ∧ (∀ j, j ≠ i → lword t j = lword s j) ∧
      t.ldg.eccUncorr = min 65535 (s.ldg.eccUncorr + 1) ∧
      t.sbx.inbox = s.sbx.inbox ++ [received s (occ 4 2 (ixBank i) i)])

/-- The sweep (R137): the traverse starts once every station's mark is in, and at T + 16 µs at the latest; it visits the
words in ascending order, and a word that it finds unswept receives the changes of T. -/
def Sys2Proof.Claims.SweepTraverse : Prop :=
  (∀ (s : State) (w : Sweep), s.core = true → s.ldg.sweep = some w → w.started = false →
    marksIn s s.ldg.marks = true ∨ w.t + 16000 ≤ s.ttb.time →
    exec .sweepTraverseStart s = .next { s with ldg := { s.ldg with sweep := some { w with started := true } } }) ∧
  (∀ (s : State) (w : Sweep), s.core = true → s.ldg.sweep = some w → w.started = true → w.pos < 1048575 →
    w.taken = [] → s.ldg.snaps = [] → canonical LWord.zero s.ldg.words = true →
    Answers (.sweepWordVisit .ok) s fun t =>
      t.ldg.sweep.map (·.pos) = some (w.pos + 1) ∧
      lword t w.pos = changeAtT w s.ldg.eff.chain w.pos (lword s w.pos) ∧
      (∀ j, j ≠ w.pos → lword t j = lword s j) ∧ t.sbx = s.sbx)

/-- A snapshot that is not complete by T + 1 ms is withdrawn: counted, and its U fault names the slot, the epoch and the
reason (R141). -/
def Sys2Proof.Claims.SnapshotTimeout : Prop :=
  ∀ (s : State) (x : Snap), s.core = true → s.ldg.snaps = [x] → x.done = false → x.withdrawn = false →
    x.slot < 16 → x.t + 1000000 ≤ s.ttb.time →
    Answers (.snapshotTimeout x.slot) s fun t =>
      t.ldg.snaps = [{ x with withdrawn := true }] ∧ t.ldg.withdrawn = min 65535 (s.ldg.withdrawn + 1) ∧
      t.sbx.inbox = s.sbx.inbox ++ [received s (occ 4 4 x.slot (x.epoch * 2 ^ 32 + 2))] ∧
      t.ldg.words = s.ldg.words

/-- Counter reads (R129, R142-R144, Table 07-6): Root, and a tenant in a context that it owns, get the counter under the
owner in force or the pair at one instant; any other read is NOT_PERMITTED. -/
def Sys2Proof.Claims.CounterReads : Prop :=
  (∀ (s : State) (w i : Nat) (pk : List Word), Issues 0x30 w pk s → i = fld (pk.getD 0 0) 0 20 →
    mayRead s w i = true →
    exec (.ldgRead w .ok) s = .next (told w pk 0 i (readFormat (s.ctxOwner (i / 32768 % 32)) (shownWord s i))
      (taken w s))) ∧
  (∀ (s : State) (w i : Nat) (pk : List Word), Issues 0x31 w pk s → i = fld (pk.getD 0 0) 0 20 / 2 * 2 →
    mayRead s w i = true →
    exec (.ldgReadPair w ⟨.ok, .ok⟩) s = .next (told w pk 0 ((shownWord s (i + 1)).count.toNat / 2 ^ 16)
      (pack [(0, 48, (shownWord s i).count.toNat), (48, 16, (shownWord s (i + 1)).count.toNat)]) (taken w s))) ∧
  (∀ (s : State) (w : Nat) (pk : List Word) (e : Ecc), Issues 0x30 w pk s →
    mayRead s w (fld (pk.getD 0 0) 0 20) = false →
    exec (.ldgRead w e) s = .next (told w pk 3 0 0 (taken w s)))

/-- Counter configuration (R134, R143, R146): chaining runs of pairs, a snapshot slot and a clear request enter the pending
generation; a tenant's masks keep only contexts that it owns. -/
def Sys2Proof.Claims.CounterConfiguration : Prop :=
  (∀ (s : State) (pk : List Word) (n k : Nat), Issues 0x32 16 pk s → n = fld (pk.getD 0 0) 16 6 →
    n < s.dsp.enumCount → k = fld (pk.getD 0 0) 8 8 → k < 64 → fld (pk.getD 0 0) 0 8 = 0 →
    exec (.ldgChain 16) s = .next (told 16 pk 0 1 0 (taken 16 { s with dsp := { s.dsp with
      pending := s.dsp.pending ++
        [.ldgChain (4 * n) (BitVec.ofNat 64 (if bit (pk.getD 0 0) 31 then 2 ^ k else 0)) (BitVec.ofNat 64 (2 ^ k))] } }))) ∧
  (∀ (s : State) (w : Nat) (pk : List Word), Issues 0x33 w pk s → w < 16 →
    let m := maskOf ((bitsOf 32 (fld (pk.getD 2 0) 0 32)).filter fun c => s.ctxOwner c == w)
    let a := pack [(7, 41, fld (pk.getD 1 0) 7 41)]
    exec (.ldgSnapcfg w) s = .next (told w pk 0 m a (taken w { s with dsp := { s.dsp with
      pending := s.dsp.pending ++ [.ldgSnap w a (pack [(32, 32, m), (16, 1, fld (pk.getD 0 0) 31 1),
        (8, 8, max 1 (fld (pk.getD 0 0) 8 8))])] } }))) ∧
  (∀ (s : State) (w : Nat) (pk : List Word), Issues 0x34 w pk s → w < 16 →
    let m := maskOf ((bitsOf 32 (fld (pk.getD 0 0) 0 32)).filter fun c => s.ctxOwner c == w)
    exec (.ldgClear w) s = .next (told w pk 0 m 0 (taken w { s with dsp := { s.dsp with
      pending := s.dsp.pending ++ [.ldgClear (BitVec.ofNat 32 m)] } })))

/-- User-page reads (R145, R283): a permitted read returns the counter and a pair read latches the odd word, any other
returns, and latches, bit 63 alone; with auto_inc the index moves on by 1 or 2. -/
def Sys2Proof.Claims.UserReads : Prop :=
  (∀ (s : State) (p i : Nat), s.core = true → i = fld (s.ldg.userSel.getD p 0) 0 20 →
    let sel := s.ldg.userSel.getD p 0
    let data := if userMayRead s p i then readFormat (s.ctxOwner (i / 32768 % 32)) (shownWord s i)
      else 0x8000_0000_0000_0000#64
    let sels := if bit sel 20 then s.ldg.userSel.set p (put sel 0 20 (i + 1)) else s.ldg.userSel
    exec (.ldgUreadData p .ok) s = .next { s with
      pins := { s.pins with regData := data }, ldg := { s.ldg with userSel := sels } }) ∧
  (∀ (s : State) (p i : Nat), s.core = true → i = fld (s.ldg.userSel.getD p 0) 0 20 / 2 * 2 →
    userMayRead s p i = true → bit (s.ldg.userSel.getD p 0) 20 = false →
    let odd := readFormat (s.ctxOwner ((i + 1) / 32768 % 32)) (shownWord s (i + 1))
    exec (.ldgUreadPairLo p ⟨.ok, .ok⟩) s = .next { s with
      pins := { s.pins with regData := readFormat (s.ctxOwner (i / 32768 % 32)) (shownWord s i) },
      ldg := { s.ldg with userHi := s.ldg.userHi.set p odd } }) ∧
  (∀ (s : State) (p i : Nat) (e : PairEcc), s.core = true → i = fld (s.ldg.userSel.getD p 0) 0 20 / 2 * 2 →
    userMayRead s p i = false → bit (s.ldg.userSel.getD p 0) 20 = true →
    let sel := s.ldg.userSel.getD p 0
    exec (.ldgUreadPairLo p e) s = .next { s with
      pins := { s.pins with regData := 0x8000_0000_0000_0000#64 },
      ldg := { s.ldg with
        userHi := s.ldg.userHi.set p 0x8000_0000_0000_0000#64,
        userSel := s.ldg.userSel.set p (put sel 0 20 (fld sel 0 20 + 2)) } })

/-! ## Sealed Meter -/

/-- A delta on its way passes the meter tap first (R319, R324): every tally that maps its counter adds it, up to 2^56 − 1,
no other tally changes, and the delta goes on to the Ledger. -/
def Sys2Proof.Claims.TallyAdds : Prop :=
  ∀ (s : State) (n : Nat) (d : Delta) (r : List Delta), s.core = true → n < s.stn.length → n < s.ldg.inq.length →
    (s.station n).link = d :: r → d.mark = false → d.lost = false → s.ttb.running = true →
    labelBefore d.epoch s.ttb.startEpoch = false → s.mtr.latchDue = none → s.mtr.latchT = 0 →
    s.mtr.tally.length = 256 → d.ctx < 32 → d.ev < 512 →
    Answers (.tallyDeltaAdd n .ok) s fun t =>
      (t.station n).link = r ∧ t.ldg.inq = s.ldg.inq.modify n (fun q => q ++ [d]) ∧
      ∀ i < 256, t.mtr.tally.getD i Tally.reset =
        (let y := s.mtr.tally.getD i Tally.reset
         if mapsTo (s.mtr.map.getD i 0) n d.ctx d.ev then
           { y with count := min (2 ^ 56 - 1) (y.count + d.count),
                    sat := y.sat || decide (2 ^ 56 - 1 ≤ y.count + d.count) }
         else y)

/-- The latch (R326): once every mark is in, and at T + 16 µs at the latest, all tallies as of T are latched with T and the
epoch that it opens; its values stand in evidence once T lies after the sealing. -/
def Sys2Proof.Claims.TallyLatched : Prop :=
  ∀ (s : State) (t0 e : Nat), s.pins.porstN = true → s.mtr.latchDue = some (t0, e) →
    marksIn s s.mtr.marks = true ∨ t0 + 16000 ≤ s.ttb.time →
    exec .tallyLatch s = .next { s with mtr := { s.mtr with
      latched := s.mtr.forming, latchT := t0, latchEp := e, latchDue := none,
      latchedIn := s.mtr.latchedIn ||
        (s.mtr.state == 3 && !(s.mtr.audit.any fun a => a.kind == 3 && decide (t0 ≤ a.time))) } }

/-- The seal (R321, R322): an opening zeroises the signer key, counts, and enters open; a closing freezes the
configuration with its fingerprint and, with a healthy source that holds 48 bytes, generates the signer key and seals;
without one it waits in closing and tells the fault once. -/
def Sys2Proof.Claims.Seal : Prop :=
  (∀ s : State, meterRuns s = true → s.mtr.sealOpen = false →
    Answers .sealOpen s fun t =>
      t.mtr.key = none ∧ t.mtr.state = 1 ∧ t.mtr.seals = min (2 ^ 32 - 1) (s.mtr.seals + 1) ∧
      t.mtr.sealOpen = true ∧ t.mtr.map = s.mtr.map ∧ t.mtr.tally = s.mtr.tally ∧
      (t.mtr.audit.head?.map (·.kind)) = some 2) ∧
  (∀ s : State, meterRuns s = true → s.mtr.sealOpen = true → s.mtr.state = 1 → s.core = true → s.ilk.trng = 1 →
    48 ≤ s.ilk.entropy.length →
    Answers .sealClose s fun t =>
      t.mtr.state = 3 ∧ t.mtr.key = some (signerKey (s.ilk.entropy.take 48)) ∧
      t.mtr.fp = sha256 (wordsBytes s.mtr.map ++ wordBytes s.ttb.cfg ++ runningHash s.mtr) ∧
      t.ilk.entropy = s.ilk.entropy.drop 48 ∧ t.mtr.map = s.mtr.map ∧ (t.mtr.audit.head?.map (·.kind)) = some 3) ∧
  (∀ s : State, meterRuns s = true → s.mtr.sealOpen = true → s.mtr.state = 1 → s.core = true → s.ilk.trng ≠ 1 →
    Answers .sealClose s fun t =>
      t.mtr.state = 2 ∧ t.mtr.key = s.mtr.key ∧ t.mtr.closeTold = true ∧
      t.sbx.inbox = s.sbx.inbox ++ [received s (occ 2 0x14 0 s.mtr.seals)]) ∧
  (∀ s : State, meterRuns s = true → s.mtr.state = 2 → s.mtr.tryAt + 10000000 ≤ s.ttb.time → s.core = true →
    s.ilk.trng = 1 → 48 ≤ s.ilk.entropy.length →
    Answers .meterClosingRetry s fun t =>
      t.mtr.state = 3 ∧ t.mtr.key = some (signerKey (s.ilk.entropy.take 48)))

/-- The meter core (R320, R331-R333): after PORST_N it takes up open or void by the level of the seal, with an audit record;
MTR_RST_N keeps its state, and on release it runs the valid image of its store, else ROM. A core that makes no progress
raises its U fault. -/
def Sys2Proof.Claims.MeterCore : Prop :=
  (∀ s : State, s.pins.porstN = true → s.mtr.ready = false → s.mtr.inReset = false →
    Answers .meterReady s fun t =>
      t.mtr.ready = true ∧ t.mtr.state = (if s.mtr.sealOpen then 1 else 0) ∧
      (t.mtr.audit.head?.map fun a => (a.kind, a.detail)) = some (1, s.mtr.version % 2 ^ 64)) ∧
  (∀ s : State, exec .mtrRstAssert s = .next { s with
    pins := { s.pins with mtrRstN := false }, mtr := { s.mtr with inReset := true } }) ∧
  (∀ s : State, s.pins.porstN = true → s.mtr.inReset = true → s.mtr.ready = true → s.mtr.imgValid = false →
    s.mtr.sealOpen = false → s.mtr.state ≠ 1 →
    Answers .mtrRstRelease s fun t =>
      t.pins.mtrRstN = true ∧ t.mtr.inReset = false ∧ t.mtr.romImage = true ∧ t.mtr.state = s.mtr.state ∧
      t.mtr.key = s.mtr.key ∧ t.mtr.tally = s.mtr.tally ∧ (t.mtr.audit.head?.map (·.kind)) = some 7) ∧
  (∀ s : State, meterRuns s = true → s.core = true →
    exec .meterCoreStall s = .next { s with sbx := { s.sbx with
      inbox := s.sbx.inbox ++ [received s (occ 2 0x15 0 0)] } })

/-- Tally mappings and TTB_CFG change only in open, by command or by a whole-word write of the register port (R78, R323,
R324); a change resets the tally and is audited, and anything else is refused, audited and answered SEALED. -/
def Sys2Proof.Claims.MeterConfiguration : Prop :=
  (∀ (s : State) (pk : List Word) (k : Nat), Issues 0xA2 16 pk s → meterOpen s = true → k = fld (pk.getD 0 0) 0 8 →
    s.mtr.map.length = 256 → s.mtr.tally.length = 256 → clampMap (pk.getD 1 0) ≠ s.mtr.map.getD k 0 →
    Answers (.mtrMap 16) s fun t =>
      t.mtr.map = s.mtr.map.set k (clampMap (pk.getD 1 0)) ∧ t.mtr.tally = s.mtr.tally.set k Tally.reset ∧
      (t.mtr.audit.head?.map (·.kind)) = some 4 ∧
      t.sdg = (told 16 pk 0 k (clampMap (pk.getD 1 0)) s).sdg) ∧
  (∀ (s : State) (pk : List Word), Issues 0xA3 16 pk s → meterOpen s = true → clampTtbCfg (pk.getD 1 0) ≠ s.ttb.cfg →
    Answers (.ttbSet 16) s fun t =>
      t.ttb = { s.ttb with cfg := clampTtbCfg (pk.getD 1 0) } ∧ (t.mtr.audit.head?.map (·.kind)) = some 5 ∧
      t.sdg = (told 16 pk 0 0 (clampTtbCfg (pk.getD 1 0)) s).sdg) ∧
  (∀ (s : State) (k : Nat) (x : BitVec 64), s.core = true → meterOpen s = true → k < 256 →
    clampMap x ≠ s.mtr.map.getD k 0 →
    Answers (.mtrMapWrite k x 0xFF) s fun t =>
      t.mtr.map = s.mtr.map.set k (clampMap x) ∧ t.mtr.tally = s.mtr.tally.set k Tally.reset ∧ t.ttb = s.ttb) ∧
  (∀ (s : State) (x : BitVec 64), s.core = true → meterOpen s = true → clampTtbCfg x ≠ s.ttb.cfg →
    Answers (.ttbCfgWrite x 0xFF) s fun t => t.ttb = { s.ttb with cfg := clampTtbCfg x } ∧ t.mtr.map = s.mtr.map) ∧
  (∀ (s : State) (k : Nat) (x : BitVec 64), s.core = true → meterOpen s = false → k < 256 →
    Answers (.mtrMapWrite k x 0xFF) s fun t =>
      t.mtr.map = s.mtr.map ∧ t.mtr.tally = s.mtr.tally ∧ (t.mtr.audit.head?.map (·.kind)) = some 8) ∧
  (∀ (s : State) (pk : List Word), Issues 0xA2 16 pk s → meterOpen s = false →
    Answers (.mtrMap 16) s fun t => t.mtr.map = s.mtr.map ∧ t.sdg = (told 16 pk 5 0 0 s).sdg)

/-- The program store of the meter (R331): begin empties it, and each write appends its eight bytes, in open only. -/
def Sys2Proof.Claims.MeterImage : Prop :=
  (∀ (s : State) (x : BitVec 64), s.core = true → meterOpen s = true → bit x 0 = true →
    exec (.mtrImgCtlBegin x 0xFF) s = .next { s with mtr := { s.mtr with
      img := [], imgValid := false, imgFail := false } }) ∧
  (∀ (s : State) (x : BitVec 64), s.core = true → meterOpen s = true → s.mtr.img.length + 8 < 128 →
    exec (.mtrImgDataWrite x 0xFF) s = .next { s with mtr := { s.mtr with img := s.mtr.img ++ leBytes 8 x.toNat } })

/-- MTR_READ answers the live tally, whatever the check of its word shows; MTR_EVIDENCE outside sealed, or with the core
in reset, is FAULTED with its reason, and sealed it forms the signed record of its entries and writes it as a long
command (R325, R328, Table 14-8). -/
def Obligations.MeterCommands : Prop :=
  (∀ (s : State) (pk : List Word) (k : Nat), Issues 0xA0 16 pk s → k = fld (pk.getD 0 0) 0 8 →
    exec (.mtrRead ⟨16, .ok⟩) s = .next (told 16 pk 0 k
      (tallyWord (s.mtr.tally.getD k Tally.reset) (s.mtr.map.getD k 0)) (taken 16 s))) ∧
  (∀ (s : State) (pk : List Word) (k : Nat) (e : Ecc), Issues 0xA0 16 pk s → k = fld (pk.getD 0 0) 0 8 →
    Answers (.mtrRead ⟨16, e⟩) s fun t =>
      t.sdg = (told 16 pk 0 k (tallyWord (t.mtr.tally.getD k Tally.reset) (s.mtr.map.getD k 0)) s).sdg ∧
      (e ≠ .uncorrectable → t.mtr = s.mtr) ∧ t.ldg = s.ldg ∧ t.stn = s.stn) ∧
  (∀ (s : State) (pk : List Word) (d x y : Nat) (e : Ecc), Issues 0xA1 16 pk s → s.mtr.inReset = false →
    s.mtr.key = some (d, x, y) → s.mtr.state = 3 →
    Answers (.mtrEvidence ⟨16, e⟩) s fun t =>
      t.mtr.evSeq = (s.mtr.evSeq + 1) % 2 ^ 64 ∧ t.sdg = s.sdg ∧
      ∃ j, t.mem.jobs = s.mem.jobs ++ [j] ∧ j.write = true ∧ j.owner = 16 ∧ j.addr = fld (pk.getD 1 0) 0 48 ∧
        j.len = j.bytes.length) ∧
  (∀ (s : State) (pk : List Word) (e : Ecc), Issues 0xA1 16 pk s → s.mtr.inReset = true →
    exec (.mtrEvidence ⟨16, e⟩) s = .next (told 16 pk 7 (6 * 2 ^ 24) 0 (taken 16 s))) ∧
  (∀ (s : State) (pk : List Word) (e : Ecc), Issues 0xA1 16 pk s → s.mtr.inReset = false → s.mtr.state ≠ 3 →
    exec (.mtrEvidence ⟨16, e⟩) s = .next (told 16 pk 7 (7 * 2 ^ 24) 0 (taken 16 s)))


/-! ## Sidings -/

/-- The sender of window `w` may name siding `sid`: Root any live one, a tenant only its own, and none of a partition
in detach (R166, R296). -/
abbrev Sys2Proof.Claims.mayName (w sid : Nat) (s : State) : Prop :=
  ((s.siding sid).state = 1 ∨ (s.siding sid).state = 2) ∧ (w = 16 ∨ (s.siding sid).owner = w) ∧
  barredPart s (s.siding sid).owner = false

/-- The length word of an item as the consumer reads it (Table 08-2). -/
def Sys2Proof.Claims.lengthOf (kind src seq words : Nat) : Word :=
  pack [(60, 2, kind), (53, 7, src), (16, 32, seq), (0, 16, words)]

/-- A producer's item enters the siding word by word (R149, R151): its length word is reserved first, each content word
is stored at wr_ptr and advances it, the length word is written when the item closes, and at free = 0 the producer is
held. -/
def Obligations.SidingProducer : Prop :=
  (∀ (s : State) (sid : Nat) (it : ProdItem) (r : List ProdItem), s.core = true → (s.siding sid).prodq = it :: r →
    (s.siding sid).state = 1 → (s.siding sid).abandoned = false → (s.siding sid).itemOpen = false →
    1 ≤ (s.siding sid).free →
    exec (.sidingWordWrite sid) s = .next (s.modSdg sid fun d =>
      { d with itemOpen := true, itemStart := d.wr, wr := d.add d.wr 1, stored := 0 })) ∧
  (∀ (s : State) (sid : Nat) (it : ProdItem) (r : List ProdItem), s.core = true → (s.siding sid).prodq = it :: r →
    (s.siding sid).state = 1 → (s.siding sid).abandoned = false → (s.siding sid).itemOpen = true →
    (s.siding sid).stored < it.words.length → 1 ≤ (s.siding sid).free →
    exec (.sidingWordWrite sid) s = .next ((s.putPool ((s.siding sid).index (s.siding sid).wr)
      (it.words.getD (s.siding sid).stored 0)).modSdg sid fun d =>
        { d with wr := d.add d.wr 1, stored := d.stored + 1 })) ∧
  (∀ (s : State) (sid : Nat), (s.siding sid).abandoned = false → (s.siding sid).free = 0 →
    exec (.sidingWordWrite sid) s = .next s) ∧
  (∀ (s : State) (sid : Nat) (it : ProdItem) (r : List ProdItem), s.core = true → (s.siding sid).prodq = it :: r →
    (s.siding sid).state = 1 → (s.siding sid).abandoned = false → (s.siding sid).itemOpen = true →
    (s.siding sid).stored = it.words.length →
    exec (.sidingItemClose sid) s = .next ((s.putPool ((s.siding sid).index (s.siding sid).itemStart)
      (lengthOf (kindCode it.kind) it.src it.seq it.words.length)).modSdg sid fun d =>
        { d with prodq := r, stored := 0, itemOpen := false })) ∧
  (∀ (s : State) (sid : Nat) (it : ProdItem) (r : List ProdItem), s.core = true → (s.siding sid).prodq = it :: r →
    (s.siding sid).state = 1 → (s.siding sid).abandoned = true → (s.siding sid).stored = it.words.length →
    exec (.sidingItemClose sid) s = .next (s.modSiding sid fun d =>
      { d with prodq := r, stored := 0, abandoned := false }))

/-- The item that stands at rd_ptr: its length word and its content. -/
def Sys2Proof.Claims.itemAt (s : State) (d : Siding) : List Word :=
  let word := fun k => look 0 (d.index (d.add d.rd k)) s.sdg.pool
  (List.range (1 + fld (word 0) 0 16)).map word

/-- One read of SDG_POP on a port siding (R153): with avail = 0 it reads 0, leaves rd_ptr and counts in underrun_count; a
content word and a good length word are read at rd_ptr, which advances by one. With auto_rel at 0 nothing else of the
pointers moves. A slot without a live siding and one whose engine owns the pointers reads 0 (R156, R168). A word that
the check corrects is counted and raises its C fault (R159); an item with an uncorrectable content word is withdrawn and
a replacement stands in its place, its words read before rd_ptr's next item (R160). -/
def Obligations.SidingPop : Prop :=
  (∀ (s : State) (page slot i : Nat) (c l : List Nat), s.core = true → slotSiding s page slot = some i →
    (s.siding i).consumer = 0 → (s.siding i).replay = [] → (s.siding i).avail = 0 →
    exec (.sdgPop page slot c l) s = .next { s with
      sdg := { s.sdg with desc := s.sdg.desc.modify i fun d => { d with underrun := min 255 (d.underrun + 1) } },
      pins := { s.pins with regData := 0 } }) ∧
  (∀ (s : State) (page slot i : Nat), s.core = true → slotSiding s page slot = some i →
    (s.siding i).consumer = 0 → (s.siding i).replay = [] → (s.siding i).avail ≠ 0 → rdLeft s (s.siding i) ≠ 0 →
    (s.siding i).autoRel = false →
    exec (.sdgPop page slot [] []) s = .next { s.modSdg i (fun d => { d with rd := d.add d.rd 1 }) with
      pins := { s.pins with regData := look 0 ((s.siding i).index (s.siding i).rd) s.sdg.pool } }) ∧
  (∀ (s : State) (page slot i : Nat), s.core = true → slotSiding s page slot = some i →
    (s.siding i).consumer = 0 → (s.siding i).replay = [] → (s.siding i).avail ≠ 0 → rdLeft s (s.siding i) = 0 →
    (s.siding i).autoRel = false →
    ∃ ts, exec (.sdgPop page slot [] []) s = .next {
      s.modSdg i (fun d => { d with rd := d.add d.rd 1, lastRecTs := ts }) with
      pins := { s.pins with regData := look 0 ((s.siding i).index (s.siding i).rd) s.sdg.pool } }) ∧
  (∀ (s : State) (page slot : Nat) (c l : List Nat),
    (∀ i, slotSiding s page slot = some i → (s.siding i).consumer ≠ 0) →
    exec (.sdgPop page slot c l) s = .next { s with pins := { s.pins with regData := 0 } }) ∧
  (∀ (s : State) (page slot i : Nat), s.core = true → slotSiding s page slot = some i → i < s.sdg.desc.length →
    (s.siding i).consumer = 0 → (s.siding i).replay = [] → (s.siding i).avail ≠ 0 → rdLeft s (s.siding i) ≠ 0 →
    (s.siding i).autoRel = false →
    Answers (.sdgPop page slot [0] []) s fun t =>
      t.pins.regData = look 0 ((s.siding i).index (s.siding i).rd) s.sdg.pool ∧
      (t.siding i).eccCorr = min 65535 ((s.siding i).eccCorr + 1) ∧
      t.sbx.inbox = s.sbx.inbox ++ [received s (occ 6 1 i)] ∧ t.sdg.pool = s.sdg.pool) ∧
  (∀ (s : State) (page slot i k : Nat), s.core = true → slotSiding s page slot = some i → i < s.sdg.desc.length →
    (s.siding i).consumer = 0 → (s.siding i).replay = [] → (s.siding i).avail ≠ 0 → rdLeft s (s.siding i) = 0 →
    (s.siding i).autoRel = false → 1 ≤ k → k < (itemAt s (s.siding i)).length →
    let lw := look 0 ((s.siding i).index (s.siding i).rd) s.sdg.pool
    Answers (.sdgPop page slot [] [k]) s fun t =>
      bit t.pins.regData 62 = true ∧ fld t.pins.regData 60 2 = fld lw 60 2 ∧
      (t.siding i).rd = (s.siding i).add (s.siding i).rd (itemAt s (s.siding i)).length ∧
      (t.siding i).replay.length = fld t.pins.regData 0 16 ∧
      (t.siding i).withdrawn = min 65535 ((s.siding i).withdrawn + 1) ∧
      (t.siding i).eccUncorr = min 65535 ((s.siding i).eccUncorr + 1) ∧
      t.sbx.inbox = s.sbx.inbox ++ [received s (occ 6 2 i (fld lw 16 32 * 2 ^ 16))])

/-- SDG_MARK (R154): mark_ptr takes rd_ptr, mark_valid is 1, an earlier mark is replaced, and mark_lost is cleared. -/
def Obligations.SidingMark : Prop :=
  ∀ (s : State) (w sid : Nat) (pk : List Word), Issues 0x41 w pk s → fld (pk.getD 0 0) 0 8 = sid → mayName w sid s →
    (s.siding sid).consumer = 0 →
    exec (.sdgMark w) s = .next (told w pk 0 (s.siding sid).rd 0 { taken w s with sdg := { s.sdg with
      desc := s.sdg.desc.modify sid fun d => { d with mark := d.rd, markValid := true, markLost := false } } })

/-- SDG_REWIND (R156): rd_ptr goes back to a valid mark; without one it goes back to rel_ptr, and a lost mark is told as
MARK_LOST, once. -/
def Sys2Proof.Claims.SidingRewind : Prop :=
  (∀ (s : State) (w sid : Nat) (pk : List Word), Issues 0x42 w pk s → fld (pk.getD 0 0) 0 8 = sid → mayName w sid s →
    (s.siding sid).consumer = 0 → (s.siding sid).markValid = true →
    exec (.sdgRewind w) s = .next (told w pk 0 (s.siding sid).mark 0
      ((taken w s).modSdg sid fun d => { d with rd := d.mark, replay := [] }))) ∧
  (∀ (s : State) (w sid : Nat) (pk : List Word), Issues 0x42 w pk s → fld (pk.getD 0 0) 0 8 = sid → mayName w sid s →
    (s.siding sid).consumer = 0 → (s.siding sid).markValid = false →
    exec (.sdgRewind w) s = .next (told w pk (if (s.siding sid).markLost then 8 else 0) (s.siding sid).rel 0
      ((taken w s).modSdg sid fun d => { d with rd := d.rel, replay := [], markLost := false })))

/-- SDG_RELEASE (R155, R162): on a port siding rel_ptr goes to rd_ptr, or to the target where that lies between rel_ptr
and rd_ptr; a mark that the release passes is lost, and no other pointer moves. On a memory siding mem_rd goes to the
value given where that lies between mem_rd and mem_wr. -/
def Sys2Proof.Claims.SidingRelease : Prop :=
  (∀ (s : State) (w sid target : Nat) (pk : List Word), Issues 0x43 w pk s → fld (pk.getD 0 0) 0 8 = sid →
    mayName w sid s → (s.siding sid).consumer = 0 →
    target = (if bit (pk.getD 0 0) 31 then (s.siding sid).rd else fld (pk.getD 0 0) 8 20) →
    target < (s.siding sid).ptrMod →
    (s.siding sid).dist (s.siding sid).rel target ≤ (s.siding sid).dist (s.siding sid).rel (s.siding sid).rd →
    Answers (.sdgRelease w) s fun t =>
      (t.siding sid).rel = target ∧ (t.siding sid).rd = (s.siding sid).rd ∧ (t.siding sid).wr = (s.siding sid).wr ∧
      (t.siding sid).mark = (s.siding sid).mark ∧ t.sdg.pool = s.sdg.pool ∧
      (let passed := (s.siding sid).markValid && decide ((s.siding sid).dist (s.siding sid).rel (s.siding sid).mark
          < (s.siding sid).dist (s.siding sid).rel target)
       (t.siding sid).markValid = ((s.siding sid).markValid && !passed) ∧
       (t.siding sid).markLost = ((s.siding sid).markLost || passed)) ∧
      (∀ i, i ≠ sid → i ≠ (s.win w).compl → t.siding i = s.siding i)) ∧
  (∀ (s : State) (w sid target : Nat) (pk : List Word), Issues 0x43 w pk s → fld (pk.getD 0 0) 0 8 = sid →
    mayName w sid s → (s.siding sid).consumer = 1 → bit (pk.getD 0 0) 31 = false → fld (pk.getD 0 0) 8 20 = 0 →
    target = fld (pk.getD 1 0) 0 32 →
    (target + 2 ^ 32 - (s.siding sid).memRd % 2 ^ 32) % 2 ^ 32
      ≤ ((s.siding sid).memWr + 2 ^ 32 - (s.siding sid).memRd % 2 ^ 32) % 2 ^ 32 →
    exec (.sdgRelease w) s = .next (told w pk 0 (s.siding sid).rel (BitVec.ofNat 64 target)
      ((taken w s).modSiding sid fun d => { d with memRd := target })))

/-- SDG_FLUSH (R157) on a siding without an open item and without an earlier flush: with discard the readers and the
release pointer stand at the visible end, the mark is gone, and the words between are told in result2; without discard
the flush waits for rel_ptr, and it is told once rel_ptr has arrived. -/
def Sys2Proof.Claims.SidingFlush : Prop :=
  (∀ (s : State) (w sid : Nat) (pk : List Word), Issues 0x44 w pk s → fld (pk.getD 0 0) 0 8 = sid → mayName w sid s →
    (s.siding sid).flushes = [] → (s.siding sid).itemOpen = false → bit (pk.getD 0 0) 8 = true →
    Answers (.sdgFlush w) s fun t =>
      (t.siding sid).rd = (s.siding sid).wr ∧ (t.siding sid).rel = (s.siding sid).wr ∧
      (t.siding sid).wr = (s.siding sid).wr ∧ (t.siding sid).markValid = false ∧ (t.siding sid).markLost = false ∧
      (t.siding sid).flushes = [] ∧ t.sdg.pool = s.sdg.pool ∧
      (bit (pk.getD 0 0) 32 = true → (t.siding (s.win w).compl).prodq = (s.siding (s.win w).compl).prodq ++ [
        { kind := .completion, src := 0x7F, seq := fld (pk.getD 0 0) 40 12,
          words := [pack [(40, 12, fld (pk.getD 0 0) 40 12), (32, 8, 0x44), (0, 32, (s.siding sid).wr)],
            BitVec.ofNat 64 (s.siding sid).level] }])) ∧
  (∀ (s : State) (w sid : Nat) (pk : List Word), Issues 0x44 w pk s → fld (pk.getD 0 0) 0 8 = sid → mayName w sid s →
    (s.siding sid).flushes = [] → (s.siding sid).itemOpen = false → bit (pk.getD 0 0) 8 = false →
    Answers (.sdgFlush w) s fun t =>
      (t.siding sid).rd = (s.siding sid).rd ∧ (t.siding sid).rel = (s.siding sid).rel ∧ t.sdg.pool = s.sdg.pool ∧
      (t.siding sid).flushes = [{
        ticket := ticketOf w pk, discard := false, point := (s.siding sid).wr,
        left := (s.siding sid).level, moved := 0, applied := true }] ∧
      (t.win w).longs = (s.win w).longs + 1 ∧ (t.siding (s.win w).compl).prodq = (s.siding (s.win w).compl).prodq) ∧
  (∀ (s : State) (sid : Nat) (f : Flush) (r : List Flush), s.core = true → (s.siding sid).flushes = f :: r →
    f.applied = true → f.left ≠ 0 → exec (.sdgFlushComplete sid) s = .next s) ∧
  (∀ (s : State) (sid : Nat) (f : Flush), s.core = true → (s.siding sid).flushes = [f] →
    f.applied = true → f.left = 0 → (s.siding sid).abandoned = false →
    exec (.sdgFlushComplete sid) s = .next ((s.modSiding sid fun d => { d with flushes := [] }).finish f.ticket 0 f.point
      (BitVec.ofNat 64 f.moved)))

/-- SDG_LEVEL sets the interrupt condition and answers avail and level (R163); SDG_WATERMARK sets the watermarks of a
privileged siding, with hi within 32 to 248 and lo at most hi − 16, and is answered NOT_PERMITTED on any other
(R164, R166). -/
def Sys2Proof.Claims.SidingLevels : Prop :=
  (∀ (s : State) (w sid : Nat) (pk : List Word), Issues 0x45 w pk s → fld (pk.getD 0 0) 0 8 = sid → mayName w sid s →
    exec (.sdgLevel w) s = .next (told w pk 0 (s.siding sid).avail (BitVec.ofNat 64 (s.siding sid).level)
      ((taken w s).modSiding sid fun d => { d with
        intEn := bit (pk.getD 0 0) 31, intLevel := min (2 ^ (9 + d.sizeCode)) (max 1 (fld (pk.getD 0 0) 8 20)) }))) ∧
  (∀ (s : State) (w sid : Nat) (pk : List Word), Issues 0x46 w pk s → fld (pk.getD 0 0) 0 8 = sid → mayName w sid s →
    sid < 4 →
    let hi := min 248 (max 32 (fld (pk.getD 0 0) 16 8))
    let lo := min (hi - 16) (fld (pk.getD 0 0) 8 8)
    exec (.sdgWatermark w) s = .next (told w pk 0 (hi * 256 + lo) 0
      ((taken w s).modSdg sid fun d => { d with wmEn := bit (pk.getD 0 0) 24, hi := hi, lo := lo }))) ∧
  (∀ (s : State) (w : Nat) (pk : List Word), Issues 0x46 w pk s → 4 ≤ fld (pk.getD 0 0) 0 8 →
    exec (.sdgWatermark w) s = .next (told w pk 3 0 0 (taken w s)))

/-- SDG_CREATE (R147, R166): a tenant's new siding is live, empty, at an aligned place of the pool that no other siding
meets, and it is answered with its number and place; an idle siding is freed by its owner and takes its reset values; a
siding that is not idle defers the write (R267). A tenant may not take a privileged siding or one of another owner. -/
def Sys2Proof.Claims.SidingCreate : Prop :=
  (∀ (s : State) (w sid base : Nat) (pk : List Word), Issues 0x40 w pk s → w < 16 → barredPart s w = false →
    fld (pk.getD 0 0) 24 8 = sid → sid ≠ 255 → sid < s.sdg.desc.length → 4 ≤ sid → (s.siding sid).state = 0 → bit (pk.getD 0 0) 4 = false →
    bit (pk.getD 0 0) 16 = false → ownedSidings s w < 16 → placeSiding s sid (createSize pk) = some base →
    Answers (.sdgCreate w) s fun t =>
      (t.siding sid).state = 1 ∧ (t.siding sid).owner = w ∧ (t.siding sid).base = base ∧
      (t.siding sid).sizeCode = createSize pk ∧ (t.siding sid).autoRel = bit (pk.getD 0 0) 17 ∧
      (t.siding sid).level = 0 ∧ (t.siding sid).avail = 0 ∧ (t.siding sid).prodq = [] ∧
      base % (4096 * 2 ^ createSize pk) = 0 ∧ base + 4096 * 2 ^ createSize pk ≤ 8388608 ∧
      (∀ i < 256, i ≠ sid → (s.siding i).state ≠ 0 →
        (s.siding i).base + 8 * (s.siding i).size ≤ base ∨ base + 4096 * 2 ^ createSize pk ≤ (s.siding i).base) ∧
      (∀ i, i ≠ sid → i ≠ (s.win w).compl → t.siding i = s.siding i)) ∧
  (∀ (s : State) (w sid : Nat) (pk : List Word), Issues 0x40 w pk s → w ≤ 16 → fld (pk.getD 0 0) 24 8 = sid → sid ≠ 255 →
    sid ≠ (s.win w).compl → (s.siding sid).state = 1 → (s.siding sid).owner = w → barredPart s w = false → (s.siding sid).producer ≠ 2 →
    sidingIdle (s.siding sid) = true → bit (pk.getD 0 0) 4 = true →
    Answers (.sdgCreate w) s fun t => t.siding sid = Siding.reset) ∧
  (∀ (s : State) (w sid : Nat) (pk : List Word), Issues 0x40 w pk s → fld (pk.getD 0 0) 24 8 = sid → sid ≠ 255 →
    mayName w sid s → (s.siding sid).state = 1 → sidingIdle (s.siding sid) = false →
    exec (.sdgCreate w) s = .next (defer sid pk (ticketOf w pk) (taken w s))) ∧
  (∀ (s : State) (w sid : Nat) (pk : List Word), Issues 0x40 w pk s → w < 16 → fld (pk.getD 0 0) 24 8 = sid → sid ≠ 255 →
    (sid < 4 ∧ (s.siding sid).state = 0) ∨ ((s.siding sid).state ≠ 0 ∧ (s.siding sid).owner ≠ w) →
    exec (.sdgCreate w) s = .next (told w pk 3 0 0 (taken w s)))

/-- The pointers of a siding stand in the order that R150 gives them: rel_ptr, the mark, rd_ptr, the visible end,
wr_ptr, and no more words lie between rel_ptr and wr_ptr than the siding has. -/
abbrev Sys2Proof.Claims.inOrder (d : Siding) : Prop :=
  d.rel < d.ptrMod ∧ d.rd < d.ptrMod ∧ d.wr < d.ptrMod ∧ d.level ≤ d.size ∧
  d.dist d.rel d.rd ≤ d.dist d.rel d.visible ∧ d.dist d.rel d.visible ≤ d.level ∧
  (d.markValid = true → d.mark < d.ptrMod ∧ d.dist d.rel d.mark ≤ d.dist d.rel d.rd)

/-- No pointer passes another (R151): writes, closes, reads, marks, rewinds, releases and flushes of any siding leave
every siding's pointers in order. -/
def Obligations.NoPointerPasses : Prop :=
  ∀ (s t : State) (c : Instr) (sid w page slot : Nat),
    c ∈ [.sidingWordWrite sid, .sidingItemClose sid, .sdgPop page slot [] [], .sdgMark w, .sdgRewind w, .sdgRelease w,
      .sdgFlush w, .sdgFlushComplete sid, .sdgLevel w, .sdgWatermark w] →
    (∀ i, inOrder (s.siding i)) → exec c s = .next t → ∀ i, inOrder (t.siding i)

/-- The drain of a memory siding (R162): the next whole item, with its length word, goes to the ring at mem_wr if the ring
has room and its end is not met; mem_wr waits for the end of the writes. -/
def Sys2Proof.Claims.MemoryDrain : Prop :=
  (∀ (s : State) (sid : Nat), s.core = true → (s.siding sid).state = 1 → barredPart s (s.siding sid).owner = false → (s.siding sid).consumer = 1 →
    (s.siding sid).inFlight = false → (s.siding sid).avail ≠ 0 →
    let d := s.siding sid
    let words := itemAt s d
    let n := words.length
    n ≤ ringWords d - d.memWr % ringWords d → n ≤ ringFree d →
    Answers (.drainItemWrite sid [] []) s fun t =>
      (t.siding sid).rd = d.add d.rd n ∧ (t.siding sid).inFlight = true ∧ (t.siding sid).memWr = d.memWr ∧
      (t.siding sid).rel = d.rel ∧
      t.mem.jobs = s.mem.jobs ++ [{
        id := s.mem.nextJob, cls := 2, owner := d.owner, write := true,
        addr := (d.memBase + 8 * (d.memWr % ringWords d)) % 2 ^ 48, len := 8 * n, bytes := wordsBytes words,
        purpose := .drain sid, issued := 0, open_ := 0, got := [], err := 0, bad := 0 }] ∧
      (∀ i, i ≠ sid → t.siding i = s.siding i) ∧ t.sdg.pool = s.sdg.pool) ∧
  (∀ (s : State) (sid : Nat), s.core = true →
    let d := s.siding sid
    let n := (itemAt s d).length
    n ≤ ringWords d - d.memWr % ringWords d → ringFree d < n → exec (.drainItemWrite sid [] []) s = .next s)

/-! ## Memory port and export -/

/-- The next piece of an access issues (R279, R335): it lies in one window of its owner that grants it, ends at a 2 KiB
boundary at the latest, overlaps no outstanding write, and takes a reserved slot of its class and a free identity. The
command on the port carries the aligned address, the number of beats less one, the identity and the partition. -/
def Sys2Proof.Claims.MemoryCommand : Prop :=
  ∀ (s : State) (id tid : Nat) (j : Job), s.core = true → s.drives = true → s.mem.jobs.find? (fun x => x.id == id) = some j →
    j.issued < j.len → j.err = 0 → j.unchecked = false → (j.owner < 16 → (s.part j.owner).state = 1) →
    (∀ x ∈ s.mem.jobs, x.ended = false) → sweepWaits s j = false →
    let a := j.addr + j.issued
    let len := min (j.len - j.issued) (2048 - a % 2048)
    let base := a / 128 * 128
    let n := (a % 128 + len + 127) / 128
    windowAllows s j.owner base (128 * n) j.write = true → overlapsWrite s base n = false →
    (s.mem.txns.filter fun t => t.cls == j.cls).length < (if j.cls = 3 then 32 else 64) →
    firstFree 256 (s.mem.txns.map (·.id)) = some tid →
    a / 2048 = (a + len - 1) / 2048 ∧
    exec (.memCmdIssue id) s = .next { s with mem := { s.mem with
      cmd := some (b2n j.write, base, n - 1, tid, ownerCode j.owner),
      txns := s.mem.txns ++ [{
        id := tid, job := id, cls := j.cls, write := j.write, addr := base, beats := n, got := 0, at_ := s.ttb.time,
        dead := false, bad := false, part := j.owner }],
      wbeats := if j.write then s.mem.wbeats ++ writeBeats j a len else s.mem.wbeats,
      jobs := s.mem.jobs.map fun x =>
        if x.id == id then { x with issued := x.issued + len, open_ := x.open_ + 1 } else x } }

/-- A command that the window check refuses is not issued (R280): it is counted and flagged for its owner with its
address, and counts as a failed access of the unit that made it. -/
def Sys2Proof.Claims.MemoryRefused : Prop :=
  ∀ (s : State) (id : Nat) (j : Job), s.core = true → s.drives = true → s.mem.jobs.find? (fun x => x.id == id) = some j →
    j.issued < j.len → j.err = 0 → j.unchecked = false → j.scrubs = false → 0 < j.open_ → j.owner ≤ 16 →
    (j.owner < 16 → (s.part j.owner).state = 1) → (∀ x ∈ s.mem.jobs, x.ended = false) → sweepWaits s j = false →
    (∀ x ∈ s.mem.jobs, x.id = id → x = j) →
    let a := j.addr + j.issued
    let len := min (j.len - j.issued) (2048 - a % 2048)
    let base := a / 128 * 128
    windowAllows s j.owner base (128 * ((a % 128 + len + 127) / 128)) j.write = false →
    Answers (.memCmdIssue id) s fun t =>
      t.mem.cmd = s.mem.cmd ∧ t.mem.txns = s.mem.txns ∧ t.mem.wbeats = s.mem.wbeats ∧
      t.ilk.refused = s.ilk.refused.modify j.owner (fun n => min 65535 (n + 1)) ∧
      t.ilk.lastAddr = s.ilk.lastAddr.set j.owner base ∧ t.ilk.rint = s.ilk.rint ||| 1#4 ∧
      (j.owner < 16 → t.ilk.parts = s.ilk.parts.modify j.owner fun x => { x with pint := x.pint ||| 1#3 }) ∧
      t.sbx = s.sbx ∧
      t.mem.jobs = s.mem.jobs.map (fun x =>
        if x.id = id then { x with issued := x.issued + len, err := 2, bad := base } else x)

/-- Beats and responses (R41, R335, R337): a write beat leaves in order; a good read beat joins its access; the last one
of a read, and the response of a write, free the identity, and the access has one transaction less outstanding; a beat
or a response without its transaction is a protocol error. -/
def Sys2Proof.Claims.MemoryBeats : Prop :=
  (∀ (s : State) (b : WBeat) (r : List WBeat), s.core = true → s.drives = true → s.mem.wbeats = b :: r →
    exec .memWriteBeat s = .next { s with mem := { s.mem with wbeats := r, wd := some b } }) ∧
  (∀ (s : State) (id : BitVec 8) (x : BitVec 1024) (t : Txn), s.core = true → s.drives = true →
    s.mem.txns.find? (fun t => t.id == id.toNat && !t.write) = some t → t.dead = false →
    (∀ j ∈ s.mem.jobs, j.ended = false) →
    exec (.memReadBeat id x false false) s = .next { s with mem := { s.mem with
      jobs := s.mem.jobs.map fun j =>
        if j.id == t.job then { j with got := j.got ++ [(t.addr + 128 * t.got, leBytes 128 x.toNat)] } else j,
      txns := s.mem.txns.map fun y =>
        if y.id == id.toNat then { t with got := t.got + 1 } else y } }) ∧
  (∀ (s : State) (id : BitVec 8) (x : BitVec 1024) (t : Txn), s.core = true → s.drives = true →
    s.mem.txns.find? (fun t => t.id == id.toNat && !t.write) = some t → t.dead = false → t.bad = false →
    t.got + 1 = t.beats →
    exec (.memReadBeat id x true false) s = .next (afterPort { s with mem := { s.mem with
      jobs := s.mem.jobs.map fun j =>
        if j.id == t.job then
          { j with
            got := j.got ++ [(t.addr + 128 * t.got, leBytes 128 x.toNat)], open_ := j.open_ - 1 } else j,
      txns := s.mem.txns.filter fun y => y.id != t.id } })) ∧
  (∀ (s : State) (id : BitVec 8) (t : Txn), s.core = true → s.drives = true →
    s.mem.txns.find? (fun t => t.id == id.toNat && t.write) = some t → t.dead = false →
    exec (.memWriteResponse id false) s = .next (afterPort { s with mem := { s.mem with
      jobs := s.mem.jobs.map fun j => if j.id == t.job then { j with open_ := j.open_ - 1 } else j,
      txns := s.mem.txns.filter fun y => y.id != t.id } })) ∧
  (∀ (s : State) (id : BitVec 8) (x : BitVec 1024) (l e : Bool), s.core = true → s.drives = true →
    s.mem.txns.find? (fun t => t.id == id.toNat && !t.write) = none → (∀ j ∈ s.mem.jobs, j.ended = false) →
    exec (.memReadBeat id x l e) s = .next { s with mem := { s.mem with proto := min 65535 (s.mem.proto + 1) } }) ∧
  (∀ (s : State) (id : BitVec 8) (e : Bool), s.core = true → s.drives = true →
    s.mem.txns.find? (fun t => t.id == id.toNat && t.write) = none → (∀ j ∈ s.mem.jobs, j.ended = false) →
    exec (.memWriteResponse id e) s = .next { s with mem := { s.mem with proto := min 65535 (s.mem.proto + 1) } }) ∧
  (∀ s : State, (∀ j ∈ s.mem.jobs, j.ended = false) → afterPort s = s)

/-- A transaction without a response 1 ms after its handshake (R303, R337) counts, raises 0/2 with its identity and
address, and keeps its identity until the late response; before that nothing happens. A port whose crossing holds work
and whose clock makes no edge raises 0/1. -/
def Sys2Proof.Claims.PortFaults : Prop :=
  (∀ (s : State) (id : BitVec 8) (x : Txn), s.core = true →
    s.mem.txns.find? (fun t => t.id == id.toNat && !t.dead) = some x → x.at_ + 1000000 ≤ s.ttb.time →
    (∀ j ∈ s.mem.jobs, j.id = x.job → 1 < j.open_) → (∀ j ∈ s.mem.jobs, j.ended = false) →
    (∀ j ∈ s.mem.jobs, j.scrubs = false) →
    Answers (.memTimeout id) s fun t =>
      t.mem.timeouts = min 65535 (s.mem.timeouts + 1) ∧
      t.mem.txns = (s.mem.txns.filter fun y => y.id != x.id) ++ [{ x with dead := true }] ∧
      t.sbx = { s.sbx with inbox := s.sbx.inbox ++
        [received s (occ 0 2 0 (id.toNat * 2 ^ 48 + x.addr))] }) ∧
  (∀ (s : State) (id : BitVec 8) (x : Txn),
    s.mem.txns.find? (fun t => t.id == id.toNat && !t.dead) = some x → s.ttb.time < x.at_ + 1000000 →
    (∀ j ∈ s.mem.jobs, j.ended = false) → exec (.memTimeout id) s = .next s) ∧
  (∀ (s : State) (p : Nat), s.core = true → portHoldsWork s p = true → p ≠ 1 →
    exec (.portClockStall p) s = .next { s with sbx := { s.sbx with
      inbox := s.sbx.inbox ++ [received s (occ 0 1 p)] } }) ∧
  (∀ s : State, s.core = true → portHoldsWork s 1 = true → s.exp.stallAt = none →
    exec (.portClockStall 1) s = .next { s with
      exp := { s.exp with stallAt := some s.ttb.time },
      sbx := { s.sbx with inbox := s.sbx.inbox ++ [received s (occ 0 1 1)] } })

/-- A lane takes the next payload of the session whose turn it is (R339, R342): the frame carries the next frame_seq,
its item leaves the siding's read side, and the siding releases it only at the frame's end. -/
def Sys2Proof.Claims.FrameTaken : Prop :=
  ∀ (s : State) (l o : Nat), s.core = true → s.drives = true → l < 2 → l < s.exp.lanes.length → o < s.exp.sess.length →
    laneFree (s.exp.lanes.getD l Lane.reset) = true → (s.exp.lanes.getD l Lane.reset).cur = none →
    ((List.range 17).map fun k => (s.exp.rr + k) % 17).find? (fun o =>
      hasFrame s o && laneFor s (s.session o) == l) = some o →
    (s.session o).seq < 2 ^ 64 - 1 → (s.siding (s.session o).siding).avail ≠ 0 → (s.session o).closing = none →
    (s.session o).enc = true → (s.siding (s.session o).siding).state = 1 →
    let d := s.siding (s.session o).siding
    let content := wordsBytes ((itemAt s d).drop 1)
    let payload := (content.drop 32).take (leAt content 28 4)
    let head := frameHeader (s.session o) (leAt content 8 2) (leAt content 20 8) payload.length
      ((s.session o).seq + 1) false
    let sealed_ := gcmSeal (s.session o).key ((s.session o).salt ++ beBytes 8 ((s.session o).seq + 1)) head payload
    Answers (.exportFrameStart l [] []) s fun t =>
      (t.exp.lanes.getD l Lane.reset).cur = some {
        owner := o, sid := (s.session o).siding, itemEnd := d.add d.rd (itemAt s d).length,
        bytes := head ++ sealed_.1 ++ sealed_.2, sent := 0, last := false, hasItem := true } ∧
      (t.session o).seq = (s.session o).seq + 1 ∧ (t.session o).frames = (s.session o).frames + 1 ∧
      (t.siding (s.session o).siding).rd = d.add d.rd (itemAt s d).length ∧
      (t.siding (s.session o).siding).rel = d.rel ∧ (t.siding (s.session o).siding).inFlight = true ∧
      t.exp.rr = (o + 1) % 17 ∧ t.mem = s.mem ∧ t.sdg.pool = s.sdg.pool

/-- A closing session with nothing left sends the empty frame (R343): first_ts 0, payload_len 0, the lowest stream of its
mask, the flag of the last frame, and the next frame_seq. -/
def Sys2Proof.Claims.LastFrame : Prop :=
  ∀ (s : State) (l o : Nat) (c b : List Nat), s.core = true → s.drives = true → l < 2 → l < s.exp.lanes.length → o < s.exp.sess.length →
    laneFree (s.exp.lanes.getD l Lane.reset) = true → (s.exp.lanes.getD l Lane.reset).cur = none →
    ((List.range 17).map fun k => (s.exp.rr + k) % 17).find? (fun o =>
      hasFrame s o && laneFor s (s.session o) == l) = some o →
    (s.session o).seq < 2 ^ 64 - 1 → (s.siding (s.session o).siding).avail = 0 →
    let seq := (s.session o).seq + 1
    let stream := (bitsOf 33 (s.session o).mask.toNat).headD (if o < 16 then o else 16)
    exec (.exportFrameStart l c b) s = .next { s with exp := { s.exp with
      sess := s.exp.sess.modify o fun x => { x with seq := seq, frames := x.frames + 1, lastSent := true },
      lanes := s.exp.lanes.modify l fun x => { x with cur := some {
        owner := o, sid := (s.session o).siding, itemEnd := 0, bytes := frameBytes (s.session o) stream 0 [] seq true,
        sent := 0, last := true, hasItem := false } },
      rr := (o + 1) % 17 } }

/-- The MAC adapter takes a frame 8 bytes at a time (R43); with the EOF beat the lane counts the frame and goes on with
the next, and an aborted frame ends with its one abort beat. An accepted beat ends the stall of EXP_CLK. -/
def Sys2Proof.Claims.FrameBeats : Prop :=
  (∀ (s : State) (l : Nat) (f : Frame), s.core = true → s.drives = true → (s.exp.lanes.getD l Lane.reset).cur = some f →
    (s.exp.lanes.getD l Lane.reset).abort = false → 8 < f.bytes.length →
    exec (.exportBeatAccept l) s = .next { s with exp := { s.exp with
      stallAt := none,
      lanes := s.exp.lanes.modify l fun x =>
        { x with cur := some { f with bytes := f.bytes.drop 8, sent := f.sent + 8 } } } }) ∧
  (∀ (s : State) (l : Nat) (f : Frame), s.core = true → s.drives = true → (s.exp.lanes.getD l Lane.reset).cur = some f →
    (s.exp.lanes.getD l Lane.reset).abort = false → f.bytes.length ≤ 8 → f.hasItem = false → f.last = false →
    exec (.exportEofAccept l) s = .next { s with exp := { s.exp with
      stallAt := none,
      lanes := s.exp.lanes.modify l fun x =>
        { x with cur := x.next, next := none, frames := (x.frames + 1) % 2 ^ 32 } } }) ∧
  (∀ (s : State) (l : Nat), s.drives = true →
    (s.exp.lanes.getD l Lane.reset).abort = true → (s.exp.lanes.getD l Lane.reset).resets = false →
    exec (.exportAbortAccept l) s = .next { s with exp := { s.exp with
      stallAt := none,
      lanes := s.exp.lanes.modify l fun x => { x with cur := x.next, next := none, abort := false } } }) ∧
  (∀ (s : State) (l : Nat), s.drives = true →
    (s.exp.lanes.getD l Lane.reset).abort = true → (s.exp.lanes.getD l Lane.reset).resets = true →
    exec (.exportAbortAccept l) s = .next { s with exp := { s.exp with
      stallAt := none, lanes := s.exp.lanes.modify l fun _ => Lane.reset } })

/-- The siding releases an exported item when its frame's EOF beat is accepted (R342): with one item in flight and no
valid mark, rel_ptr moves past it. -/
def Sys2Proof.Claims.ExportReleases : Prop :=
  ∀ (s : State) (l : Nat) (f : Frame), s.core = true → s.drives = true → (s.exp.lanes.getD l Lane.reset).cur = some f →
    (s.exp.lanes.getD l Lane.reset).abort = false → f.bytes.length ≤ 8 → f.hasItem = true → f.last = false →
    (s.siding f.sid).state = 1 → (s.siding f.sid).markValid = false →
    s.exp.flight = [(f.sid, f.itemEnd, false)] →
    (s.siding f.sid).dist (s.siding f.sid).rel f.itemEnd ≤ (s.siding f.sid).dist (s.siding f.sid).rel (s.siding f.sid).rd →
    Answers (.exportEofAccept l) s fun t =>
      (t.siding f.sid).rel = f.itemEnd ∧ (t.siding f.sid).rd = (s.siding f.sid).rd ∧
      (t.siding f.sid).inFlight = false ∧ t.exp.flight = [] ∧ (∀ i, i ≠ f.sid → t.siding i = s.siding i)

/-- SESSION_CLOSE (R291): the session's streams stop, in force and pending, their payloads go to its siding, and the
session is over when its last frame has been sent: the completion then tells the frames and the last frame_seq, the
siding has no producer and the key is gone. -/
def Sys2Proof.Claims.SessionCloses : Prop :=
  (∀ (s : State) (w : Nat) (pk : List Word), Issues 0x81 w pk s → w < s.exp.sess.length → (s.session w).isOpen = true →
    (s.session w).closing = none →
    (∀ i ∈ bitsOf 33 (s.session w).mask.toNat, (s.myd.streams.getD i Stream.reset).payload = none) →
    Answers (.sessionClose w) s fun t =>
      (t.session w).closing = some (ticketOf w pk) ∧ (t.session w).isOpen = true ∧
      (t.win w).longs = (s.win w).longs + 1 ∧
      (∀ i < s.myd.streams.length, (t.myd.streams.getD i Stream.reset).cfg =
        if (s.session w).mask.toNat.testBit i then put (s.myd.streams.getD i Stream.reset).cfg 38 1 0
        else (s.myd.streams.getD i Stream.reset).cfg)) ∧
  (∀ (s : State) (w : Nat) (pk : List Word), Issues 0x81 w pk s →
    ((s.session w).isOpen = false ∨ (s.session w).closing ≠ none) →
    exec (.sessionClose w) s = .next (told w pk 4 0 0 (taken w s))) ∧
  (∀ (s : State) (l : Nat) (f : Frame) (k : Ticket), s.core = true → s.drives = true → (s.exp.lanes.getD l Lane.reset).cur = some f →
    (s.exp.lanes.getD l Lane.reset).abort = false → f.bytes.length ≤ 8 → f.hasItem = false → f.last = true →
    f.owner < s.exp.sess.length → (s.session f.owner).closing = some k → k.tkl = false →
    Answers (.exportEofAccept l) s fun t =>
      (t.session f.owner).isOpen = false ∧ (t.session f.owner).key = [] ∧ (t.session f.owner).salt = [] ∧
      (t.session f.owner).closing = none ∧ (t.siding (s.session f.owner).siding).producer =
        (if (s.session f.owner).siding < s.sdg.desc.length then 0 else (t.siding (s.session f.owner).siding).producer))

/-- SESSION_OPEN (R271, R290): it needs an identity, no session of the sender, a siding of its own with the export
consumer and no producer, and a public key on the curve; with the entropy at hand it draws the session id and key, and
the signed session record is on its way to memory; the session is open when the record has been written. -/
def Sys2Proof.Claims.SessionOpens : Prop :=
  (∀ (s : State) (w sid id d : Nat) (pk : List Word) (rest : List Byte) (who : Identity), Issues 0x80 w pk s →
    w < s.exp.sess.length → s.ilk.testState = false → s.ilk.identity = some who → (s.session w).isOpen = false →
    (s.session w).opening = false → sessionSiding s w = some sid → p256On (receiverKey pk) = true → s.ilk.trng = 1 →
    s.exp.opens = [] → drawSession w s.ilk.entropy = some (id, d, rest) →
    Answers (.sessionOpen w) s fun t =>
      let record := sessionRecord s id (sessionMask w pk) d pk
      (t.session w).opening = true ∧ (t.session w).isOpen = false ∧ (t.session w).siding = sid ∧
      (t.session w).id = id ∧ (t.session w).mask = BitVec.ofNat 33 (sessionMask w pk) ∧ (t.session w).seq = 0 ∧
      t.ilk.entropy = rest ∧ t.exp.opens = [] ∧
      t.mem.jobs = s.mem.jobs ++ [{
        id := s.mem.nextJob, cls := 3, owner := w, write := true, addr := fld (pk.getD 10 0) 0 48, len := 128,
        bytes := record ++ ecdsaSign who.d (sha256 record), purpose := .session (ticketOf w pk), issued := 0, open_ := 0,
        got := [], err := 0, bad := 0 }]) ∧
  (∀ (s : State) (w : Nat) (pk : List Word), Issues 0x80 w pk s → s.ilk.testState = true ∨ s.ilk.identity = none →
    exec (.sessionOpen w) s = .next (told w pk 3 0 0 (taken w s))) ∧
  (∀ (s : State) (w : Nat) (pk : List Word), Issues 0x80 w pk s → s.ilk.testState = false → s.ilk.identity ≠ none →
    ((s.session w).isOpen = true ∨ (s.session w).opening = true ∨ sessionSiding s w = none) →
    exec (.sessionOpen w) s = .next (told w pk 4 0 0 (taken w s))) ∧
  (∀ (s : State) (id : BitVec 8) (x : Txn) (j : Job) (k : Ticket), s.core = true → s.drives = true →
    s.mem.txns.find? (fun t => t.id == id.toNat && t.write) = some x → x.dead = false → s.mem.jobs = [j] →
    j.id = x.job → j.purpose = .session k → j.issued = j.len → j.open_ = 1 → j.err = 0 → k.w < s.exp.sess.length →
    (s.session k.w).opening = true → (s.session k.w).siding < s.sdg.desc.length →
    Answers (.memWriteResponse id false) s fun t =>
      (t.session k.w).isOpen = true ∧ (t.session k.w).opening = false ∧
      (t.siding (s.session k.w).siding).producer = 3 ∧ t.mem.jobs = [])

/-- EXP_CLK stalled for 10 ms ends a session without SESSION_CLOSE (R344): it is closed with cause 2, its key is gone,
and its tenant is told by bit 1 of PINT. -/
def Sys2Proof.Claims.SessionEndsOnStall : Prop :=
  (∀ (s : State) (o t0 : Nat), s.core = true → s.exp.stallAt = some t0 → t0 + 10000000 ≤ s.ttb.time → o < 17 →
    o < s.exp.sess.length → (s.session o).isOpen = true →
    Answers (.sessionEndClock o) s fun t =>
      (t.session o).isOpen = false ∧ (t.session o).ended = true ∧ (t.session o).cause = 2 ∧ (t.session o).key = [] ∧
      (t.session o).salt = [] ∧ (o < 16 → o < s.ilk.parts.length → (t.part o).pint = (s.part o).pint ||| 2#3) ∧
      t.mem = s.mem ∧ t.ldg = s.ldg) ∧
  (∀ (s : State) (o : Nat), s.exp.stallAt = none → exec (.sessionEndClock o) s = .next s)

/-! ## Checking and tracks -/

/-- The earliest unopened frame window of a plan slot opens when its time has come and no boundary stands before it
(R195): it belongs to the epoch of its opening time and is numbered among that epoch's windows of the slot; new work
items gather for it, none in the fatal state (R315). -/
def Sys2Proof.Claims.FrameWindowOpens : Prop :=
  (∀ (s : State) (k : Nat) (w : FrameWin), s.core = true →
    s.wtp.windows.find? (fun x => x.slot == k && !x.opened) = some w → w.openAt ≤ s.ttb.time →
    s.ttb.announced = none →
    Answers (.frameWindowOpen k) s fun t =>
      t.wtp.windows = s.wtp.windows.map (fun x => if x.id == w.id then
        { x with
          opened := true, epoch := s.epochAt w.openAt,
          nf := (s.wtp.windows.filter fun y => y.slot == w.slot && y.opened && y.epoch == s.epochAt w.openAt).length }
        else x) ∧
      (∃ new, t.wtp.items = s.wtp.items ++ new ∧ (s.sbx.state = 3 → new = []) ∧
        ∀ i ∈ new, i.window = w.id ∧ i.slot = w.slot ∧ i.epoch = s.epochAt w.openAt ∧ i.phase = 0 ∧ i.due = none ∧
          i.beats = []) ∧
      t.trk = s.trk ∧ t.sbx = s.sbx ∧ t.jct.intIn = s.jct.intIn ∧ (s.wtp.badLayers = [] → t.jct = s.jct)) ∧
  (∀ (s : State) (k : Nat) (w : FrameWin) (b : Boundary), s.core = true →
    s.wtp.windows.find? (fun x => x.slot == k && !x.opened) = some w → s.ttb.announced = some b → b.t ≤ w.openAt →
    exec (.frameWindowOpen k) s = .next s) ∧
  (∀ (s : State) (k : Nat) (w : FrameWin), s.wtp.windows.find? (fun x => x.slot == k && !x.opened) = some w →
    s.ttb.time < w.openAt → exec (.frameWindowOpen k) s = .next s)

/-- A frame window closes once the operands stamped before its end have arrived (R207): every item of it that still
gathered has its observation point, and none gathers any more. -/
def Sys2Proof.Claims.FrameWindowCloses : Prop :=
  (∀ (s : State) (k c : Nat) (w : FrameWin), s.core = true →
    s.wtp.windows.find? (fun x => x.slot == k && x.opened && !x.closed) = some w → w.closeAt = some c →
    c ≤ s.ttb.time → operandsBefore s c = false →
    Answers (.frameWindowClose k) s fun t =>
      (∀ x ∈ t.wtp.windows, x.id = w.id → x.closed = true) ∧
      (∀ i ∈ t.wtp.items, i.window = w.id → i.phase ≠ 0)) ∧
  (∀ (s : State) (k c : Nat) (w : FrameWin),
    s.wtp.windows.find? (fun x => x.slot == k && x.opened && !x.closed) = some w → w.closeAt = some c →
    s.ttb.time < c ∨ operandsBefore s c = true → exec (.frameWindowClose k) s = .next s)

/-- A free track in service takes its next ready item (R210): the chunks that it needs were asked for when it became ready,
and are asked for now, one header each, where they were not and no other item of its layer holds them; it runs once it
has them. An item of which nothing can be computed runs at once. -/
def Sys2Proof.Claims.WorkItemStarts : Prop :=
  (∀ (s : State) (t : Nat) (it : WorkItem), s.core = true → (s.track t).state = 1 → (s.track t).running = none →
    nextItem s t = some it → nothingToRun it = true →
    exec (.workItemStart t) s = .next (modItem it.id (fun i => { i with phase := 3 }) { s with
      trk := s.trk.modify t fun x =>
        { x with running := some it.id, progress := s.ttb.time, left := 0, retrying := none } })) ∧
  (∀ (s : State) (t : Nat) (it : WorkItem), s.core = true → (s.track t).state = 1 → (s.track t).running = none →
    nextItem s t = some it → nothingToRun it = false → itemChunks it.layer ≠ [] → it.asked = false →
    (∀ j ∈ s.wtp.items, j.track = it.track → j.slot = it.slot → j.layerIx = it.layerIx → j.id ≠ it.id → j.chunks = []) →
    Answers (.workItemStart t) s fun u =>
      (u.track t).running = some it.id ∧ (∀ i ∈ u.wtp.items, i.id = it.id → i.phase = 2 ∧ i.fetch = itemChunks it.layer) ∧
      u.mem.jobs.length = s.mem.jobs.length + (itemChunks it.layer).length ∧ s.mem.jobs <+: u.mem.jobs ∧
      u.jct = s.jct ∧ u.sbx = s.sbx) ∧
  (∀ (s : State) (t : Nat) (it : WorkItem), s.core = true → (s.track t).state = 1 → (s.track t).running = none →
    nextItem s t = some it → nothingToRun it = false → it.asked = true →
    exec (.workItemStart t) s = .next (modItem it.id (fun i => { i with phase := if i.fetch.isEmpty then 3 else 2 }) { s with
      trk := s.trk.modify t fun x =>
        { x with running := some it.id, progress := s.ttb.time, left := 0, retrying := none } }))

/-- The items of a track run in ascending order of due time, then station, then plan slot, then layer index (R210): the
item taken next is one of the track's ready items, and none of them comes before it. -/
def Sys2Proof.Claims.WorkItemOrder : Prop :=
  ∀ (s : State) (t : Nat) (it : WorkItem), nextItem s t = some it →
    it ∈ s.wtp.items ∧ it.track = t ∧ it.phase = 1 ∧
    ∀ x ∈ s.wtp.items, x.track = t → x.phase = 1 →
      ¬ ([x.due.getD 0, x.layer.station, x.slot, x.layerIx] < [it.due.getD 0, it.layer.station, it.slot, it.layerIx])

/-- A chunk whose tag is right joins its item, which runs when it has them all; one whose tag is wrong is discarded and
told as 7/4, and what has not committed of the layer's items that need it is withdrawn, also in the frame windows of the
epoch that are still to open (R14, R183). -/
def Sys2Proof.Claims.ChunkDecrypted : Prop :=
  (∀ (s : State) (t id ix : Nat) (it : WorkItem) (b plain : List Byte) (r : List (Nat × List Byte)), s.core = true →
    (s.track t).state = 1 → (s.track t).running = some id → itemById s id = some it → it.raw = (ix, b) :: r → it.track = t →
    openChunk s b = some plain →
    exec (.chunkDecryptComplete t .ok) s = .next (modItem it.id (fun i =>
      { i with
        raw := i.raw.drop 1, chunks := i.chunks ++ [(ix, plain)], fetch := i.fetch.filter fun k => k != ix,
        phase := if (i.fetch.filter fun k => k != ix).isEmpty && i.phase == 2 then 3 else i.phase })
      { s with trk := s.trk.modify t fun x => { x with progress := s.ttb.time } })) ∧
  (∀ (s : State) (t id ix : Nat) (it : WorkItem) (b : List Byte) (r : List (Nat × List Byte)), s.core = true → t < s.trk.length →
    (s.track t).state = 1 → (s.track t).running = some id → itemById s id = some it → it.raw = (ix, b) :: r →
    openChunk s b = none → it.track = t → it.due ≠ none → (∀ c ∈ it.chunks, c.1 ≠ ix) →
    (s.wtp.items.map fun i => i.id).Nodup → s.wbr.owedSts = [] → s.wtp.old = [] →
    let lacks := fun i : WorkItem => i.slot == it.slot && i.layerIx == it.layerIx && !i.chunks.any fun c => c.1 == ix
    Answers (.chunkDecryptComplete t .ok) s fun u =>
      (u.track t).running = none ∧ (u.track t).tagFail = min 65535 ((s.track t).tagFail + 1) ∧
      (∀ i ∈ s.wtp.items, lacks i = true → ∀ j ∈ u.wtp.items, j.id = i.id →
        i.due = none ∧ ∀ x ∈ j.samples, x.done = true) ∧
      (s.ttb.epoch, it.slot, it.layerIx) ∈ u.wtp.badLayers ∧
      u.sbx.inbox = s.sbx.inbox ++ [received s (occ 7 4 t (it.bundle * 2 ^ 32 + ix))] ∧
      u.wtp.wdrCnt % 2 ^ 32 =
        (s.wtp.wdrCnt + ((s.wtp.items.filter lacks).flatMap fun i => i.samples.filter fun x => !x.done).length) % 2 ^ 32 ∧
      u.jct.intIn = s.jct.intIn)

/-- Sample sets, or positions of a tap run, that the passes of an item go through. -/
abbrev Sys2Proof.Claims.passSets (it : WorkItem) : Nat :=
  if it.layer.kind = 5 then (runReady it).length else (computables it).length

/-- A pass (R64, R65, R184): it uses step tokens of the bucket and ends when its steps are done; a bad check runs it again,
a retry that agrees is told as 7/1 and counted, and a second bad check in a row withdraws the track; a track whose
known-answer tile is due runs no pass. -/
def Sys2Proof.Claims.TrackPasses : Prop :=
  (∀ (s : State) (t id : Nat) (it : WorkItem), s.core = true → t < s.trk.length → (s.track t).state = 1 →
    (s.track t).katDue = false → (s.track t).running = some id → itemById s id = some it → it.phase = 3 →
    it.passes < passTotal it (passSets it) → (s.track t).left = 0 →
    (s.track t).retrying = none →
    let cost := passSteps it.layer + loadCost it (passSets it)
    cost ≤ (s.track t).tokens →
    exec (.trackPassEnd t .ok) s = .next (modItem it.id (fun i => { i with passes := i.passes + 1 }) { s with
      trk := s.trk.modify t fun x =>
        { x with tokens := x.tokens - cost, left := 0, progress := s.ttb.time, retrying := none } })) ∧
  (∀ (s : State) (t id : Nat) (it : WorkItem) (check : PassCheck), s.core = true → t < s.trk.length →
    (s.track t).state = 1 → (s.track t).katDue = false → (s.track t).running = some id → itemById s id = some it →
    it.phase = 3 → it.passes < passTotal it (passSets it) → (s.track t).left = 0 →
    (s.track t).retrying = none →
    let cost := passSteps it.layer + loadCost it (passSets it)
    (s.track t).tokens < cost →
    exec (.trackPassEnd t check) s = .next { s with
      trk := s.trk.modify t fun x =>
        { x with tokens := 0, left := cost - x.tokens, progress := s.ttb.time } }) ∧
  (∀ (s : State) (t id : Nat) (it : WorkItem), s.core = true → t < s.trk.length → (s.track t).state = 1 →
    (s.track t).katDue = false → (s.track t).running = some id → itemById s id = some it → it.phase = 3 →
    it.passes < passTotal it (passSets it) → (s.track t).left = 0 →
    (s.track t).retrying = none →
    let cost := passSteps it.layer + loadCost it (passSets it)
    cost ≤ (s.track t).tokens →
    exec (.trackPassEnd t .residue) s = .next { s with
      trk := s.trk.modify t fun x =>
        { x with tokens := x.tokens - cost, left := 0, progress := s.ttb.time, retrying := some .residue } }) ∧
  (∀ (s : State) (t id : Nat) (it : WorkItem), s.core = true → t < s.trk.length → (s.track t).state = 1 →
    (s.track t).katDue = false → (s.track t).running = some id → itemById s id = some it → it.phase = 3 →
    it.passes < passTotal it (passSets it) → (s.track t).left = 0 →
    (s.track t).retrying = some .residue → passSteps it.layer ≤ (s.track t).tokens →
    exec (.trackPassEnd t .ok) s = .next (modItem it.id (fun i => { i with passes := i.passes + 1 }) { s with
      trk := s.trk.modify t fun x =>
        { x with
          tokens := x.tokens - passSteps it.layer, left := 0, progress := s.ttb.time, retrying := none,
          retry := min (2 ^ 32 - 1) (x.retry + 1) },
      sbx := { s.sbx with inbox := s.sbx.inbox ++ [received s (occ 7 1 t)] } })) ∧
  (∀ (s : State) (t id : Nat) (it : WorkItem) (check : PassCheck), s.core = true → t < 4 → s.trk.length = 4 →
    (s.track t).state = 1 → (s.track t).katDue = false → (s.track t).running = some id → itemById s id = some it →
    it.phase = 3 → it.passes < passTotal it (passSets it) → (s.track t).left = 0 →
    (s.track t).retrying ≠ none → passSteps it.layer ≤ (s.track t).tokens → check = .residue ∨ check = .parity →
    Answers (.trackPassEnd t check) s fun u =>
      (u.track t).state = 2 ∧ (u.track t).cause = (if check = .parity then 5 else 1) ∧ (u.track t).running = none) ∧
  (∀ (s : State) (t : Nat) (check : PassCheck), (s.track t).katDue = true →
    exec (.trackPassEnd t check) s = .next s)

/-- The known-answer tile (R65, R185): it takes the tokens that are there and ends once its 512 steps have run; a right
answer is noted with its epoch, and a wrong answer withdraws the track. -/
def Sys2Proof.Claims.KnownAnswer : Prop :=
  (∀ (s : State) (t : Nat), s.core = true → t < s.trk.length → (s.track t).state = 1 → (s.track t).katDue = true →
    (s.track t).katLeft ≤ (s.track t).tokens →
    exec (.knownAnswerTileEnd t true) s = .next { s with
      trk := s.trk.modify t fun x =>
        { x with
          katDue := false, katLeft := 0, tokens := x.tokens - x.katLeft, progress := s.ttb.time,
          katEpoch := s.ttb.epoch } }) ∧
  (∀ (s : State) (t : Nat) (ok : Bool), s.core = true → t < s.trk.length → (s.track t).state = 1 →
    (s.track t).katDue = true → (s.track t).tokens < (s.track t).katLeft →
    exec (.knownAnswerTileEnd t ok) s = .next { s with
      trk := s.trk.modify t fun x =>
        { x with katLeft := x.katLeft - x.tokens, tokens := 0, progress := s.ttb.time } }) ∧
  (∀ (s : State) (t : Nat), s.core = true → t < s.trk.length → (s.track t).state = 1 → (s.track t).katDue = true →
    (s.track t).katLeft ≤ (s.track t).tokens →
    Answers (.knownAnswerTileEnd t false) s fun u => (u.track t).state = 2 ∧ (u.track t).cause = 2)

/-- A withdrawn track (R186, R187): it is out of service with its cause, its key slots are zeroised, nothing runs on it,
its fault is told as 7/6 with the cause, and no station is routed to it while another track is in service. Here the
watchdog withdraws it: step work and tokens, and no progress for 100 µs. -/
def Sys2Proof.Claims.TrackWithdrawn : Prop :=
  (∀ (s : State) (t : Nat), s.core = true → t < 4 → s.trk.length = 4 → (s.track t).state = 1 → stepReady s t = true →
    0 < (s.track t).tokens → (s.track t).progress + 100000 ≤ s.ttb.time →
    Answers (.sequencerWatchdog t) s fun u =>
      (u.track t).state = 2 ∧ (u.track t).cause = 3 ∧ (u.track t).slotValid = 0 ∧ (u.track t).running = none ∧
      (u.track t).pilot = none ∧ received s (occ 7 6 t 3) ∈ u.sbx.inbox ∧
      (∀ k < 4, k ≠ t → (u.track k).state = (s.track k).state) ∧
      ((∃ k < 4, k ≠ t ∧ (s.track k).state = 1) → ∀ n < s.jct.route.length, u.jct.route.getD n 0 ≠ t)) ∧
  (∀ (s : State) (t : Nat), s.ttb.time < (s.track t).progress + 100000 → exec (.sequencerWatchdog t) s = .next s)

/-- A sample set commits (R210, R211, R212): the first uncommitted one of the track's item, once all of it is computed, by
its due time and while the record store has room; an uncorrectable operand withdraws it without a record, and the other
commits hand over one VRD record of the code with the item's due time, count it for the epoch and send its event, a PASS too (R218). -/
def Sys2Proof.Claims.SampleSetCommits : Prop :=
  (∀ (s : State) (t id due : Nat) (it : WorkItem) (x : Sample), s.core = true → (s.track t).running = some id →
    itemById s id = some it → it.samples.find? (fun z => !z.done) = some x →
    ((∃ y ∈ it.samples, y.done = false ∧ y.num ≠ x.num) ∨ (s.wbr.owedSts = [] ∧ s.wtp.old = [])) →
    sampleFinished it x = true → heldVrd s < 4096 → it.due = some due → s.ttb.time ≤ due → 1 < s.jct.intIn.length →
    (resultNow s it x).mism = 0 → wholeCompared it (resultNow s it x) = true →
    Answers (.sampleSetCommit t .ok) s fun u =>
      u.wtp.passCnt = (s.wtp.passCnt + 1) % 2 ^ 32 ∧ u.wtp.mismCnt = s.wtp.mismCnt ∧ u.wtp.incCnt = s.wtp.incCnt ∧
      u.wtp.lateCnt = s.wtp.lateCnt ∧ u.wtp.skipCnt = s.wtp.skipCnt ∧
      u.sbx.inbox = s.sbx.inbox ++ [received s (eventOcc 8 0 it.layer.station
        (verdictDetail it.epoch it.plan it.stream it.layer.layer) [] it.owner
        (.verdict 0 false it.stream it.slot it.owner it.layer.station it.layer.layer it.epoch))] ∧
      (u.jct.intIn.getD 1 []).length = (s.jct.intIn.getD 1 []).length + 1 ∧
      (∃ r ∈ u.jct.intIn.getD 1 [], r.type = 6 ∧ r.ts = due ∧ r.station = it.layer.station ∧ r.own = some it.epoch)) ∧
  (∀ (s : State) (t id due : Nat) (it : WorkItem) (x : Sample), s.core = true → (s.track t).running = some id →
    itemById s id = some it → it.samples.find? (fun z => !z.done) = some x →
    ((∃ y ∈ it.samples, y.done = false ∧ y.num ≠ x.num) ∨ (s.wbr.owedSts = [] ∧ s.wtp.old = [])) →
    sampleFinished it x = true → heldVrd s < 4096 → it.due = some due → s.ttb.time ≤ due →
    Answers (.sampleSetCommit t .uncorrectable) s fun u =>
      u.jct.intIn = s.jct.intIn ∧ u.wtp.wdrCnt = (s.wtp.wdrCnt + 1) % 2 ^ 32 ∧ u.wtp.passCnt = s.wtp.passCnt ∧
      u.sbx.inbox = s.sbx.inbox ++ [received s (occ 7 5 t)]) ∧
  (∀ (s : State) (t id : Nat) (it : WorkItem) (x : Sample) (e : Ecc), (s.track t).running = some id →
    itemById s id = some it → it.samples.find? (fun z => !z.done) = some x → sampleFinished it x = false →
    exec (.sampleSetCommit t e) s = .next s)

/-- At its due time an item that has not committed commits LATE as a whole and leaves its track (R213); before any due
time nothing happens. -/
def Sys2Proof.Claims.DeadlineCommitsLate : Prop :=
  (∀ (s : State) (it : WorkItem), s.core = true → overdueItem s = some it → s.wbr.owedSts = [] → s.wtp.old = [] →
    s.wtp.lateCnt < 2 ^ 32 →
    Answers .verdictDeadline s fun u =>
      (∀ i ∈ u.wtp.items, i.id ≠ it.id) ∧
      u.wtp.lateCnt = (s.wtp.lateCnt + (it.samples.filter fun x => !x.done).length) % 2 ^ 32 ∧
      u.wtp.passCnt = s.wtp.passCnt ∧ u.wtp.incCnt = s.wtp.incCnt ∧
      (u.track it.track).running ≠ some it.id) ∧
  (∀ s : State, (∀ i ∈ s.wtp.items, ∀ d, i.due = some d → s.ttb.time < d) → exec .verdictDeadline s = .next s)

/-- PLAN_LOAD (R203, R204): on an idle slot the header of the image is read for the sender, and the command runs on; with
the free bit the slot is emptied; on a slot with work left it is deferred; a slot of another sender is not permitted.
A good image is stored with its owner once it has been read; a bad one, or one of a sender detached since, changes no
plan. -/
def Sys2Proof.Claims.PlanLoads : Prop :=
  (∀ (s : State) (w k : Nat) (pk : List Word), Issues 0x50 w pk s → bit (pk.getD 0 0) 27 = false →
    fld (pk.getD 0 0) 0 4 = k → mayNamePlan s w k = true → planBusy s k = false → bit (pk.getD 0 0) 26 = false →
    k < s.wtp.slots.length → (∀ h ∈ s.dsp.heldQ, h.unit ≠ unitPlan k) →
    Answers (.planLoad w) s fun t =>
      (planSlot t k).loading = true ∧ (planSlot t k).plan = (planSlot s k).plan ∧
      (t.win w).longs = (s.win w).longs + 1 ∧ (t.siding (s.win w).compl) = s.siding (s.win w).compl ∧
      t.mem.jobs = s.mem.jobs ++ [{
        id := s.mem.nextJob, cls := 3, owner := w, write := false, addr := fld (pk.getD 1 0) 0 48, len := 64, bytes := [],
        purpose := .plan (ticketOf w pk) k false, issued := 0, open_ := 0, got := [], err := 0, bad := 0 }]) ∧
  (∀ (s : State) (w k : Nat) (pk : List Word), Issues 0x50 w pk s → bit (pk.getD 0 0) 27 = false →
    fld (pk.getD 0 0) 0 4 = k → mayNamePlan s w k = true → planBusy s k = false → bit (pk.getD 0 0) 26 = true →
    Answers (.planLoad w) s fun t =>
      (k < s.wtp.slots.length → (planSlot t k).plan = none ∧ (planSlot t k).state = 0) ∧
      (∀ x ∈ t.wtp.windows, x.slot ≠ k) ∧ t.mem = s.mem) ∧
  (∀ (s : State) (w k : Nat) (pk : List Word), Issues 0x50 w pk s → bit (pk.getD 0 0) 27 = false →
    fld (pk.getD 0 0) 0 4 = k → mayNamePlan s w k = true → planBusy s k = true →
    exec (.planLoad w) s = .next (defer (unitPlan k) pk (ticketOf w pk) (taken w s))) ∧
  (∀ (s : State) (w k : Nat) (pk : List Word), Issues 0x50 w pk s → bit (pk.getD 0 0) 27 = false →
    fld (pk.getD 0 0) 0 4 = k → mayNamePlan s w k = false →
    exec (.planLoad w) s = .next (told w pk 3 0 0 (taken w s))) ∧
  (∀ (s : State) (w : Nat) (pk : List Word), Issues 0x50 w pk s → bit (pk.getD 0 0) 27 = true →
    (∀ k < 16, planFree s k = false) → exec (.planLoad w) s = .next (told w pk 4 0 0 (taken w s))) ∧
  (∀ (s : State) (b : List Byte) (p : Plan) (k : Nat) (t : Ticket), k < s.wtp.slots.length → parsePlan b = (0, some p) →
    planFits s k p.totalLen = true → senderGone t s = false →
    (planSlot (planRead t k b s) k).plan = some p ∧ (planSlot (planRead t k b s) k).owner = t.w ∧
    (planSlot (planRead t k b s) k).state = 1) ∧
  (∀ (s : State) (b : List Byte) (k : Nat) (t : Ticket), (parsePlan b).2 = none ∨ senderGone t s = true →
    (planRead t k b s).wtp = s.wtp)

/-- PLAN_ARM and PLAN_DISARM (R203, R204) of a loaded plan enter the pending generation and change nothing else; arming
needs the key of the plan's bundle and no armed plan that names a combination of it. -/
def Sys2Proof.Claims.PlanArms : Prop :=
  (∀ (s : State) (w k : Nat) (pk : List Word) (p : Plan), Issues 0x51 w pk s → fld (pk.getD 0 0) 0 4 = k →
    settledPlan s k = some p → mayNamePlan s w k = true → holdsKey s p.bundle = true → planClash s k p = false →
    exec (.planArm w) s = .next (told w pk 0 (p.planId * 256 + k) (beWord p.digest 0) { taken w s with
      dsp := { (taken w s).dsp with pending := s.dsp.pending ++ [.planArm k] } })) ∧
  (∀ (s : State) (w k : Nat) (pk : List Word) (p : Plan), Issues 0x51 w pk s → fld (pk.getD 0 0) 0 4 = k →
    settledPlan s k = some p → mayNamePlan s w k = true → holdsKey s p.bundle = false ∨ planClash s k p = true →
    exec (.planArm w) s = .next (told w pk 4 0 0 (taken w s))) ∧
  (∀ (s : State) (w k : Nat) (pk : List Word) (p : Plan), Issues 0x52 w pk s → fld (pk.getD 0 0) 0 4 = k →
    settledPlan s k = some p → mayNamePlan s w k = true →
    exec (.planDisarm w) s = .next (told w pk 0 k 0 { taken w s with
      dsp := { (taken w s).dsp with pending := s.dsp.pending ++ [.planDisarm k] } })) ∧
  (∀ (s : State) (w k : Nat) (pk : List Word), Issues 0x51 w pk s → fld (pk.getD 0 0) 0 4 = k → settledPlan s k = none →
    exec (.planArm w) s = .next (told w pk 4 0 0 (taken w s))) ∧
  (∀ (s : State) (w k : Nat) (pk : List Word), Issues 0x52 w pk s → fld (pk.getD 0 0) 0 4 = k → settledPlan s k = none →
    exec (.planDisarm w) s = .next (told w pk 4 0 0 (taken w s)))

/-- COVER_SET (Tables 10-7, 10-9): target within 1 to 1024, the floor at most the target and at least 1, the share
within 10 to 100; the clamped word enters the pending generation and is answered. -/
def Sys2Proof.Claims.CoverSet : Prop :=
  ∀ (s : State) (pk : List Word), Issues 0x53 16 pk s →
    let target := min 1024 (max 1 (fld (pk.getD 0 0) 16 11))
    let floor := min target (max 1 (fld (pk.getD 0 0) 0 11))
    let share := min 100 (max 10 (fld (pk.getD 1 0) 0 8))
    exec (.coverSet 16) s = .next (told 16 pk 0 (target * 65536 + floor) (BitVec.ofNat 64 share) { taken 16 s with
      dsp := { (taken 16 s).dsp with pending := s.dsp.pending ++
        [.cover (pack [(63, 1, fld (pk.getD 0 0) 31 1), (32, 11, target), (16, 11, floor), (0, 8, share)])] } })

/-! ## Pilot and Weighbridge -/

/-- At its ready time the next frame of a stream has its input (R228): complete, it is ready; incomplete, it is skipped
with a PLT record at its due time and the skip is counted. -/
def Sys2Proof.Claims.PilotReady : Prop :=
  (∀ (s : State) (i : Nat) (f : PFrame), s.core = true →
    s.plt.frames.find? (fun x => x.stream == i && x.track.isSome && !x.judged && !x.ready) = some f →
    f.tr ≤ s.ttb.time → opsBefore s (pStation f.word) f.tr = false → f.gone = false →
    (∀ o ∈ frameBeats s f, ∃ b ∈ f.beats, b.1 = o) →
    exec (.pilotReadyTime i) s = .next { s with plt := { s.plt with
      frames := s.plt.frames.map fun x => if x.id == f.id then { x with ready := true } else x } }) ∧
  (∀ (s : State) (i : Nat) (f : PFrame), s.core = true →
    s.plt.frames.find? (fun x => x.stream == i && x.track.isSome && !x.judged && !x.ready) = some f →
    f.tr ≤ s.ttb.time → opsBefore s (pStation f.word) f.tr = false → f.gone = true → 3 < s.jct.intIn.length →
    Answers (.pilotReadyTime i) s fun t =>
      t.plt.skInput = min 65535 (s.plt.skInput + 1) ∧ (∀ x ∈ t.plt.frames, x.id = f.id → x.judged = true) ∧
      (∃ r ∈ t.jct.intIn.getD 3 [], r.type = 10 ∧ r.ts = f.td) ∧
      t.sbx.inbox.length = s.sbx.inbox.length + 1 ∧ t.trk = s.trk ∧ t.wtp = s.wtp) ∧
  (∀ (s : State) (i : Nat) (f : PFrame),
    s.plt.frames.find? (fun x => x.stream == i && x.track.isSome && !x.judged && !x.ready) = some f →
    s.ttb.time < f.tr → exec (.pilotReadyTime i) s = .next s)

/-- A Pilot frame starts on its track only when its input is ready and the track has no check work (R12, R230); its chunks
are then read. While check work is ready it waits. -/
def Sys2Proof.Claims.PilotStarts : Prop :=
  (∀ (s : State) (t : Nat) (f : PFrame) (m : PModel), s.core = true → t < s.trk.length → firstFrame s t = some f →
    f.model = some m → (s.track t).state = 1 → checkReady s t = false → (s.track t).pilot = none → f.ready = true →
    (s.track t).katDue = false →
    Answers (.pilotFrameStart t) s fun u =>
      (u.track t).pilot = some f.id ∧ (∀ x ∈ u.plt.frames, x.id = f.id → x.running = true ∧ x.fetch = modelChunks m) ∧
      u.mem.jobs.length = s.mem.jobs.length + (modelChunks m).length ∧ s.mem.jobs <+: u.mem.jobs ∧
      u.wtp = s.wtp ∧ u.jct = s.jct ∧ u.sbx = s.sbx) ∧
  (∀ (s : State) (t : Nat), checkReady s t = true → exec (.pilotFrameStart t) s = .next s)

/-- The judgement of a finished frame (R235, R236): with no line to hear a host result on, the frame is judged at once as
one without a host result; with a line, it waits until the line is clear to 100 µs before the due time. -/
def Sys2Proof.Claims.PilotJudged : Prop :=
  (∀ (s : State) (i : Nat) (f : PFrame) (m : PModel), s.core = true →
    s.plt.frames.find? (fun x => x.stream == i && x.finished && !x.judged) = some f → f.model = some m →
    inMerge s (pResStation f.word) = false → 3 < s.jct.intIn.length →
    Answers (.pilotFrameJudge i) s fun t =>
      t.plt.judged = (s.plt.judged + 1) % 2 ^ 32 ∧ t.plt.noHost = (s.plt.noHost + 1) % 2 ^ 32 ∧
      t.plt.implaus = s.plt.implaus ∧ (∀ x ∈ t.plt.frames, x.id = f.id → x.judged = true) ∧
      (∃ r ∈ t.jct.intIn.getD 3 [], r.type = 10 ∧ r.ts = f.td) ∧ t.trk = s.trk ∧ t.wtp = s.wtp) ∧
  (∀ (s : State) (i : Nat) (f : PFrame) (m : PModel),
    s.plt.frames.find? (fun x => x.stream == i && x.finished && !x.judged) = some f → f.model = some m →
    inMerge s (pResStation f.word) = true → lineClearTo s (pResStation f.word) (f.td - 100000) = false →
    exec (.pilotFrameJudge i) s = .next s)

/-- A Pilot run that has not finished 100 µs before its due time is cut (R239): the overrun is counted and told as 9/4,
the frame is skipped, and its track is free of it. -/
def Sys2Proof.Claims.PilotOverruns : Prop :=
  ∀ (s : State) (i k : Nat) (f : PFrame), s.core = true →
    s.plt.frames.find? (fun x =>
      x.stream == i && x.track.isSome && !x.finished && !x.judged && decide (lastMoment x ≤ s.ttb.time)) = some f →
    f.track = some k → k < s.trk.length → (s.track k).pilot = some f.id → 3 < s.jct.intIn.length →
    Answers (.pilotOverrun i) s fun t =>
      (t.track k).pilot = none ∧ t.plt.overrun = min 65535 (s.plt.overrun + 1) ∧
      t.plt.skOther = min 65535 (s.plt.skOther + 1) ∧ (∀ x ∈ t.plt.frames, x.id = f.id → x.judged = true) ∧
      received s (occ 9 4 f.stream (f.frame * 2 ^ 32)) ∈ t.sbx.inbox ∧
      (∃ r ∈ t.jct.intIn.getD 3 [], r.type = 10 ∧ r.ts = f.td)

/-- The statistics of an ended epoch close at T + 1 ms (R247): its entries' measures are gone, every enabled entry has its
alarms as R249 evaluates them, whether it makes a record or not, and the runs of one that makes none end. Before that time nothing happens. -/
def Sys2Proof.Claims.StatisticsClose : Prop :=
  (∀ (s : State) (c : StatsEnd) (r : List StatsEnd), s.core = true → s.wbr.toClose = c :: r → c.closeAt ≤ s.ttb.time →
    Answers .statisticsClose s fun t =>
      t.wbr.toClose = r ∧ t.wbr.meas = s.wbr.meas.filter (fun m => m.epoch != c.epoch) ∧
      t.wbr.sel = s.wbr.sel ∧ t.wbr.q = s.wbr.q ∧
      (∀ i < 64, entryReports c i = false → t.wbr.runSat.getD i 0 = 0 ∧ t.wbr.runUnder.getD i 0 = 0) ∧
      (∀ i < 64, bit (c.sel.getD i 0) 63 = false → t.wbr.sat.getLsbD i = false ∧ t.wbr.under.getLsbD i = false) ∧
      (∀ i < 64, bit (c.sel.getD i 0) 63 = true →
        let m := (s.wbr.meas.find? fun m => m.entry == i && m.epoch == c.epoch).getD (Meas.empty i c.epoch)
        t.wbr.sat.getLsbD i = satAlarm (c.q.getD i 0) m ∧ t.wbr.under.getLsbD i = underAlarm (c.q.getD i 0) m)) ∧
  (∀ (s : State) (c : StatsEnd) (r : List StatsEnd), s.wbr.toClose = c :: r → s.ttb.time < c.closeAt →
    exec .statisticsClose s = .next s)

/-- PLT_LOAD (R240, R241) reads the header of chunk 0 into an idle model slot of the sender, PLT_ZONES the head of a zone
table for a stream of the sender; both run on. A model slot or stream of another sender is not permitted. -/
def Sys2Proof.Claims.PilotLoads : Prop :=
  (∀ (s : State) (w k : Nat) (pk : List Word), Issues 0x60 w pk s → fld (pk.getD 0 0) 0 2 = k →
    mayNameModel s w k = true → modelBusy s k = false → bit (pk.getD 0 0) 26 = false → k < s.plt.models.length →
    (∀ h ∈ s.dsp.heldQ, h.unit ≠ unitModel k) →
    Answers (.pltLoad w) s fun t =>
      (modelSlot t k).loading = true ∧ (modelSlot t k).model = (modelSlot s k).model ∧
      (t.win w).longs = (s.win w).longs + 1 ∧
      t.mem.jobs = s.mem.jobs ++ [{
        id := s.mem.nextJob, cls := 3, owner := w, write := false, addr := fld (pk.getD 1 0) 0 48, len := 32, bytes := [],
        purpose := .model (ticketOf w pk) k false, issued := 0, open_ := 0, got := [], err := 0, bad := 0 }]) ∧
  (∀ (s : State) (w k : Nat) (pk : List Word), Issues 0x60 w pk s → fld (pk.getD 0 0) 0 2 = k →
    mayNameModel s w k = false → exec (.pltLoad w) s = .next (told w pk 3 0 0 (taken w s))) ∧
  (∀ (s : State) (w i : Nat) (pk : List Word), Issues 0x61 w pk s → fld (pk.getD 0 0) 0 4 = i →
    mayNameStream s w i = true →
    Answers (.pltZones w) s fun t =>
      (t.win w).longs = (s.win w).longs + 1 ∧ t.plt = s.plt ∧
      t.mem.jobs = s.mem.jobs ++ [{
        id := s.mem.nextJob, cls := 3, owner := w, write := false, addr := fld (pk.getD 1 0) 0 48, len := 16, bytes := [],
        purpose := .zones (ticketOf w pk) i, issued := 0, open_ := 0, got := [], err := 0, bad := 0 }]) ∧
  (∀ (s : State) (w i : Nat) (pk : List Word), Issues 0x61 w pk s → fld (pk.getD 0 0) 0 4 = i →
    mayNameStream s w i = false → exec (.pltZones w) s = .next (told w pk 3 0 0 (taken w s)))

/-- PLT_ARM (R240, R241, Table 12-8) of a tenant: with a model in the slot the clamped word enters the pending generation
with its owner and is answered, whether it arms or disarms; without a model there is no resource, and a stream or a model slot
of another sender is not permitted. Root's also writes the due margin. -/
def Sys2Proof.Claims.PilotArms : Prop :=
  (∀ (s : State) (w i : Nat) (pk : List Word), Issues 0x62 w pk s → w < 16 → fld (pk.getD 0 0) 0 4 = i →
    let word := clampStream (fld (pk.getD 0 0) 31 1) (pk.getD 1 0)
    mayNameStream s w i = true → mayNameModel s w (fld word 61 2) = true → (modelSlot s (fld word 61 2)).model ≠ none →
    exec (.pltArm w) s = .next (told w pk 0 i word { taken w s with
      dsp := { (taken w s).dsp with pending := s.dsp.pending ++ [.pltStream i word w] } })) ∧
  (∀ (s : State) (i : Nat) (pk : List Word), Issues 0x62 16 pk s → fld (pk.getD 0 0) 0 4 = i →
    let word := clampStream (fld (pk.getD 0 0) 31 1) (pk.getD 1 0)
    (modelSlot s (fld word 61 2)).model ≠ none →
    exec (.pltArm 16) s = .next (told 16 pk 0 i word { taken 16 s with
      dsp := { (taken 16 s).dsp with
        pending := s.dsp.pending ++ [.pltStream i word 16, .pltDue (min 100 (max 2 (fld (pk.getD 2 0) 0 8)))] } })) ∧
  (∀ (s : State) (w : Nat) (pk : List Word), Issues 0x62 w pk s →
    let word := clampStream (fld (pk.getD 0 0) 31 1) (pk.getD 1 0)
    mayNameStream s w (fld (pk.getD 0 0) 0 4) = true → mayNameModel s w (fld word 61 2) = true →
    (modelSlot s (fld word 61 2)).model = none →
    exec (.pltArm w) s = .next (told w pk 4 0 0 (taken w s))) ∧
  (∀ (s : State) (w : Nat) (pk : List Word), Issues 0x62 w pk s →
    let word := clampStream (fld (pk.getD 0 0) 31 1) (pk.getD 1 0)
    mayNameStream s w (fld (pk.getD 0 0) 0 4) = false ∨ mayNameModel s w (fld word 61 2) = false →
    exec (.pltArm w) s = .next (told w pk 3 0 0 (taken w s)))

/-- WBR_CONFIG (R251): both clamped words of the entry enter the pending generation, with en 0 too; a tenant needs the
context, and no other enabled entry may weigh the same station, window and context. -/
def Sys2Proof.Claims.WeighbridgeConfig : Prop :=
  (∀ (s : State) (w i : Nat) (pk : List Word), Issues 0x70 w pk s → bit (pk.getD 0 0) 6 = false →
    fld (pk.getD 0 0) 0 6 = i → mayNameEntry s w i = true →
    (w < 16 → s.ctxOwner (fld (pk.getD 1 0) 49 5) = w) → w ≤ 16 →
    let sel := clampSel (bit (pk.getD 0 0) 31) w (pk.getD 1 0)
    bit (pk.getD 0 0) 31 = false ∨ entryClash s i sel = false →
    exec (.wbrConfig w) s = .next (told w pk 0 i sel { taken w s with
      dsp := { (taken w s).dsp with pending := s.dsp.pending ++ [.wbrSel i sel, .wbrQ i (clampQ sel (pk.getD 2 0))] } })) ∧
  (∀ (s : State) (w i : Nat) (pk : List Word), Issues 0x70 w pk s → bit (pk.getD 0 0) 6 = false →
    fld (pk.getD 0 0) 0 6 = i → bit (pk.getD 0 0) 31 = true → mayNameEntry s w i = true →
    (w < 16 → s.ctxOwner (fld (pk.getD 1 0) 49 5) = w) → w ≤ 16 →
    entryClash s i (clampSel true w (pk.getD 1 0)) = true →
    exec (.wbrConfig w) s = .next (told w pk 4 0 0 (taken w s))) ∧
  (∀ (s : State) (w i : Nat) (pk : List Word), Issues 0x70 w pk s → bit (pk.getD 0 0) 6 = false →
    fld (pk.getD 0 0) 0 6 = i → mayNameEntry s w i = false →
    exec (.wbrConfig w) s = .next (told w pk 3 0 0 (taken w s))) ∧
  (∀ (s : State) (w i : Nat) (pk : List Word), Issues 0x70 w pk s → w < 16 → bit (pk.getD 0 0) 6 = false →
    fld (pk.getD 0 0) 0 6 = i → mayNameEntry s w i = true →
    s.ctxOwner (fld (pk.getD 1 0) 49 5) ≠ w →
    exec (.wbrConfig w) s = .next (told w pk 3 0 0 (taken w s)))

/-! ## Signal Box and Dispatcher -/

/-- An occurrence with no configured reaction row of its own: a fault source of class `cls`. -/
abbrev Sys2Proof.Claims.faultSource (cls : Nat) (o : Occurrence) : Prop :=
  o.cls = cls ∧ o.outcome = false ∧ o.forced = false ∧ o.injected = false

/-- A C occurrence (R300) makes no record: it is counted for its subsystem with its epoch, and C is in force from now. -/
def Sys2Proof.Claims.CorrectedCounted : Prop :=
  ∀ (s : State) (o : Occurrence) (r : List Occurrence), s.core = true → s.sbx.inbox = o :: r → faultSource 1 o →
    s.dsp.boot.state ≠ 2 →
    Answers .sbxOccurrenceReceive s fun t =>
      t.sbx.inbox = r ∧ t.sbx.recs = s.sbx.recs ∧
      t.sbx.ccount = s.sbx.ccount.modify o.sub (fun n => (n + 1) % 2 ^ 32) ∧
      t.sbx.cepoch = s.sbx.cepoch.set o.sub (s.epochAt o.time) ∧ t.sbx.cAt = some s.ttb.time ∧
      t.sbx.state = s.sbx.state ∧ t.sbx.escTimes = s.sbx.escTimes

/-- A U occurrence (R302, R305): one that repeats a record in force counts there and makes no record; one of the subsystem
and engine of a record in handling, or that arises in its containment, merges into it; one that meets no record takes the lowest free slot with its cause, detail, epoch and detection time. Other records stay. It is counted
toward escalation. -/
def Sys2Proof.Claims.FaultRecorded : Prop :=
  (∀ (s : State) (o : Occurrence) (r : List Occurrence) (k : Nat), s.core = true → s.sbx.inbox = o :: r → faultSource 2 o →
    s.dsp.boot.state ≠ 2 → (reactionOf s o).cls = 2 → s.sbx.escTimes.length < escCount s → s.sbx.recs.length = 32 →
    (∀ j < 32, (s.frec j).valid = true → (s.frec j).sub = o.sub → (s.frec j).engine = o.engine →
      (s.frec j).cause = o.cause → (s.frec j).inForce = false) →
    (∀ j < 32, (s.frec j).valid = true → ((s.frec j).sub, (s.frec j).engine) = (o.sub, o.engine) ∨
      some ((s.frec j).sub, (s.frec j).engine) = o.arises → (s.frec j).handling < o.time) →
    (List.range 32).find? (fun j => !(s.frec j).valid) = some k →
    Answers .sbxOccurrenceReceive s fun t =>
      t.sbx.inbox = r ∧ (t.frec k).valid = true ∧ (t.frec k).inForce = true ∧ (t.frec k).cls = 2 ∧
      (t.frec k).sub = o.sub ∧ (t.frec k).cause = o.cause ∧ (t.frec k).engine = o.engine ∧
      (t.frec k).detail = o.detail ∧ (t.frec k).detect = o.time ∧ (t.frec k).epoch = s.epochAt o.time ∧
      (t.frec k).repeats = 0 ∧ (∀ j, j ≠ k → t.frec j = s.frec j) ∧ t.sbx.escTimes.head? = some o.time) ∧
  (∀ (s : State) (o : Occurrence) (r : List Occurrence) (k : Nat), s.core = true → s.sbx.inbox = o :: r → faultSource 2 o →
    s.dsp.boot.state ≠ 2 → (reactionOf s o).cls = 2 → s.sbx.escTimes.length < escCount s → s.sbx.recs.length = 32 →
    (List.range 32).find? (fun j => (s.frec j).valid && (s.frec j).inForce && (s.frec j).sub == o.sub &&
      (s.frec j).cause == o.cause && (s.frec j).engine == o.engine) = some k →
    Answers .sbxOccurrenceReceive s fun t =>
      t.sbx.inbox = r ∧ (t.frec k).repeats = min 65535 ((s.frec k).repeats + 1) ∧ (t.frec k).lastTime = o.time ∧
      (t.frec k).detect = (s.frec k).detect ∧ (t.frec k).detail = (s.frec k).detail ∧
      (∀ j, j ≠ k → t.frec j = s.frec j) ∧ t.sbx.mergeTotal = s.sbx.mergeTotal) ∧
  (∀ (s : State) (o : Occurrence) (r : List Occurrence) (k : Nat), s.core = true → s.sbx.inbox = o :: r → faultSource 2 o →
    s.dsp.boot.state ≠ 2 → (reactionOf s o).cls = 2 → s.sbx.escTimes.length < escCount s → s.sbx.recs.length = 32 →
    (∀ j < 32, (s.frec j).valid = true → (s.frec j).sub = o.sub → (s.frec j).engine = o.engine →
      (s.frec j).cause = o.cause → (s.frec j).inForce = false) →
    (List.range 32).find? (fun j => (s.frec j).valid && decide (o.time ≤ (s.frec j).handling) &&
      (((s.frec j).sub, (s.frec j).engine) == (o.sub, o.engine) ||
        some ((s.frec j).sub, (s.frec j).engine) == o.arises)) = some k →
    Answers .sbxOccurrenceReceive s fun t =>
      t.sbx.inbox = r ∧ (t.frec k).merges = min 65535 ((s.frec k).merges + 1) ∧ (t.frec k).detail = (s.frec k).detail ∧
      (t.frec k).repeats = (s.frec k).repeats ∧ (∀ j, j ≠ k → t.frec j = s.frec j) ∧
      t.sbx.mergeTotal = min 65535 (s.sbx.mergeTotal + 1))

/-- Escalation (R311, R315): a counted U occurrence whose esc_count-th predecessor lies within the window, and every F
occurrence, end in the fatal state: once epochs run the Conductor cores halt and take-over begins, every sample set of a
work item has committed, and no Pilot frame is left unjudged. An F occurrence in the fatal state halts the cores too. -/
def Sys2Proof.Claims.FatalState : Prop :=
  (∀ (s : State) (o : Occurrence) (r : List Occurrence), s.core = true → s.sbx.inbox = o :: r → faultSource 3 o →
    s.dsp.boot.state ≠ 2 → s.sbx.state ≠ 3 →
    Answers .sbxOccurrenceReceive s fun t =>
      t.sbx.state = 3 ∧ (s.ttb.running = true → t.dsp.halted = true ∧ t.dsp.takeover = true ∧ t.tkl.auto = true) ∧
      (∀ i ∈ t.wtp.items, ∀ x ∈ i.samples, x.done = true) ∧ (∀ f ∈ t.plt.frames, f.judged = true)) ∧
  (∀ (s : State) (o : Occurrence) (r : List Occurrence) (t0 : Nat), s.core = true → s.sbx.inbox = o :: r →
    faultSource 2 o → s.dsp.boot.state ≠ 2 → (reactionOf s o).cls = 2 → s.sbx.escTimes[escCount s - 1]? = some t0 →
    o.time ≤ t0 + escWindow s → s.sbx.state ≠ 3 →
    Answers .sbxOccurrenceReceive s fun t => t.sbx.state = 3) ∧
  (∀ (s : State) (o : Occurrence) (r : List Occurrence), s.core = true → s.sbx.inbox = o :: r → faultSource 3 o →
    s.dsp.boot.state ≠ 2 → s.ttb.running = true →
    Answers .sbxOccurrenceReceive s fun t => t.dsp.halted = true ∧ t.dsp.takeover = true ∧ t.tkl.auto = true) ∧
  (∀ s : State, s.core = true → s.dsp.boot.state ≠ 2 →
    Answers .sbxSelfCheckMiscompare s fun t => t.sbx.state = 3)

/-- The outputs follow Table 16-5: FAULT_CLASS moves toward the class in force, SAFE_REQ is driven in the fatal state, in
the forced safe state and by every record in force that asks for it, and DEGRADE joins those of the records in force. -/
abbrev Sys2Proof.Claims.outputsFollow (s : State) : Prop :=
  s.sbx.taken = true →
    let on := s.sbx.recs.filter fun r => r.valid && r.inForce
    s.sbx.safeReq = (s.sbx.state == 3 || s.sbx.forced || on.any (·.safe)) ∧
    s.sbx.degrade = on.foldl (fun a r => a ||| r.degrade) 0 ∧
    s.sbx.fcTarget = (if s.sbx.state = 3 then 3 else if on.any (fun r => r.cls == 2) then 2
      else if s.sbx.cAt.isSome then 1 else 0)

/-- Whatever the Signal Box receives, clears, configures or times out, its outputs follow Table 16-5 afterwards (R308). -/
def Sys2Proof.Claims.OutputsStayRight : Prop :=
  ∀ (s t : State) (c : Instr) (slot w : Nat),
    c ∈ [.sbxOccurrenceReceive, .sbxSelfCheckMiscompare, .quietPeriodExpire slot, .cQuietExpire,
      .faultClassIntermediateEnd, .heartbeatToggle, .sbxClear w, .sbxConfig w, .sbxReadrec w, .reactSet w, .inject w] →
    outputsFollow s → exec c s = .next t → outputsFollow t

/-- FAULT_CLASS never changes both of its bits at once (R309). -/
def Sys2Proof.Claims.OneBitAtATime : Prop :=
  ∀ (s t : State) (c : Instr) (slot w : Nat),
    c ∈ [.sbxOccurrenceReceive, .sbxSelfCheckMiscompare, .quietPeriodExpire slot, .cQuietExpire,
      .faultClassIntermediateEnd, .heartbeatToggle, .sbxClear w, .sbxConfig w, .sbxReadrec w, .reactSet w, .inject w] →
    s.sbx.faultClass < 4 → s.sbx.fcTarget < 4 → exec c s = .next t →
    ¬ (s.sbx.faultClass % 2 ≠ t.sbx.faultClass % 2 ∧ s.sbx.faultClass / 2 % 2 ≠ t.sbx.faultClass / 2 % 2)

/-- Timed events of the outputs: FAULT_CLASS leaves its intermediate value for its target, 50 ns after its last change
at the earliest (R49, R309), HEARTBEAT changes level
once a multiple of its period has passed (R310), a U record in force that is neither latched nor forced leaves force
after quiet_ms without an update (R312), and C leaves force so too (R300). -/
def Sys2Proof.Claims.OutputTimers : Prop :=
  (∀ s : State, s.core = true → s.sbx.fcMid = true →
    bothBits s.sbx.faultClass s.sbx.fcTarget = false → (∀ a, s.sbx.fcAt = some a → a + 50 ≤ s.ttb.time) →
    s.sbx.faultClass ≠ s.sbx.fcTarget →
    exec .faultClassIntermediateEnd s = .next { s with sbx := { s.sbx with
      fcMid := false, faultClass := s.sbx.fcTarget, fcAt := some s.ttb.time } }) ∧
  (∀ (s : State) (a : Nat), s.sbx.fcAt = some a → s.ttb.time < a + 50 → exec .faultClassIntermediateEnd s = .next s) ∧
  (∀ s : State, s.core = true → s.sbx.taken = true → s.sbx.state = 1 →
    s.sbx.hbLast / hbPeriodNs s.sbx.cfg < s.ttb.time / hbPeriodNs s.sbx.cfg →
    exec .heartbeatToggle s = .next { s with sbx := { s.sbx with
      heartbeat := !s.sbx.heartbeat, hbLast := s.ttb.time } }) ∧
  (∀ s : State, s.ttb.time / hbPeriodNs s.sbx.cfg ≤ s.sbx.hbLast / hbPeriodNs s.sbx.cfg ∨ s.sbx.state ≠ 1 →
    exec .heartbeatToggle s = .next s) ∧
  (∀ (s : State) (k : Nat), s.core = true → (s.frec k).valid = true → (s.frec k).inForce = true →
    (s.frec k).cls = 2 → (s.frec k).latched = false → (s.frec k).forced = false → k < s.sbx.recs.length →
    (s.frec k).lastTime + fld s.sbx.cfg 24 12 * 1000000 ≤ s.ttb.time →
    Answers (.quietPeriodExpire k) s fun t =>
      t.frec k = { s.frec k with inForce := false, exitTime := s.ttb.time } ∧
      (∀ j, j ≠ k → t.frec j = s.frec j) ∧ t.sbx.recovery = min 65535 (s.sbx.recovery + 1)) ∧
  (∀ (s : State) (k : Nat), ((s.frec k).cls ≠ 2 ∨ (s.frec k).latched = true ∨ (s.frec k).forced = true ∨
      s.ttb.time < (s.frec k).lastTime + fld s.sbx.cfg 24 12 * 1000000) →
    exec (.quietPeriodExpire k) s = .next s) ∧
  (∀ (s : State) (t0 : Nat), s.core = true → s.sbx.cAt = some t0 →
    t0 + fld s.sbx.cfg 24 12 * 1000000 ≤ s.ttb.time →
    Answers .cQuietExpire s fun t => t.sbx.cAt = none ∧ t.sbx.recs = s.sbx.recs)

/-- Fault sources of the Conductor (R7, R304): a watchdog not kicked and a lockstep miscompare of a pair are told as 12/2
and 12/1; halted cores have none. That a pair's last kick is its start or its last expiry is the model's choice (log 133). -/
def Sys2Proof.Claims.ConductorFaults : Prop :=
  (∀ (s : State) (p : Nat), s.core = true → s.dsp.coresRun = true → s.dsp.halted = false → p < 2 →
    s.dsp.kickAt.getD p 0 + 4000000 ≤ s.ttb.time →
    exec (.conductorWatchdogExpire p) s = .next { s with
      dsp := { s.dsp with kickAt := s.dsp.kickAt.set p s.ttb.time },
      sbx := { s.sbx with inbox := s.sbx.inbox ++ [received s (occ 12 2 p)] } }) ∧
  (∀ (s : State) (p : Nat), s.ttb.time < s.dsp.kickAt.getD p 0 + 4000000 →
    exec (.conductorWatchdogExpire p) s = .next s) ∧
  (∀ (s : State) (p : Nat), s.core = true → s.dsp.coresRun = true → s.dsp.halted = false → p < 2 →
    exec (.lockstepMiscompare p) s = .next { s with sbx := { s.sbx with
      inbox := s.sbx.inbox ++ [received s (occ 12 1 p)] } }) ∧
  (∀ (s : State) (p : Nat), s.dsp.halted = true →
    exec (.conductorWatchdogExpire p) s = .next s ∧ exec (.lockstepMiscompare p) s = .next s)

/-- SBX_CONFIG and REACT_SET take their clamped words at once and answer them (R307, R310); SBX_READREC answers W0 and W1
of the record, or writes all eight words where an address is given (R306); a row that does not exist changes nothing. -/
def Sys2Proof.Claims.SignalBoxCommands : Prop :=
  (∀ (s : State) (pk : List Word), Issues 0x90 16 pk s →
    fld (clampSbxCfg (pk.getD 1 0)) 16 6 = fld s.sbx.cfg 16 6 →
    exec (.sbxConfig 16) s = .next (told 16 pk 0 0 (clampSbxCfg (pk.getD 1 0)) { taken 16 s with
      sbx := { s.sbx with cfg := clampSbxCfg (pk.getD 1 0) } })) ∧
  (∀ (s : State) (pk : List Word), Issues 0x90 16 pk s →
    fld (clampSbxCfg (pk.getD 1 0)) 16 6 ≠ fld s.sbx.cfg 16 6 →
    exec (.sbxConfig 16) s = .next (told 16 pk 0 0 (clampSbxCfg (pk.getD 1 0)) { taken 16 s with
      sbx := { s.sbx with cfg := clampSbxCfg (pk.getD 1 0), hbLast := s.ttb.time } })) ∧
  (∀ (s : State) (pk : List Word) (row : Nat), Issues 0x93 16 pk s → fld (pk.getD 0 0) 0 8 = row → row < 0x8F →
    exec (.reactSet 16) s = .next (told 16 pk 0 row (clampReact (pk.getD 1 0)) { taken 16 s with
      sbx := { s.sbx with react := s.sbx.react.set row (clampReact (pk.getD 1 0)) } })) ∧
  (∀ (s : State) (pk : List Word), Issues 0x93 16 pk s → 0x8F ≤ fld (pk.getD 0 0) 0 8 →
    exec (.reactSet 16) s = .next (told 16 pk 0 (fld (pk.getD 0 0) 0 8) 0 (taken 16 s))) ∧
  (∀ (s : State) (pk : List Word) (k : Nat), Issues 0x91 16 pk s → fld (pk.getD 0 0) 0 5 = k →
    fld (pk.getD 1 0) 0 48 = 0 →
    exec (.sbxReadrec 16) s = .next (told 16 pk 0 (fld (frecWord k (s.frec k) 0) 0 32)
      (BitVec.ofNat 64 (s.frec k).detect) (taken 16 s))) ∧
  (∀ (s : State) (pk : List Word) (k : Nat), Issues 0x91 16 pk s → fld (pk.getD 0 0) 0 5 = k →
    fld (pk.getD 1 0) 0 48 ≠ 0 →
    Answers (.sbxReadrec 16) s fun t =>
      (t.win 16).longs = (s.win 16).longs + 1 ∧ t.sbx = s.sbx ∧
      ∃ j, t.mem.jobs = s.mem.jobs ++ [j] ∧ j.write = true ∧ j.addr = fld (pk.getD 1 0) 0 48 ∧ j.len = 64 ∧
        j.bytes = wordsBytes ((List.range 8).map (frecWord k (s.frec k))))

/-- SBX_CLEAR (R313) frees one slot, or every slot when all is 1: the reaction of a record in force ends at once and
recovery_count does not advance; the forced record is neither cleared nor counted while the forced safe state holds. -/
def Obligations.RecordsCleared : Prop :=
  ∀ (s : State) (pk : List Word), Issues 0x92 16 pk s → s.sbx.recs.length = 32 →
    let freed := fun k => (bit (pk.getD 0 0) 31 || decide (fld (pk.getD 0 0) 0 5 = k)) && (s.frec k).valid &&
      !((s.frec k).forced && s.sbx.forced)
    ∃ u, exec (.sbxClear 16) s = .next (told 16 pk 0 ((List.range 32).filter freed).length 0 u) ∧
      (∀ k < 32, freed k = true → u.frec k = FRec.reset) ∧ (∀ k, freed k = false → u.frec k = s.frec k) ∧
      outputsFollow u ∧ u.sbx.recovery = s.sbx.recovery ∧ u.sbx.state = s.sbx.state ∧
      u = { taken 16 s with sbx := u.sbx }

/-- INJECT (R316) delivers one occurrence, which is counted; of class C it makes no record, and an undefined
code stands as cause 0x0F of subsystem 12. -/
def Sys2Proof.Claims.Injection : Prop :=
  (∀ (s : State) (pk : List Word), Issues 0xB0 16 pk s → s.dsp.boot.state ≠ 2 →
    Answers (.inject 16) s fun t => t.sbx.injected = (s.sbx.injected + 1) % 2 ^ 32) ∧
  (∀ (s : State) (pk : List Word), Issues 0xB0 16 pk s → s.dsp.boot.state ≠ 2 →
    causeClass (fld (pk.getD 0 0) 24 6) (fld (pk.getD 0 0) 16 8) = some 1 → fld (pk.getD 0 0) 30 2 ≤ 1 →
    Answers (.inject 16) s fun t =>
      t.sbx.recs = s.sbx.recs ∧ t.sbx.inbox = s.sbx.inbox ∧ t.sbx.state = s.sbx.state ∧
      t.sbx.cAt = some s.ttb.time ∧ t.trk = s.trk) ∧
  (∀ sub cause : Nat, causeClass sub cause = none → injectCause sub cause = (12, 0x0F)) ∧
  (∀ sub cause : Nat, causeClass sub cause ≠ none → injectCause sub cause = (sub, cause))

/-- SELFTEST (Table 14-8) runs on, and each part that passed is a bit of its result; it is DONE exactly when every part of
its scope has passed. -/
def Sys2Proof.Claims.SelftestRuns : Prop :=
  (∀ (s : State) (pk : List Word), Issues 0xB1 16 pk s →
    Answers (.selftest 16) s fun t =>
      t.dsp.selftests = s.dsp.selftests ++ [(ticketOf 16 pk, fld (pk.getD 0 0) 0 3)] ∧
      (t.win 16).longs = (s.win 16).longs + 1 ∧ t.sbx = s.sbx ∧ t.ilk = s.ilk) ∧
  (∀ (s : State) (k : Ticket) (r : List (Ticket × Nat)) (raw : BitVec 1024) (h : Bool), s.core = true →
    s.dsp.selftests = (k, 1) :: r →
    exec (.selftestDone h 15 raw) s = .next (({ s with
      dsp := { s.dsp with selftests := r },
      sbx := if h then s.sbx else { s.sbx with
        inbox := s.sbx.inbox ++ [received s (occ 12 5 0)] } } : State).finish k
      (if h then 0 else 7) (if h then 1 else 0) 0)) ∧
  (∀ (s : State) (h : Bool) (d : BitVec 4) (raw : BitVec 1024), s.dsp.selftests = [] →
    exec (.selftestDone h d raw) s = .next s)

/-- A held write is applied when its unit is idle, and its final completion carries the results (R267): a held SDG_CREATE
that frees its siding leaves it free and is told DONE. While the unit is busy the write waits. -/
def Sys2Proof.Claims.HeldWriteApplies : Prop :=
  (∀ (s : State) (k : Nat) (h : HeldQ) (r : List HeldQ), s.core = true → k < 256 →
    takeFirst (fun h : HeldQ => h.unit == k) s.dsp.heldQ = some (h, r) → sidingIdle (s.siding k) = true →
    (s.siding k).producer ≠ 2 → bit (h.words.getD 0 0) 4 = true → k ≠ (s.win h.ticket.w).compl →
    h.ticket.later = true →
    Answers (.qWriteApply k) s fun t => t.siding k = Siding.reset) ∧
  (∀ (s : State) (k : Nat) (h : HeldQ) (r : List HeldQ),
    takeFirst (fun h : HeldQ => h.unit == k) s.dsp.heldQ = some (h, r) → unitIdle s k = false →
    exec (.qWriteApply k) s = .next s) ∧
  (∀ (s : State) (k : Nat), (∀ h ∈ s.dsp.heldQ, h.unit ≠ k) → exec (.qWriteApply k) s = .next s)

/-! ## Token line -/

/-- An addressed frame with the code `op` reaches this instance, which has no request running (R351, R352). -/
abbrev Sys2Proof.Claims.addressed (op : Nat) (f : TklFrame) (s : State) : Prop :=
  accepts s f = true ∧ f.op.toNat = op ∧ f.bcast = false ∧ s.tkl.busy = none

/-- The instance has heard an accepted addressed frame. -/
def Sys2Proof.Claims.heard (s : State) : State := { s with tkl := { s.tkl with lastAt := s.ttb.time } }

/-- The frame carries the reply to the request before, and the reply to this one is ready for the next frame (R352); `u`
is the state that the request leaves. -/
def Sys2Proof.Claims.replied (f : TklFrame) (status : Nat) (rdata : Word) (before : Option TklReply) (u : State) : State :=
  { u with tkl := { u.tkl with
    out := some (match before with | some r => replyTo f r | none => f),
    reply := some { seq := f.seq.toNat, status := status, rdata := rdata } } }

/-- A frame that the instance does not accept goes on unchanged (R349, R350, R351, R360): a wrong CRC and a wrong version
are counted, and a frame for another instance changes nothing else; an accepted frame with an undefined code is answered
UNKNOWN_OP. -/
def Sys2Proof.Claims.FramesForwarded : Prop :=
  (∀ (s : State) (f : TklFrame), tklUp s = true → crcOk f = false →
    exec (.tklFrameForward f) s = .next { s with tkl := { s.tkl with
      out := some f, crcErr := min 65535 (s.tkl.crcErr + 1) } }) ∧
  (∀ (s : State) (f : TklFrame), tklUp s = true → crcOk f = true → verOk s f = false →
    exec (.tklFrameForward f) s = .next { s with tkl := { s.tkl with
      out := some f, verRej := min 65535 (s.tkl.verRej + 1) } }) ∧
  (∀ (s : State) (f : TklFrame), tklUp s = true → crcOk f = true → verOk s f = true → toUs s f = false → f.bcast = false →
    exec (.tklFrameForward f) s = .next { s with tkl := { s.tkl with out := some f } }) ∧
  (∀ (s : State) (f : TklFrame) (op : Nat), addressed op f s → op ∉ tklOps →
    exec (.tklFrameForward f) s = .next (replied f 2 0 s.tkl.reply (heard s)))

/-- ENUM (R353) gives its address to the instance that has none and holds the token, and every other instance passes it on;
SETVER (R360) sets the operating version, clamped to 1-2, also by broadcast; NOP answers the status. -/
def Sys2Proof.Claims.TokenLineAddressing : Prop :=
  (∀ (s : State) (f : TklFrame), tklUp s = true → f.op.toNat = 1 → crcOk f = true → verOk s f = true →
    f.bcast = false → s.tkl.addrValid = false →
    exec (.tklEnum f true) s = .next { s with tkl := { s.tkl with
      addrValid := true, addr := f.dst.toNat, out := some f, lastAt := s.ttb.time,
      reply := some { seq := f.seq.toNat, status := 0, rdata := enumReply } } }) ∧
  (∀ (s : State) (f : TklFrame) (token : Bool), tklUp s = true → f.op.toNat = 1 → crcOk f = true → verOk s f = true →
    s.tkl.addrValid = true ∨ token = false →
    exec (.tklEnum f token) s = .next { s with tkl := { s.tkl with out := some f } }) ∧
  (∀ (s : State) (f : TklFrame), addressed 0xE f s →
    exec (.tklSetver f) s = .next (replied f 0 (BitVec.ofNat 64 (max 1 (min 2 (f.arg.toNat % 8)))) s.tkl.reply
      { heard s with tkl := { (heard s).tkl with verOp := max 1 (min 2 (f.arg.toNat % 8)) } })) ∧
  (∀ (s : State) (f : TklFrame), accepts s f = true → f.op.toNat = 0xE → f.bcast = true →
    exec (.tklSetver f) s = .next { s with tkl := { s.tkl with
      verOp := max 1 (min 2 (f.arg.toNat % 8)), out := some f } }) ∧
  (∀ (s : State) (f : TklFrame), addressed 0 f s →
    exec (.tklNop f) s = .next (replied f 0 (tklStatus (heard s)) s.tkl.reply (heard s)))

/-- Observe (R354): READ answers the word of the register window as the register port would read it and changes nothing
of the block where the word's check is right; READ_CNT answers a counter without a permission check, and an even one latches its odd word, which
READ_CNT_HI answers in version 2. -/
def Sys2Proof.Claims.TokenLineObserves : Prop :=
  (∀ (s : State) (f : TklFrame), addressed 2 f s → s.core = true →
    exec (.tklRead ⟨f, .ok⟩) s = .next (replied f 0 (readReg (heard s) (fld f.wdata 0 6) (f.arg.toNat / 8 % 2 ^ 19 * 8))
      s.tkl.reply (heard s))) ∧
  (∀ (s : State) (f : TklFrame) (i : Nat), addressed 4 f s → s.core = true → i = f.arg.toNat % 2 ^ 20 → i % 2 = 0 →
    exec (.tklReadCnt f ⟨.ok, .ok⟩) s = .next (replied f 0 (readCounter s i) s.tkl.reply
      { heard s with tkl := { (heard s).tkl with oddWord := readCounter s (i + 1) } })) ∧
  (∀ (s : State) (f : TklFrame) (i : Nat) (hi : Ecc), addressed 4 f s → s.core = true → i = f.arg.toNat % 2 ^ 20 →
    i % 2 = 1 → exec (.tklReadCnt f ⟨.ok, hi⟩) s = .next (replied f 0 (readCounter s i) s.tkl.reply (heard s))) ∧
  (∀ (s : State) (f : TklFrame), addressed 5 f s → f.ver ≠ 1#3 →
    exec (.tklReadCntHi f) s = .next (replied f 0 s.tkl.oddWord s.tkl.reply (heard s))) ∧
  (∀ (s : State) (f : TklFrame), addressed 5 f s → f.ver = 1#3 →
    exec (.tklReadCntHi f) s = .next (replied f 2 0 s.tkl.reply (heard s)))

/-- TAKE begins take-over, and its reply is PENDING while a COMMIT is held (R355); GIVE ends take-over but not that of the
fatal state; the lease ends it after lease_ms without an accepted addressed frame. While a request runs, an addressed
frame is answered PENDING and does not act (R352). -/
def Sys2Proof.Claims.TakeOver : Prop :=
  (∀ (s : State) (f : TklFrame), addressed 8 f s → s.core = true → s.dsp.commitHeld = none →
    exec (.tklTake f) s = .next (replied f 0 0 s.tkl.reply
      { heard s with dsp := { s.dsp with takeover := true } })) ∧
  (∀ (s : State) (f : TklFrame) (k : Ticket), addressed 8 f s → s.core = true → s.dsp.commitHeld = some k →
    s.dsp.takeover = false →
    exec (.tklTake f) s = .next (replied f 0x10 0 s.tkl.reply
      { heard s with dsp := { s.dsp with takeover := true }, tkl := { (heard s).tkl with
        busy := some (false, f.seq.toNat) } })) ∧
  (∀ (s : State) (f : TklFrame), addressed 9 f s → s.dsp.takeover = true → s.tkl.auto = false →
    exec (.tklGive f) s = .next (replied f 0 0 s.tkl.reply
      { heard s with dsp := { s.dsp with takeover := false }, tkl := { (heard s).tkl with view := 0 } })) ∧
  (∀ (s : State) (f : TklFrame), addressed 9 f s → s.dsp.takeover = false ∨ s.tkl.auto = true →
    exec (.tklGive f) s = .next (replied f 3 0 s.tkl.reply (heard s))) ∧
  (∀ s : State, s.core = true → s.dsp.takeover = true → s.tkl.auto = false → fld s.tkl.cfg 0 16 ≠ 0 →
    s.tkl.lastAt + fld s.tkl.cfg 0 16 * 1000000 ≤ s.ttb.time →
    exec .takeoverLeaseExpire s = .next { s with
      dsp := { s.dsp with takeover := false }, tkl := { s.tkl with view := 0 } }) ∧
  (∀ s : State, s.dsp.takeover = false ∨ s.tkl.auto = true ∨ fld s.tkl.cfg 0 16 = 0 ∨
      s.ttb.time < s.tkl.lastAt + fld s.tkl.cfg 0 16 * 1000000 →
    exec .takeoverLeaseExpire s = .next s) ∧
  (∀ (s : State) (f : TklFrame) (b : Bool) (q : Nat), accepts s f = true → f.op.toNat = 3 → f.bcast = false →
    s.tkl.busy = some (b, q) → writeKind s (tklAddr f) f.wdata = .reg →
    exec (.tklWrite f) s = .next { heard s with tkl := { (heard s).tkl with
      out := some (replyTo f { seq := q, status := 0x10, rdata := 0 }) } })

/-- FORCE and RELEASE (R24, R314, R357): FORCE asserts SAFE_REQ once the outputs are taken over and makes the forced record,
by broadcast as well; RELEASE ends the forced safe state, and it has no effect where none holds. -/
def Sys2Proof.Claims.ForcedSafeState : Prop :=
  (∀ (s : State) (f : TklFrame) (k : Nat), addressed 0xA f s → s.core = true → s.sbx.forced = false → s.sbx.taken = true →
    s.dsp.boot.state ≠ 2 → s.sbx.recs.length = 32 → (List.range 32).find? (fun j => !(s.frec j).valid) = some k →
    Answers (.tklForce f) s fun t =>
      t.sbx.forced = true ∧ t.sbx.safeReq = true ∧ (t.frec k).valid = true ∧ (t.frec k).forced = true ∧
      (t.frec k).sub = 12 ∧ (t.frec k).cause = 7 ∧ (t.frec k).detect = s.ttb.time ∧ (∀ j, j ≠ k → t.frec j = s.frec j) ∧
      t.sbx.escTimes = s.sbx.escTimes ∧ t.tkl.reply = some { seq := f.seq.toNat, status := 0, rdata := 0 }) ∧
  (∀ (s : State) (f : TklFrame) (k : Nat), accepts s f = true → f.op.toNat = 0xA → f.bcast = true → s.core = true →
    s.sbx.forced = false → s.sbx.taken = true → s.dsp.boot.state ≠ 2 → s.sbx.recs.length = 32 →
    (List.range 32).find? (fun j => !(s.frec j).valid) = some k →
    Answers (.tklForce f) s fun t =>
      t.sbx.forced = true ∧ t.sbx.safeReq = true ∧ (t.frec k).forced = true ∧ t.tkl.out = some f ∧
      t.tkl.reply = s.tkl.reply) ∧
  (∀ (s : State) (f : TklFrame), addressed 0xB f s → s.sbx.forced = true → s.sbx.taken = true →
    Answers (.tklRelease f) s fun t =>
      t.sbx.forced = false ∧
      t.sbx.safeReq = (s.sbx.state == 3 || (s.sbx.recs.map (unforceRec s.ttb.time)).any fun r =>
        r.valid && r.inForce && r.safe) ∧
      t.sbx.recs = s.sbx.recs.map (unforceRec s.ttb.time)) ∧
  (∀ (s : State) (f : TklFrame), addressed 0xB f s → s.sbx.forced = false →
    exec (.tklRelease f) s = .next (replied f 0 0 s.tkl.reply (heard s)))

/-- COMMIT and CLEAR_REC in take-over (R356): COMMIT applies the pending generation at once and answers its number, or
waits with PENDING between the stamp of a master edge and its T; CLEAR_REC frees fault records as SBX_CLEAR does. -/
def Sys2Proof.Claims.TokenLineCommits : Prop :=
  (∀ (s : State) (f : TklFrame), addressed 0xC f s → s.dsp.takeover = true → s.ttb.announced = none →
    s.dsp.commitHeld = none →
    exec (.tklCommit f) s = .next (replied f 0 (BitVec.ofNat 64 (commitWrites (heard s)).dsp.activeGen) s.tkl.reply
      (commitWrites (heard s)))) ∧
  (∀ (s : State) (f : TklFrame) (b : Boundary), addressed 0xC f s → s.dsp.takeover = true → s.ttb.announced = some b →
    s.dsp.commitHeld = none →
    Answers (.tklCommit f) s fun t =>
      t.tkl.busy = some (true, f.seq.toNat) ∧ t.dsp.commitHeld = some tklTicket ∧ t.dsp.pending = s.dsp.pending ∧
      t.dsp.activeGen = s.dsp.activeGen ∧ t.tkl.reply = some { seq := f.seq.toNat, status := 0x10, rdata := 0 }) ∧
  (∀ (s : State) (f : TklFrame) (k : Nat), addressed 0xD f s → s.dsp.takeover = true → f.arg.getLsbD 5 = false →
    f.arg.toNat % 32 = k → s.sbx.recs.length = 32 → (s.frec k).valid = true →
    ((s.frec k).forced = false ∨ s.sbx.forced = false) →
    Answers (.tklClearRec f) s fun t =>
      (t.frec k).valid = false ∧ (∀ j, j ≠ k → t.frec j = s.frec j) ∧
      t.tkl.reply = some { seq := f.seq.toNat, status := 0, rdata := 1 })

/-- The row of the table that a WRITE belongs to, by what the written word acts as. -/
def Sys2Proof.Claims.rowOfWrite (f : TklFrame) : WriteKind → Instr
  | .reg => .tklWrite f | .partCreate _ => .tklWritePartCreate f | .partDetach _ => .tklWritePartDetach f
  | .mirror _ => .tklWriteMirror f | .window _ _ _ => .tklWriteWindow f | .sdgCreate _ => .tklWriteSdgCreate f
  | .sdgFree _ => .tklWriteSdgFree f | .view _ => .tklWriteStnViewSel f

/-- Outside take-over a WRITE, a COMMIT and a CLEAR_REC are answered NOT_PERMITTED and change nothing of the block (R23,
R356); a WRITE acts in no row but its own. -/
def Sys2Proof.Claims.WritesNeedTakeOver : Prop :=
  (∀ (s : State) (f : TklFrame), addressed 3 f s → s.dsp.takeover = false →
    exec (rowOfWrite f (writeKind s (tklAddr f) f.wdata)) s = .next (replied f 3 0 s.tkl.reply (heard s))) ∧
  (∀ (s : State) (f : TklFrame), addressed 0xC f s → s.dsp.takeover = false →
    exec (.tklCommit f) s = .next (replied f 3 0 s.tkl.reply (heard s))) ∧
  (∀ (s : State) (f : TklFrame), addressed 0xD f s → s.dsp.takeover = false →
    exec (.tklClearRec f) s = .next (replied f 3 0 s.tkl.reply (heard s))) ∧
  (∀ (s : State) (f : TklFrame) (k : WriteKind), rowOfWrite f k ≠ rowOfWrite f (writeKind s (tklAddr f) f.wdata) →
    exec (rowOfWrite f k) s = .next s)

/-- A WRITE in take-over (R356): the view select is the token line's own; the lease is clamped; a class E word enters the
pending generation; a word of the Sealed Meter page, while the meter is not open, is answered SEALED. -/
def Sys2Proof.Claims.RegisterWritten : Prop :=
  (∀ (s : State) (f : TklFrame) (n : Nat), addressed 3 f s → s.dsp.takeover = true →
    writeKind s (tklAddr f) f.wdata = .view n →
    let u : State := { heard s with tkl := { (heard s).tkl with view := n } }
    exec (.tklWriteStnViewSel f) s = .next (replied f 0 (if s.core then readReg u n (tklAddr f) else 0) s.tkl.reply u)) ∧
  (∀ (s : State) (f : TklFrame), addressed 3 f s → s.dsp.takeover = true → tklAddr f = 0x300 →
    let lease := if fld f.wdata 0 16 = 0 then 0 else max 10 (min 60000 (fld f.wdata 0 16))
    let u : State := { heard s with tkl := { (heard s).tkl with cfg := pack [(0, 16, lease)] } }
    exec (.tklWrite f) s = .next (replied f 0 (if s.core then readReg u s.tkl.view 0x300 else 0) s.tkl.reply u)) ∧
  (∀ (s : State) (f : TklFrame), addressed 3 f s → s.dsp.takeover = true → tklAddr f = 0x200 →
    Answers (.tklWrite f) s fun t =>
      t.dsp.pending = s.dsp.pending ++ [.pltDue (max 2 (min 100 (fld f.wdata 0 8)))] ∧ t.jct = s.jct ∧ t.plt = s.plt) ∧
  (∀ (s : State) (f : TklFrame), addressed 3 f s → s.dsp.takeover = true → 0x300000 ≤ tklAddr f →
    tklAddr f < 0x310000 → meterOpen s = false →
    Answers (.tklWrite f) s fun t =>
      t.mtr.map = s.mtr.map ∧ t.ttb.cfg = s.ttb.cfg ∧
      ∃ r, t.tkl.reply = some r ∧ r.status = 5 ∧ r.seq = f.seq.toNat)

/-- A WRITE in take-over that creates or detaches a partition, changes its mirror, a window or a siding acts as the command
does (R356): the new partition is live with its window open; a detaching one is no longer live; the mirror takes its
bit; the window takes its words, page-aligned; a created siding is Root's choice and live, and a freed idle one takes its
reset values. -/
def Sys2Proof.Claims.TableWritten : Prop :=
  (∀ (s : State) (f : TklFrame) (p sid base : Nat), addressed 3 f s → s.dsp.takeover = true → s.shaped = true →
    writeKind s (tklAddr f) f.wdata = .partCreate p → p < 16 → bit f.wdata 61 = false → pointFree s →
    (List.range 256).find? (fun i => decide (4 ≤ i) && (s.siding i).state == 0) = some sid →
    placeSiding s sid 0 = some base →
    Answers (.tklWritePartCreate f) s fun t =>
      (t.part p).state = 1 ∧ (t.win p).isOpen = true ∧ (t.win p).compl = sid ∧ (t.siding sid).state = 1 ∧
      (t.siding sid).owner = p) ∧
  (∀ (s : State) (f : TklFrame) (p : Nat), addressed 3 f s → s.dsp.takeover = true → s.shaped = true →
    writeKind s (tklAddr f) f.wdata = .partDetach p → p < 16 → detachable s p = true → pointFree s →
    bit f.wdata 61 = (s.part p).mirror →
    Answers (.tklWritePartDetach f) s fun t =>
      (t.part p).state = 2 ∧ (t.win p).isOpen = false ∧
      ∃ d ∈ t.ilk.detaches, d.p = p ∧ d.ticket = tklTicket) ∧
  (∀ (s : State) (f : TklFrame) (p : Nat), addressed 3 f s → s.dsp.takeover = true → s.shaped = true →
    writeKind s (tklAddr f) f.wdata = .mirror p → p < 16 → (s.part p).state = 1 → pointFree s →
    Answers (.tklWriteMirror f) s fun t =>
      t.part p = { s.part p with mirror := bit f.wdata 61 } ∧ (∀ q, q ≠ p → t.part q = s.part q)) ∧
  (∀ (s : State) (f : TklFrame) (o k : Nat), addressed 3 f s → s.dsp.takeover = true → s.shaped = true →
    writeKind s (tklAddr f) f.wdata = .window o k true → o < 17 → barredPart s o = false →
    k < (s.ilk.win.getD o []).length →
    Answers (.tklWriteWindow f) s fun t =>
      ((t.ilk.win.getD o []).getD k Window.reset).size = pack [(12, 36, fld f.wdata 12 36)] ∧
      (∀ q, q ≠ o → t.ilk.win.getD q [] = s.ilk.win.getD q []) ∧
      (∀ j, j ≠ k → (t.ilk.win.getD o []).getD j Window.reset = (s.ilk.win.getD o []).getD j Window.reset)) ∧
  (∀ (s : State) (f : TklFrame) (sid base : Nat), addressed 3 f s → s.dsp.takeover = true → s.shaped = true →
    writeKind s (tklAddr f) f.wdata = .sdgCreate sid → sid < 256 → 16 ≤ fld f.wdata 48 5 →
    placeSiding s sid (createSize (sdgPacket sid f.wdata (ringOf s sid) false)) = some base →
    Answers (.tklWriteSdgCreate f) s fun t =>
      (t.siding sid).state = 1 ∧ (t.siding sid).owner = 16 ∧ (t.siding sid).base = base ∧
      (∀ i, i ≠ sid → t.siding i = s.siding i)) ∧
  (∀ (s : State) (f : TklFrame) (sid : Nat), addressed 3 f s → s.dsp.takeover = true →
    writeKind s (tklAddr f) f.wdata = .sdgFree sid → sidingIdle (s.siding sid) = true → (s.siding sid).producer ≠ 2 →
    Answers (.tklWriteSdgFree f) s fun t => t.siding sid = Siding.reset)

/-! ## The statements that gather the claims above -/

/-- What PORST_N, the fuse read, BLK_RST_N, VQ and a warm start do. -/
def Obligations.ResetsAndSupplies : Prop :=
  Sys2Proof.Claims.PowerOnReset ∧ Sys2Proof.Claims.PowerOnStartsFuseRead ∧ Sys2Proof.Claims.FuseRead ∧
    Sys2Proof.Claims.BlockReset ∧ Sys2Proof.Claims.CoreSupplyOff ∧ Sys2Proof.Claims.WarmStart

/-- Firmware boot, start-up self-test, station enumeration, test state. -/
def Obligations.StartUp : Prop :=
  Sys2Proof.Claims.FirmwareBoot ∧ Sys2Proof.Claims.StartupSelftest ∧ Sys2Proof.Claims.StationEnumeration ∧
    Sys2Proof.Claims.TestState

/-- Register writes, the station view and the interrupt words. -/
def Obligations.RegisterPort : Prop :=
  Sys2Proof.Claims.RegisterWrites ∧ Sys2Proof.Claims.StationView ∧ Sys2Proof.Claims.InterruptWords

/-- Lock, slew, holdover, free run, PPS and the upper time word. -/
def Obligations.TimeReference : Prop :=
  Sys2Proof.Claims.TimeDiscipline ∧ Sys2Proof.Claims.TimeValidFall ∧ Sys2Proof.Claims.HoldoverExpires ∧
    Sys2Proof.Claims.PpsEdge ∧ Sys2Proof.Claims.UpperTime

/-- Frame numbers, real and synthetic master edges, and the announced boundary. -/
def Obligations.MasterEdges : Prop :=
  Sys2Proof.Claims.FsyncNumbersFrames ∧ Sys2Proof.Claims.RealMasterEdge ∧ Sys2Proof.Claims.BoundaryAnnounced ∧
    Sys2Proof.Claims.SyntheticMasterEdge

/-- An epoch opens at T, its status closes, and the next one is prepared. -/
def Obligations.EpochLifecycle : Prop :=
  Sys2Proof.Claims.EpochOpens ∧ Sys2Proof.Claims.EpochStatusCloses ∧ Sys2Proof.Claims.EpochPrepared

/-- EPOCH_SET and GOV_SET, and when COMMIT takes effect. -/
def Obligations.PendingGeneration : Prop :=
  Sys2Proof.Claims.EpochAndGovernorSettings ∧ Sys2Proof.Claims.CommitTiming

/-- The rate monitor and the governor's token buckets. -/
def Obligations.StepRate : Prop :=
  Sys2Proof.Claims.RateMonitor ∧ Sys2Proof.Claims.GovernorBucket

/-- How a command window assembles, discards and abandons packets. -/
def Obligations.PacketAssembly : Prop :=
  Sys2Proof.Claims.WindowAssembly ∧ Sys2Proof.Claims.PacketTimeouts

/-- NOP, READ_VERSION, unknown opcodes, senders' rights and the round of the windows. -/
def Obligations.CommandIssue : Prop :=
  Sys2Proof.Claims.AnswersOnly ∧ Sys2Proof.Claims.SenderRights ∧ Sys2Proof.Claims.TurnsAreKept

/-- A partition is created, detached, scrubbed and freed. -/
def Obligations.PartitionLife : Prop :=
  Sys2Proof.Claims.TableChangesWait ∧ Sys2Proof.Claims.PartitionCreated ∧ Sys2Proof.Claims.DetachBegins ∧
    Sys2Proof.Claims.ScrubBegins ∧ Sys2Proof.Claims.DetachEnds

/-- WINDOW_SET and GRANT. -/
def Obligations.PartitionRights : Prop :=
  Sys2Proof.Claims.WindowSet ∧ Sys2Proof.Claims.Grant

/-- BUNDLE_UNWRAP and the entropy source. -/
def Obligations.KeysAndEntropy : Prop :=
  Sys2Proof.Claims.BundleKeys ∧ Sys2Proof.Claims.EntropySource

/-- Event counts, tag switches, delta banks and the measured delay of a station. -/
def Obligations.StationCounting : Prop :=
  Sys2Proof.Claims.EdgeCounts ∧ Sys2Proof.Claims.TagSwitchesContext ∧ Sys2Proof.Claims.DeltaBanks ∧
    Sys2Proof.Claims.DelayMeasured

/-- Hand-over, parking, failure, reset and rail of a station. -/
def Obligations.StationUpsets : Prop :=
  Sys2Proof.Claims.StationHandsOver ∧ Sys2Proof.Claims.Parking ∧ Sys2Proof.Claims.StationFails ∧
    Sys2Proof.Claims.StationResetAndRail

/-- Operand beats, the merge order and overdue internal records. -/
def Obligations.MergeAndOperands : Prop :=
  Sys2Proof.Claims.OperandBeats ∧ Sys2Proof.Claims.MergeOrder ∧ Sys2Proof.Claims.InternalRecordOverdue

/-- The streams of a fault record, a released record reaches its destinations, and a payload closes. -/
def Obligations.Delivery : Prop :=
  Sys2Proof.Claims.FaultRecordStreams ∧ Sys2Proof.Claims.RecordDelivered ∧ Sys2Proof.Claims.PayloadCloses

/-- A delta counts, chained pairs carry, lost and late deltas are marked. -/
def Obligations.CounterUpdates : Prop :=
  Sys2Proof.Claims.DeltaCounted ∧ Sys2Proof.Claims.ChainedPairCounts ∧ Sys2Proof.Claims.LostAndLateDeltas

/-- Patrol, sweep and snapshot timeout. -/
def Obligations.CounterUpkeep : Prop :=
  Sys2Proof.Claims.Patrol ∧ Sys2Proof.Claims.SweepTraverse ∧ Sys2Proof.Claims.SnapshotTimeout

/-- Counter reads, counter configuration and user reads. -/
def Obligations.CounterCommands : Prop :=
  Sys2Proof.Claims.CounterReads ∧ Sys2Proof.Claims.CounterConfiguration ∧ Sys2Proof.Claims.UserReads

/-- Tallies add and latch. -/
def Obligations.Tallies : Prop :=
  Sys2Proof.Claims.TallyAdds ∧ Sys2Proof.Claims.TallyLatched

/-- The seal and the start, reset and update of the meter core. -/
def Obligations.SealedMeter : Prop :=
  Sys2Proof.Claims.Seal ∧ Sys2Proof.Claims.MeterCore

/-- Meter configuration and the meter image. -/
def Obligations.MeterConfigured : Prop :=
  Sys2Proof.Claims.MeterConfiguration ∧ Sys2Proof.Claims.MeterImage

/-- SDG_REWIND and SDG_RELEASE. -/
def Obligations.SidingRewindRelease : Prop :=
  Sys2Proof.Claims.SidingRewind ∧ Sys2Proof.Claims.SidingRelease

/-- SDG_FLUSH, and the drain of a memory siding. -/
def Obligations.SidingFlushDrain : Prop :=
  Sys2Proof.Claims.SidingFlush ∧ Sys2Proof.Claims.MemoryDrain

/-- SDG_LEVEL, SDG_WATERMARK and SDG_CREATE. -/
def Obligations.SidingSettings : Prop :=
  Sys2Proof.Claims.SidingLevels ∧ Sys2Proof.Claims.SidingCreate

/-- A memory command issues inside its owner's window, or is refused and counted. -/
def Obligations.MemoryCommands : Prop :=
  Sys2Proof.Claims.MemoryCommand ∧ Sys2Proof.Claims.MemoryRefused

/-- Beats, responses, timeouts and stalled port clocks. -/
def Obligations.MemoryEnds : Prop :=
  Sys2Proof.Claims.MemoryBeats ∧ Sys2Proof.Claims.PortFaults

/-- Frames are taken, sealed, sent and released; the last frame of a session. -/
def Obligations.ExportFrames : Prop :=
  Sys2Proof.Claims.FrameTaken ∧ Sys2Proof.Claims.LastFrame ∧ Sys2Proof.Claims.FrameBeats ∧
    Sys2Proof.Claims.ExportReleases

/-- SESSION_OPEN, SESSION_CLOSE and the end of a session by a stalled clock. -/
def Obligations.Sessions : Prop :=
  Sys2Proof.Claims.SessionOpens ∧ Sys2Proof.Claims.SessionCloses ∧ Sys2Proof.Claims.SessionEndsOnStall

/-- Frame windows open and close. -/
def Obligations.FrameWindows : Prop :=
  Sys2Proof.Claims.FrameWindowOpens ∧ Sys2Proof.Claims.FrameWindowCloses

/-- A track takes its next item, and its chunks are decrypted or discarded. -/
def Obligations.WorkItems : Prop :=
  Sys2Proof.Claims.WorkItemStarts ∧ Sys2Proof.Claims.WorkItemOrder ∧ Sys2Proof.Claims.ChunkDecrypted

/-- Passes and their checks, the known-answer tile, the watchdog and withdrawal. -/
def Obligations.TrackChecks : Prop :=
  Sys2Proof.Claims.TrackPasses ∧ Sys2Proof.Claims.KnownAnswer ∧ Sys2Proof.Claims.TrackWithdrawn

/-- Sample sets commit, or commit LATE at their due time. -/
def Obligations.Commits : Prop :=
  Sys2Proof.Claims.SampleSetCommits ∧ Sys2Proof.Claims.DeadlineCommitsLate

/-- PLAN_LOAD, PLAN_ARM, PLAN_DISARM and COVER_SET. -/
def Obligations.CheckingCommands : Prop :=
  Sys2Proof.Claims.PlanLoads ∧ Sys2Proof.Claims.PlanArms ∧ Sys2Proof.Claims.CoverSet

/-- A Pilot frame becomes ready, starts, is judged or overruns. -/
def Obligations.PilotFrames : Prop :=
  Sys2Proof.Claims.PilotReady ∧ Sys2Proof.Claims.PilotStarts ∧ Sys2Proof.Claims.PilotJudged ∧
    Sys2Proof.Claims.PilotOverruns

/-- PLT_LOAD, PLT_ZONES, PLT_ARM, WBR_CONFIG and the close of statistics. -/
def Obligations.PilotAndStatistics : Prop :=
  Sys2Proof.Claims.PilotLoads ∧ Sys2Proof.Claims.PilotArms ∧ Sys2Proof.Claims.StatisticsClose ∧
    Sys2Proof.Claims.WeighbridgeConfig

/-- C, U and F occurrences, escalation and the fatal state. -/
def Obligations.FaultsPlaced : Prop :=
  Sys2Proof.Claims.CorrectedCounted ∧ Sys2Proof.Claims.FaultRecorded ∧ Sys2Proof.Claims.FatalState

/-- The outputs follow the records, and FAULT_CLASS changes one bit at a time. -/
def Obligations.SafetyOutputs : Prop :=
  Sys2Proof.Claims.OutputsStayRight ∧ Sys2Proof.Claims.OneBitAtATime

/-- Timed events of the outputs and faults of the Conductor. -/
def Obligations.OutputEvents : Prop :=
  Sys2Proof.Claims.OutputTimers ∧ Sys2Proof.Claims.ConductorFaults

/-- Signal Box commands, INJECT, SELFTEST and held writes. -/
def Obligations.DispatcherAndInjection : Prop :=
  Sys2Proof.Claims.SignalBoxCommands ∧ Sys2Proof.Claims.Injection ∧ Sys2Proof.Claims.SelftestRuns ∧
    Sys2Proof.Claims.HeldWriteApplies

/-- Frames forwarded, addressing, observe, take-over. -/
def Obligations.TokenLineFrames : Prop :=
  Sys2Proof.Claims.FramesForwarded ∧ Sys2Proof.Claims.TokenLineAddressing ∧ Sys2Proof.Claims.TokenLineObserves ∧
    Sys2Proof.Claims.TakeOver

/-- The forced safe state, COMMIT, CLEAR_REC and WRITE. -/
def Obligations.TokenLineActs : Prop :=
  Sys2Proof.Claims.ForcedSafeState ∧ Sys2Proof.Claims.TokenLineCommits ∧ Sys2Proof.Claims.WritesNeedTakeOver ∧
    Sys2Proof.Claims.RegisterWritten ∧ Sys2Proof.Claims.TableWritten
end

