-- ==== Sys2Proof/Laws/Issue.lean ====
section
/-! SUPPORT. What the issue of a packet does, said once for all commands of the windows: a packet that issues hands
its words to the command's own effect, on the state from which it has been taken. -/

namespace Sys2Proof.Claims

open Sys2Proof.Machine

theorem takePacket_eq_taken (w : Nat) (s : State) : takePacket w s = taken w s := by
  by_cases hw : w = 16 <;> simp [takePacket, taken, State.modWin, roundPlace, hw]

/-- A packet that may issue acts. -/
theorem issue_of_issues {op w : Nat} {pk : List Word} {s : State}
    {act : List Word → Ticket → State → State} (h : Issues op w pk s) :
    issue op w act s = act pk (ticketOf w pk) (taken w s) := by
  obtain ⟨h1, h2, h3, h4, h5, h6, h7, -⟩ := h
  have right : (rootOps.contains op && w != 16) = false := by
    cases hh : rootOps.contains op <;> simp
    exact h7 hh
  have d1 : departing (taken w s) w = departing s w := rfl
  have d2 : (taken w s).dsp.takeover = s.dsp.takeover := rfl
  simp only [issue, h2, h1, h3, h4, takePacket_eq_taken, right, d1, d2, h5, h6]
  simp

@[simp] theorem taken_win_compl (w : Nat) (s : State) : ((taken w s).win w).compl = (s.win w).compl := by
  simp only [taken, State.win, List.getD, List.getElem?_modify]
  cases s.dsp.wins[w]? <;> simp

/-- The completion siding of a window that issues is live after the packet has been taken. -/
theorem taken_compl_live {op w : Nat} {pk : List Word} {s : State} (h : Issues op w pk s) :
    ((taken w s).siding ((taken w s).win w).compl).state = 1 := by
  rw [taken_win_compl]
  exact h.2.2.2.2.2.2.2

/-- The one completion of a command, in the spec's own layout. -/
theorem complete_eq_told {w : Nat} {pk : List Word} {s : State} {status result : Nat} {result2 : Word}
    (h : (s.siding (s.win w).compl).state = 1) :
    s.complete (ticketOf w pk) status result result2 = told w pk status result result2 s := by
  simp only [State.complete, told, ticketOf, h, State.pushItem, completionItem, pkSeq, pkOpcode, pkReply, pw,
    State.modSiding, statusDone, pack, packN, b2n]
  cases hb : bit (pk.getD 0 0) 32 <;> cases hs : (status != 0) <;> simp_all

end Sys2Proof.Claims
end

