-- ==== Sys2Proof/Laws/State.lean ====
section
/-! SUPPORT. What each named update of the state leaves: one lemma for each part of the state, true by the
definition, so that no proof unfolds a record update; and what is read where an object was updated. -/

namespace Sys2Proof.Machine

/-! ### State.modStation -/

@[simp] theorem State.modStation_params (s : State) (n : Nat) (f : Station → Station) :
    (s.modStation n f).params = s.params := rfl
@[simp] theorem State.modStation_ttb (s : State) (n : Nat) (f : Station → Station) :
    (s.modStation n f).ttb = s.ttb := rfl
@[simp] theorem State.modStation_jct (s : State) (n : Nat) (f : Station → Station) :
    (s.modStation n f).jct = s.jct := rfl
@[simp] theorem State.modStation_myd (s : State) (n : Nat) (f : Station → Station) :
    (s.modStation n f).myd = s.myd := rfl
@[simp] theorem State.modStation_ldg (s : State) (n : Nat) (f : Station → Station) :
    (s.modStation n f).ldg = s.ldg := rfl
@[simp] theorem State.modStation_sdg (s : State) (n : Nat) (f : Station → Station) :
    (s.modStation n f).sdg = s.sdg := rfl
@[simp] theorem State.modStation_trk (s : State) (n : Nat) (f : Station → Station) :
    (s.modStation n f).trk = s.trk := rfl
@[simp] theorem State.modStation_wtp (s : State) (n : Nat) (f : Station → Station) :
    (s.modStation n f).wtp = s.wtp := rfl
@[simp] theorem State.modStation_plt (s : State) (n : Nat) (f : Station → Station) :
    (s.modStation n f).plt = s.plt := rfl
@[simp] theorem State.modStation_wbr (s : State) (n : Nat) (f : Station → Station) :
    (s.modStation n f).wbr = s.wbr := rfl
@[simp] theorem State.modStation_ilk (s : State) (n : Nat) (f : Station → Station) :
    (s.modStation n f).ilk = s.ilk := rfl
@[simp] theorem State.modStation_dsp (s : State) (n : Nat) (f : Station → Station) :
    (s.modStation n f).dsp = s.dsp := rfl
@[simp] theorem State.modStation_sbx (s : State) (n : Nat) (f : Station → Station) :
    (s.modStation n f).sbx = s.sbx := rfl
@[simp] theorem State.modStation_mtr (s : State) (n : Nat) (f : Station → Station) :
    (s.modStation n f).mtr = s.mtr := rfl
@[simp] theorem State.modStation_mem (s : State) (n : Nat) (f : Station → Station) :
    (s.modStation n f).mem = s.mem := rfl
@[simp] theorem State.modStation_exp (s : State) (n : Nat) (f : Station → Station) :
    (s.modStation n f).exp = s.exp := rfl
@[simp] theorem State.modStation_tkl (s : State) (n : Nat) (f : Station → Station) :
    (s.modStation n f).tkl = s.tkl := rfl
@[simp] theorem State.modStation_pins (s : State) (n : Nat) (f : Station → Station) :
    (s.modStation n f).pins = s.pins := rfl
@[simp] theorem State.modStation_free (s : State) (n : Nat) (f : Station → Station) :
    (s.modStation n f).free = s.free := rfl
@[simp] theorem State.modStation_pending (s : State) (n : Nat) (f : Station → Station) :
    (s.modStation n f).pending = s.pending := rfl

/-! ### State.modSiding -/

@[simp] theorem State.modSiding_params (s : State) (n : Nat) (f : Siding → Siding) :
    (s.modSiding n f).params = s.params := rfl
@[simp] theorem State.modSiding_ttb (s : State) (n : Nat) (f : Siding → Siding) : (s.modSiding n f).ttb = s.ttb := rfl
@[simp] theorem State.modSiding_stn (s : State) (n : Nat) (f : Siding → Siding) : (s.modSiding n f).stn = s.stn := rfl
@[simp] theorem State.modSiding_jct (s : State) (n : Nat) (f : Siding → Siding) : (s.modSiding n f).jct = s.jct := rfl
@[simp] theorem State.modSiding_myd (s : State) (n : Nat) (f : Siding → Siding) : (s.modSiding n f).myd = s.myd := rfl
@[simp] theorem State.modSiding_ldg (s : State) (n : Nat) (f : Siding → Siding) : (s.modSiding n f).ldg = s.ldg := rfl
@[simp] theorem State.modSiding_trk (s : State) (n : Nat) (f : Siding → Siding) : (s.modSiding n f).trk = s.trk := rfl
@[simp] theorem State.modSiding_wtp (s : State) (n : Nat) (f : Siding → Siding) : (s.modSiding n f).wtp = s.wtp := rfl
@[simp] theorem State.modSiding_plt (s : State) (n : Nat) (f : Siding → Siding) : (s.modSiding n f).plt = s.plt := rfl
@[simp] theorem State.modSiding_wbr (s : State) (n : Nat) (f : Siding → Siding) : (s.modSiding n f).wbr = s.wbr := rfl
@[simp] theorem State.modSiding_ilk (s : State) (n : Nat) (f : Siding → Siding) : (s.modSiding n f).ilk = s.ilk := rfl
@[simp] theorem State.modSiding_dsp (s : State) (n : Nat) (f : Siding → Siding) : (s.modSiding n f).dsp = s.dsp := rfl
@[simp] theorem State.modSiding_sbx (s : State) (n : Nat) (f : Siding → Siding) : (s.modSiding n f).sbx = s.sbx := rfl
@[simp] theorem State.modSiding_mtr (s : State) (n : Nat) (f : Siding → Siding) : (s.modSiding n f).mtr = s.mtr := rfl
@[simp] theorem State.modSiding_mem (s : State) (n : Nat) (f : Siding → Siding) : (s.modSiding n f).mem = s.mem := rfl
@[simp] theorem State.modSiding_exp (s : State) (n : Nat) (f : Siding → Siding) : (s.modSiding n f).exp = s.exp := rfl
@[simp] theorem State.modSiding_tkl (s : State) (n : Nat) (f : Siding → Siding) : (s.modSiding n f).tkl = s.tkl := rfl
@[simp] theorem State.modSiding_pins (s : State) (n : Nat) (f : Siding → Siding) :
    (s.modSiding n f).pins = s.pins := rfl
@[simp] theorem State.modSiding_free (s : State) (n : Nat) (f : Siding → Siding) :
    (s.modSiding n f).free = s.free := rfl
@[simp] theorem State.modSiding_pending (s : State) (n : Nat) (f : Siding → Siding) :
    (s.modSiding n f).pending = s.pending := rfl

/-! ### State.modTrack -/

@[simp] theorem State.modTrack_params (s : State) (n : Nat) (f : Track → Track) :
    (s.modTrack n f).params = s.params := rfl
@[simp] theorem State.modTrack_ttb (s : State) (n : Nat) (f : Track → Track) : (s.modTrack n f).ttb = s.ttb := rfl
@[simp] theorem State.modTrack_stn (s : State) (n : Nat) (f : Track → Track) : (s.modTrack n f).stn = s.stn := rfl
@[simp] theorem State.modTrack_jct (s : State) (n : Nat) (f : Track → Track) : (s.modTrack n f).jct = s.jct := rfl
@[simp] theorem State.modTrack_myd (s : State) (n : Nat) (f : Track → Track) : (s.modTrack n f).myd = s.myd := rfl
@[simp] theorem State.modTrack_ldg (s : State) (n : Nat) (f : Track → Track) : (s.modTrack n f).ldg = s.ldg := rfl
@[simp] theorem State.modTrack_sdg (s : State) (n : Nat) (f : Track → Track) : (s.modTrack n f).sdg = s.sdg := rfl
@[simp] theorem State.modTrack_wtp (s : State) (n : Nat) (f : Track → Track) : (s.modTrack n f).wtp = s.wtp := rfl
@[simp] theorem State.modTrack_plt (s : State) (n : Nat) (f : Track → Track) : (s.modTrack n f).plt = s.plt := rfl
@[simp] theorem State.modTrack_wbr (s : State) (n : Nat) (f : Track → Track) : (s.modTrack n f).wbr = s.wbr := rfl
@[simp] theorem State.modTrack_ilk (s : State) (n : Nat) (f : Track → Track) : (s.modTrack n f).ilk = s.ilk := rfl
@[simp] theorem State.modTrack_dsp (s : State) (n : Nat) (f : Track → Track) : (s.modTrack n f).dsp = s.dsp := rfl
@[simp] theorem State.modTrack_sbx (s : State) (n : Nat) (f : Track → Track) : (s.modTrack n f).sbx = s.sbx := rfl
@[simp] theorem State.modTrack_mtr (s : State) (n : Nat) (f : Track → Track) : (s.modTrack n f).mtr = s.mtr := rfl
@[simp] theorem State.modTrack_mem (s : State) (n : Nat) (f : Track → Track) : (s.modTrack n f).mem = s.mem := rfl
@[simp] theorem State.modTrack_exp (s : State) (n : Nat) (f : Track → Track) : (s.modTrack n f).exp = s.exp := rfl
@[simp] theorem State.modTrack_tkl (s : State) (n : Nat) (f : Track → Track) : (s.modTrack n f).tkl = s.tkl := rfl
@[simp] theorem State.modTrack_pins (s : State) (n : Nat) (f : Track → Track) : (s.modTrack n f).pins = s.pins := rfl
@[simp] theorem State.modTrack_free (s : State) (n : Nat) (f : Track → Track) : (s.modTrack n f).free = s.free := rfl
@[simp] theorem State.modTrack_pending (s : State) (n : Nat) (f : Track → Track) :
    (s.modTrack n f).pending = s.pending := rfl

/-! ### State.modPart -/

@[simp] theorem State.modPart_params (s : State) (n : Nat) (f : Part → Part) :
    (s.modPart n f).params = s.params := rfl
@[simp] theorem State.modPart_ttb (s : State) (n : Nat) (f : Part → Part) : (s.modPart n f).ttb = s.ttb := rfl
@[simp] theorem State.modPart_stn (s : State) (n : Nat) (f : Part → Part) : (s.modPart n f).stn = s.stn := rfl
@[simp] theorem State.modPart_jct (s : State) (n : Nat) (f : Part → Part) : (s.modPart n f).jct = s.jct := rfl
@[simp] theorem State.modPart_myd (s : State) (n : Nat) (f : Part → Part) : (s.modPart n f).myd = s.myd := rfl
@[simp] theorem State.modPart_ldg (s : State) (n : Nat) (f : Part → Part) : (s.modPart n f).ldg = s.ldg := rfl
@[simp] theorem State.modPart_sdg (s : State) (n : Nat) (f : Part → Part) : (s.modPart n f).sdg = s.sdg := rfl
@[simp] theorem State.modPart_trk (s : State) (n : Nat) (f : Part → Part) : (s.modPart n f).trk = s.trk := rfl
@[simp] theorem State.modPart_wtp (s : State) (n : Nat) (f : Part → Part) : (s.modPart n f).wtp = s.wtp := rfl
@[simp] theorem State.modPart_plt (s : State) (n : Nat) (f : Part → Part) : (s.modPart n f).plt = s.plt := rfl
@[simp] theorem State.modPart_wbr (s : State) (n : Nat) (f : Part → Part) : (s.modPart n f).wbr = s.wbr := rfl
@[simp] theorem State.modPart_dsp (s : State) (n : Nat) (f : Part → Part) : (s.modPart n f).dsp = s.dsp := rfl
@[simp] theorem State.modPart_sbx (s : State) (n : Nat) (f : Part → Part) : (s.modPart n f).sbx = s.sbx := rfl
@[simp] theorem State.modPart_mtr (s : State) (n : Nat) (f : Part → Part) : (s.modPart n f).mtr = s.mtr := rfl
@[simp] theorem State.modPart_mem (s : State) (n : Nat) (f : Part → Part) : (s.modPart n f).mem = s.mem := rfl
@[simp] theorem State.modPart_exp (s : State) (n : Nat) (f : Part → Part) : (s.modPart n f).exp = s.exp := rfl
@[simp] theorem State.modPart_tkl (s : State) (n : Nat) (f : Part → Part) : (s.modPart n f).tkl = s.tkl := rfl
@[simp] theorem State.modPart_pins (s : State) (n : Nat) (f : Part → Part) : (s.modPart n f).pins = s.pins := rfl
@[simp] theorem State.modPart_free (s : State) (n : Nat) (f : Part → Part) : (s.modPart n f).free = s.free := rfl
@[simp] theorem State.modPart_pending (s : State) (n : Nat) (f : Part → Part) :
    (s.modPart n f).pending = s.pending := rfl

/-! ### State.modWin -/

@[simp] theorem State.modWin_params (s : State) (n : Nat) (f : CmdWin → CmdWin) :
    (s.modWin n f).params = s.params := rfl
@[simp] theorem State.modWin_ttb (s : State) (n : Nat) (f : CmdWin → CmdWin) : (s.modWin n f).ttb = s.ttb := rfl
@[simp] theorem State.modWin_stn (s : State) (n : Nat) (f : CmdWin → CmdWin) : (s.modWin n f).stn = s.stn := rfl
@[simp] theorem State.modWin_jct (s : State) (n : Nat) (f : CmdWin → CmdWin) : (s.modWin n f).jct = s.jct := rfl
@[simp] theorem State.modWin_myd (s : State) (n : Nat) (f : CmdWin → CmdWin) : (s.modWin n f).myd = s.myd := rfl
@[simp] theorem State.modWin_ldg (s : State) (n : Nat) (f : CmdWin → CmdWin) : (s.modWin n f).ldg = s.ldg := rfl
@[simp] theorem State.modWin_sdg (s : State) (n : Nat) (f : CmdWin → CmdWin) : (s.modWin n f).sdg = s.sdg := rfl
@[simp] theorem State.modWin_trk (s : State) (n : Nat) (f : CmdWin → CmdWin) : (s.modWin n f).trk = s.trk := rfl
@[simp] theorem State.modWin_wtp (s : State) (n : Nat) (f : CmdWin → CmdWin) : (s.modWin n f).wtp = s.wtp := rfl
@[simp] theorem State.modWin_plt (s : State) (n : Nat) (f : CmdWin → CmdWin) : (s.modWin n f).plt = s.plt := rfl
@[simp] theorem State.modWin_wbr (s : State) (n : Nat) (f : CmdWin → CmdWin) : (s.modWin n f).wbr = s.wbr := rfl
@[simp] theorem State.modWin_ilk (s : State) (n : Nat) (f : CmdWin → CmdWin) : (s.modWin n f).ilk = s.ilk := rfl
@[simp] theorem State.modWin_sbx (s : State) (n : Nat) (f : CmdWin → CmdWin) : (s.modWin n f).sbx = s.sbx := rfl
@[simp] theorem State.modWin_mtr (s : State) (n : Nat) (f : CmdWin → CmdWin) : (s.modWin n f).mtr = s.mtr := rfl
@[simp] theorem State.modWin_mem (s : State) (n : Nat) (f : CmdWin → CmdWin) : (s.modWin n f).mem = s.mem := rfl
@[simp] theorem State.modWin_exp (s : State) (n : Nat) (f : CmdWin → CmdWin) : (s.modWin n f).exp = s.exp := rfl
@[simp] theorem State.modWin_tkl (s : State) (n : Nat) (f : CmdWin → CmdWin) : (s.modWin n f).tkl = s.tkl := rfl
@[simp] theorem State.modWin_pins (s : State) (n : Nat) (f : CmdWin → CmdWin) : (s.modWin n f).pins = s.pins := rfl
@[simp] theorem State.modWin_free (s : State) (n : Nat) (f : CmdWin → CmdWin) : (s.modWin n f).free = s.free := rfl
@[simp] theorem State.modWin_pending (s : State) (n : Nat) (f : CmdWin → CmdWin) :
    (s.modWin n f).pending = s.pending := rfl

/-! ### State.modStat -/

@[simp] theorem State.modStat_params (s : State) (n : Nat) (f : EpochStat → EpochStat) :
    (s.modStat n f).params = s.params := rfl
@[simp] theorem State.modStat_stn (s : State) (n : Nat) (f : EpochStat → EpochStat) :
    (s.modStat n f).stn = s.stn := rfl
@[simp] theorem State.modStat_jct (s : State) (n : Nat) (f : EpochStat → EpochStat) :
    (s.modStat n f).jct = s.jct := rfl
@[simp] theorem State.modStat_myd (s : State) (n : Nat) (f : EpochStat → EpochStat) :
    (s.modStat n f).myd = s.myd := rfl
@[simp] theorem State.modStat_ldg (s : State) (n : Nat) (f : EpochStat → EpochStat) :
    (s.modStat n f).ldg = s.ldg := rfl
@[simp] theorem State.modStat_sdg (s : State) (n : Nat) (f : EpochStat → EpochStat) :
    (s.modStat n f).sdg = s.sdg := rfl
@[simp] theorem State.modStat_trk (s : State) (n : Nat) (f : EpochStat → EpochStat) :
    (s.modStat n f).trk = s.trk := rfl
@[simp] theorem State.modStat_wtp (s : State) (n : Nat) (f : EpochStat → EpochStat) :
    (s.modStat n f).wtp = s.wtp := rfl
@[simp] theorem State.modStat_plt (s : State) (n : Nat) (f : EpochStat → EpochStat) :
    (s.modStat n f).plt = s.plt := rfl
@[simp] theorem State.modStat_wbr (s : State) (n : Nat) (f : EpochStat → EpochStat) :
    (s.modStat n f).wbr = s.wbr := rfl
@[simp] theorem State.modStat_ilk (s : State) (n : Nat) (f : EpochStat → EpochStat) :
    (s.modStat n f).ilk = s.ilk := rfl
@[simp] theorem State.modStat_dsp (s : State) (n : Nat) (f : EpochStat → EpochStat) :
    (s.modStat n f).dsp = s.dsp := rfl
@[simp] theorem State.modStat_sbx (s : State) (n : Nat) (f : EpochStat → EpochStat) :
    (s.modStat n f).sbx = s.sbx := rfl
@[simp] theorem State.modStat_mtr (s : State) (n : Nat) (f : EpochStat → EpochStat) :
    (s.modStat n f).mtr = s.mtr := rfl
@[simp] theorem State.modStat_mem (s : State) (n : Nat) (f : EpochStat → EpochStat) :
    (s.modStat n f).mem = s.mem := rfl
@[simp] theorem State.modStat_exp (s : State) (n : Nat) (f : EpochStat → EpochStat) :
    (s.modStat n f).exp = s.exp := rfl
@[simp] theorem State.modStat_tkl (s : State) (n : Nat) (f : EpochStat → EpochStat) :
    (s.modStat n f).tkl = s.tkl := rfl
@[simp] theorem State.modStat_pins (s : State) (n : Nat) (f : EpochStat → EpochStat) :
    (s.modStat n f).pins = s.pins := rfl
@[simp] theorem State.modStat_free (s : State) (n : Nat) (f : EpochStat → EpochStat) :
    (s.modStat n f).free = s.free := rfl
@[simp] theorem State.modStat_pending (s : State) (n : Nat) (f : EpochStat → EpochStat) :
    (s.modStat n f).pending = s.pending := rfl

/-! ### State.emit -/

@[simp] theorem State.emit_params (s : State) (n k : Nat) (r : Rec) : (s.emit n k r).params = s.params := rfl
@[simp] theorem State.emit_ttb (s : State) (n k : Nat) (r : Rec) : (s.emit n k r).ttb = s.ttb := rfl
@[simp] theorem State.emit_stn (s : State) (n k : Nat) (r : Rec) : (s.emit n k r).stn = s.stn := rfl
@[simp] theorem State.emit_myd (s : State) (n k : Nat) (r : Rec) : (s.emit n k r).myd = s.myd := rfl
@[simp] theorem State.emit_ldg (s : State) (n k : Nat) (r : Rec) : (s.emit n k r).ldg = s.ldg := rfl
@[simp] theorem State.emit_sdg (s : State) (n k : Nat) (r : Rec) : (s.emit n k r).sdg = s.sdg := rfl
@[simp] theorem State.emit_trk (s : State) (n k : Nat) (r : Rec) : (s.emit n k r).trk = s.trk := rfl
@[simp] theorem State.emit_wtp (s : State) (n k : Nat) (r : Rec) : (s.emit n k r).wtp = s.wtp := rfl
@[simp] theorem State.emit_plt (s : State) (n k : Nat) (r : Rec) : (s.emit n k r).plt = s.plt := rfl
@[simp] theorem State.emit_wbr (s : State) (n k : Nat) (r : Rec) : (s.emit n k r).wbr = s.wbr := rfl
@[simp] theorem State.emit_ilk (s : State) (n k : Nat) (r : Rec) : (s.emit n k r).ilk = s.ilk := rfl
@[simp] theorem State.emit_dsp (s : State) (n k : Nat) (r : Rec) : (s.emit n k r).dsp = s.dsp := rfl
@[simp] theorem State.emit_mtr (s : State) (n k : Nat) (r : Rec) : (s.emit n k r).mtr = s.mtr := rfl
@[simp] theorem State.emit_mem (s : State) (n k : Nat) (r : Rec) : (s.emit n k r).mem = s.mem := rfl
@[simp] theorem State.emit_exp (s : State) (n k : Nat) (r : Rec) : (s.emit n k r).exp = s.exp := rfl
@[simp] theorem State.emit_tkl (s : State) (n k : Nat) (r : Rec) : (s.emit n k r).tkl = s.tkl := rfl
@[simp] theorem State.emit_pins (s : State) (n k : Nat) (r : Rec) : (s.emit n k r).pins = s.pins := rfl
@[simp] theorem State.emit_free (s : State) (n k : Nat) (r : Rec) : (s.emit n k r).free = s.free := rfl
@[simp] theorem State.emit_pending (s : State) (n k : Nat) (r : Rec) : (s.emit n k r).pending = s.pending := rfl

/-! ### State.countOverdue -/

@[simp] theorem State.countOverdue_params (s : State) (l : List Owed) : (s.countOverdue l).params = s.params := rfl
@[simp] theorem State.countOverdue_ttb (s : State) (l : List Owed) : (s.countOverdue l).ttb = s.ttb := rfl
@[simp] theorem State.countOverdue_stn (s : State) (l : List Owed) : (s.countOverdue l).stn = s.stn := rfl
@[simp] theorem State.countOverdue_myd (s : State) (l : List Owed) : (s.countOverdue l).myd = s.myd := rfl
@[simp] theorem State.countOverdue_ldg (s : State) (l : List Owed) : (s.countOverdue l).ldg = s.ldg := rfl
@[simp] theorem State.countOverdue_sdg (s : State) (l : List Owed) : (s.countOverdue l).sdg = s.sdg := rfl
@[simp] theorem State.countOverdue_trk (s : State) (l : List Owed) : (s.countOverdue l).trk = s.trk := rfl
@[simp] theorem State.countOverdue_wtp (s : State) (l : List Owed) : (s.countOverdue l).wtp = s.wtp := rfl
@[simp] theorem State.countOverdue_plt (s : State) (l : List Owed) : (s.countOverdue l).plt = s.plt := rfl
@[simp] theorem State.countOverdue_wbr (s : State) (l : List Owed) : (s.countOverdue l).wbr = s.wbr := rfl
@[simp] theorem State.countOverdue_ilk (s : State) (l : List Owed) : (s.countOverdue l).ilk = s.ilk := rfl
@[simp] theorem State.countOverdue_dsp (s : State) (l : List Owed) : (s.countOverdue l).dsp = s.dsp := rfl
@[simp] theorem State.countOverdue_mtr (s : State) (l : List Owed) : (s.countOverdue l).mtr = s.mtr := rfl
@[simp] theorem State.countOverdue_mem (s : State) (l : List Owed) : (s.countOverdue l).mem = s.mem := rfl
@[simp] theorem State.countOverdue_exp (s : State) (l : List Owed) : (s.countOverdue l).exp = s.exp := rfl
@[simp] theorem State.countOverdue_tkl (s : State) (l : List Owed) : (s.countOverdue l).tkl = s.tkl := rfl
@[simp] theorem State.countOverdue_pins (s : State) (l : List Owed) : (s.countOverdue l).pins = s.pins := rfl
@[simp] theorem State.countOverdue_free (s : State) (l : List Owed) : (s.countOverdue l).free = s.free := rfl
@[simp] theorem State.countOverdue_pending (s : State) (l : List Owed) : (s.countOverdue l).pending = s.pending := rfl

/-! ### State.owe -/

@[simp] theorem State.owe_params (s : State) (n k t : Nat) : (s.owe n k t).params = s.params := rfl
@[simp] theorem State.owe_ttb (s : State) (n k t : Nat) : (s.owe n k t).ttb = s.ttb := rfl
@[simp] theorem State.owe_stn (s : State) (n k t : Nat) : (s.owe n k t).stn = s.stn := rfl
@[simp] theorem State.owe_myd (s : State) (n k t : Nat) : (s.owe n k t).myd = s.myd := rfl
@[simp] theorem State.owe_ldg (s : State) (n k t : Nat) : (s.owe n k t).ldg = s.ldg := rfl
@[simp] theorem State.owe_sdg (s : State) (n k t : Nat) : (s.owe n k t).sdg = s.sdg := rfl
@[simp] theorem State.owe_trk (s : State) (n k t : Nat) : (s.owe n k t).trk = s.trk := rfl
@[simp] theorem State.owe_wtp (s : State) (n k t : Nat) : (s.owe n k t).wtp = s.wtp := rfl
@[simp] theorem State.owe_plt (s : State) (n k t : Nat) : (s.owe n k t).plt = s.plt := rfl
@[simp] theorem State.owe_wbr (s : State) (n k t : Nat) : (s.owe n k t).wbr = s.wbr := rfl
@[simp] theorem State.owe_ilk (s : State) (n k t : Nat) : (s.owe n k t).ilk = s.ilk := rfl
@[simp] theorem State.owe_dsp (s : State) (n k t : Nat) : (s.owe n k t).dsp = s.dsp := rfl
@[simp] theorem State.owe_sbx (s : State) (n k t : Nat) : (s.owe n k t).sbx = s.sbx := rfl
@[simp] theorem State.owe_mtr (s : State) (n k t : Nat) : (s.owe n k t).mtr = s.mtr := rfl
@[simp] theorem State.owe_mem (s : State) (n k t : Nat) : (s.owe n k t).mem = s.mem := rfl
@[simp] theorem State.owe_exp (s : State) (n k t : Nat) : (s.owe n k t).exp = s.exp := rfl
@[simp] theorem State.owe_tkl (s : State) (n k t : Nat) : (s.owe n k t).tkl = s.tkl := rfl
@[simp] theorem State.owe_pins (s : State) (n k t : Nat) : (s.owe n k t).pins = s.pins := rfl
@[simp] theorem State.owe_free (s : State) (n k t : Nat) : (s.owe n k t).free = s.free := rfl
@[simp] theorem State.owe_pending (s : State) (n k t : Nat) : (s.owe n k t).pending = s.pending := rfl

/-! ### State.unowe -/

@[simp] theorem State.unowe_params (s : State) (n k : Nat) : (s.unowe n k).params = s.params := rfl
@[simp] theorem State.unowe_ttb (s : State) (n k : Nat) : (s.unowe n k).ttb = s.ttb := rfl
@[simp] theorem State.unowe_stn (s : State) (n k : Nat) : (s.unowe n k).stn = s.stn := rfl
@[simp] theorem State.unowe_myd (s : State) (n k : Nat) : (s.unowe n k).myd = s.myd := rfl
@[simp] theorem State.unowe_ldg (s : State) (n k : Nat) : (s.unowe n k).ldg = s.ldg := rfl
@[simp] theorem State.unowe_sdg (s : State) (n k : Nat) : (s.unowe n k).sdg = s.sdg := rfl
@[simp] theorem State.unowe_trk (s : State) (n k : Nat) : (s.unowe n k).trk = s.trk := rfl
@[simp] theorem State.unowe_wtp (s : State) (n k : Nat) : (s.unowe n k).wtp = s.wtp := rfl
@[simp] theorem State.unowe_plt (s : State) (n k : Nat) : (s.unowe n k).plt = s.plt := rfl
@[simp] theorem State.unowe_wbr (s : State) (n k : Nat) : (s.unowe n k).wbr = s.wbr := rfl
@[simp] theorem State.unowe_ilk (s : State) (n k : Nat) : (s.unowe n k).ilk = s.ilk := rfl
@[simp] theorem State.unowe_dsp (s : State) (n k : Nat) : (s.unowe n k).dsp = s.dsp := rfl
@[simp] theorem State.unowe_sbx (s : State) (n k : Nat) : (s.unowe n k).sbx = s.sbx := rfl
@[simp] theorem State.unowe_mtr (s : State) (n k : Nat) : (s.unowe n k).mtr = s.mtr := rfl
@[simp] theorem State.unowe_mem (s : State) (n k : Nat) : (s.unowe n k).mem = s.mem := rfl
@[simp] theorem State.unowe_exp (s : State) (n k : Nat) : (s.unowe n k).exp = s.exp := rfl
@[simp] theorem State.unowe_tkl (s : State) (n k : Nat) : (s.unowe n k).tkl = s.tkl := rfl
@[simp] theorem State.unowe_pins (s : State) (n k : Nat) : (s.unowe n k).pins = s.pins := rfl
@[simp] theorem State.unowe_free (s : State) (n k : Nat) : (s.unowe n k).free = s.free := rfl
@[simp] theorem State.unowe_pending (s : State) (n k : Nat) : (s.unowe n k).pending = s.pending := rfl

/-! ### State.pendE -/

@[simp] theorem State.pendE_params (s : State) (e : EWrite) : (s.pendE e).params = s.params := rfl
@[simp] theorem State.pendE_ttb (s : State) (e : EWrite) : (s.pendE e).ttb = s.ttb := rfl
@[simp] theorem State.pendE_stn (s : State) (e : EWrite) : (s.pendE e).stn = s.stn := rfl
@[simp] theorem State.pendE_jct (s : State) (e : EWrite) : (s.pendE e).jct = s.jct := rfl
@[simp] theorem State.pendE_myd (s : State) (e : EWrite) : (s.pendE e).myd = s.myd := rfl
@[simp] theorem State.pendE_ldg (s : State) (e : EWrite) : (s.pendE e).ldg = s.ldg := rfl
@[simp] theorem State.pendE_sdg (s : State) (e : EWrite) : (s.pendE e).sdg = s.sdg := rfl
@[simp] theorem State.pendE_trk (s : State) (e : EWrite) : (s.pendE e).trk = s.trk := rfl
@[simp] theorem State.pendE_wtp (s : State) (e : EWrite) : (s.pendE e).wtp = s.wtp := rfl
@[simp] theorem State.pendE_plt (s : State) (e : EWrite) : (s.pendE e).plt = s.plt := rfl
@[simp] theorem State.pendE_wbr (s : State) (e : EWrite) : (s.pendE e).wbr = s.wbr := rfl
@[simp] theorem State.pendE_ilk (s : State) (e : EWrite) : (s.pendE e).ilk = s.ilk := rfl
@[simp] theorem State.pendE_sbx (s : State) (e : EWrite) : (s.pendE e).sbx = s.sbx := rfl
@[simp] theorem State.pendE_mtr (s : State) (e : EWrite) : (s.pendE e).mtr = s.mtr := rfl
@[simp] theorem State.pendE_mem (s : State) (e : EWrite) : (s.pendE e).mem = s.mem := rfl
@[simp] theorem State.pendE_exp (s : State) (e : EWrite) : (s.pendE e).exp = s.exp := rfl
@[simp] theorem State.pendE_tkl (s : State) (e : EWrite) : (s.pendE e).tkl = s.tkl := rfl
@[simp] theorem State.pendE_pins (s : State) (e : EWrite) : (s.pendE e).pins = s.pins := rfl
@[simp] theorem State.pendE_free (s : State) (e : EWrite) : (s.pendE e).free = s.free := rfl
@[simp] theorem State.pendE_pending (s : State) (e : EWrite) : (s.pendE e).pending = s.pending := rfl

/-! ### State.draw -/

@[simp] theorem State.draw_params (s : State) : (s.draw).params = s.params := rfl
@[simp] theorem State.draw_ttb (s : State) : (s.draw).ttb = s.ttb := rfl
@[simp] theorem State.draw_stn (s : State) : (s.draw).stn = s.stn := rfl
@[simp] theorem State.draw_jct (s : State) : (s.draw).jct = s.jct := rfl
@[simp] theorem State.draw_myd (s : State) : (s.draw).myd = s.myd := rfl
@[simp] theorem State.draw_ldg (s : State) : (s.draw).ldg = s.ldg := rfl
@[simp] theorem State.draw_sdg (s : State) : (s.draw).sdg = s.sdg := rfl
@[simp] theorem State.draw_trk (s : State) : (s.draw).trk = s.trk := rfl
@[simp] theorem State.draw_wtp (s : State) : (s.draw).wtp = s.wtp := rfl
@[simp] theorem State.draw_plt (s : State) : (s.draw).plt = s.plt := rfl
@[simp] theorem State.draw_wbr (s : State) : (s.draw).wbr = s.wbr := rfl
@[simp] theorem State.draw_ilk (s : State) : (s.draw).ilk = s.ilk := rfl
@[simp] theorem State.draw_dsp (s : State) : (s.draw).dsp = s.dsp := rfl
@[simp] theorem State.draw_sbx (s : State) : (s.draw).sbx = s.sbx := rfl
@[simp] theorem State.draw_mtr (s : State) : (s.draw).mtr = s.mtr := rfl
@[simp] theorem State.draw_mem (s : State) : (s.draw).mem = s.mem := rfl
@[simp] theorem State.draw_exp (s : State) : (s.draw).exp = s.exp := rfl
@[simp] theorem State.draw_tkl (s : State) : (s.draw).tkl = s.tkl := rfl
@[simp] theorem State.draw_pins (s : State) : (s.draw).pins = s.pins := rfl
@[simp] theorem State.draw_pending (s : State) : (s.draw).pending = s.pending := rfl

/-! ### Objects by number -/

theorem getD_modify {α : Type} (l : List α) (n m : Nat) (f : α → α) (d : α) :
    (l.modify n f).getD m d = if n = m ∧ m < l.length then f (l.getD m d) else l.getD m d := by
  simp only [List.getD_eq_getElem?_getD, List.getElem?_modify]
  by_cases h : m < l.length
  · by_cases hn : n = m <;> simp [h, hn]
  · simp [h]

theorem State.station_modStation (s : State) (n m : Nat) (f : Station → Station) :
    (s.modStation n f).station m = if n = m ∧ m < s.stn.length then f (s.station m) else s.station m :=
  getD_modify ..

@[simp] theorem State.station_modStation_self (s : State) (n : Nat) (f : Station → Station) (h : n < s.stn.length) :
    (s.modStation n f).station n = f (s.station n) := by
  simp [State.station_modStation, h]

@[simp] theorem State.station_modStation_ne (s : State) {n m : Nat} (f : Station → Station) (h : n ≠ m) :
    (s.modStation n f).station m = s.station m := by
  simp [State.station_modStation, h]

@[simp] theorem State.modStation_length (s : State) (n : Nat) (f : Station → Station) :
    (s.modStation n f).stn.length = s.stn.length :=
  List.length_modify ..

theorem State.siding_modSiding (s : State) (n m : Nat) (f : Siding → Siding) :
    (s.modSiding n f).siding m = if n = m ∧ m < s.sdg.desc.length then f (s.siding m) else s.siding m :=
  getD_modify ..

@[simp] theorem State.siding_modSiding_self (s : State) (n : Nat) (f : Siding → Siding) (h : n < s.sdg.desc.length) :
    (s.modSiding n f).siding n = f (s.siding n) := by
  simp [State.siding_modSiding, h]

@[simp] theorem State.siding_modSiding_ne (s : State) {n m : Nat} (f : Siding → Siding) (h : n ≠ m) :
    (s.modSiding n f).siding m = s.siding m := by
  simp [State.siding_modSiding, h]

@[simp] theorem State.modSiding_length (s : State) (n : Nat) (f : Siding → Siding) :
    (s.modSiding n f).sdg.desc.length = s.sdg.desc.length :=
  List.length_modify ..

theorem State.track_modTrack (s : State) (n m : Nat) (f : Track → Track) :
    (s.modTrack n f).track m = if n = m ∧ m < s.trk.length then f (s.track m) else s.track m :=
  getD_modify ..

@[simp] theorem State.track_modTrack_self (s : State) (n : Nat) (f : Track → Track) (h : n < s.trk.length) :
    (s.modTrack n f).track n = f (s.track n) := by
  simp [State.track_modTrack, h]

@[simp] theorem State.track_modTrack_ne (s : State) {n m : Nat} (f : Track → Track) (h : n ≠ m) :
    (s.modTrack n f).track m = s.track m := by
  simp [State.track_modTrack, h]

@[simp] theorem State.modTrack_length (s : State) (n : Nat) (f : Track → Track) :
    (s.modTrack n f).trk.length = s.trk.length :=
  List.length_modify ..

theorem State.part_modPart (s : State) (n m : Nat) (f : Part → Part) :
    (s.modPart n f).part m = if n = m ∧ m < s.ilk.parts.length then f (s.part m) else s.part m :=
  getD_modify ..

@[simp] theorem State.part_modPart_self (s : State) (n : Nat) (f : Part → Part) (h : n < s.ilk.parts.length) :
    (s.modPart n f).part n = f (s.part n) := by
  simp [State.part_modPart, h]

@[simp] theorem State.part_modPart_ne (s : State) {n m : Nat} (f : Part → Part) (h : n ≠ m) :
    (s.modPart n f).part m = s.part m := by
  simp [State.part_modPart, h]

@[simp] theorem State.modPart_length (s : State) (n : Nat) (f : Part → Part) :
    (s.modPart n f).ilk.parts.length = s.ilk.parts.length :=
  List.length_modify ..

theorem State.win_modWin (s : State) (n m : Nat) (f : CmdWin → CmdWin) :
    (s.modWin n f).win m = if n = m ∧ m < s.dsp.wins.length then f (s.win m) else s.win m :=
  getD_modify ..

@[simp] theorem State.win_modWin_self (s : State) (n : Nat) (f : CmdWin → CmdWin) (h : n < s.dsp.wins.length) :
    (s.modWin n f).win n = f (s.win n) := by
  simp [State.win_modWin, h]

@[simp] theorem State.win_modWin_ne (s : State) {n m : Nat} (f : CmdWin → CmdWin) (h : n ≠ m) :
    (s.modWin n f).win m = s.win m := by
  simp [State.win_modWin, h]

@[simp] theorem State.modWin_length (s : State) (n : Nat) (f : CmdWin → CmdWin) :
    (s.modWin n f).dsp.wins.length = s.dsp.wins.length :=
  List.length_modify ..

/-! ### What is read from other parts -/

@[simp] theorem State.now_modStation (s : State) (n : Nat) (f : Station → Station) :
    (s.modStation n f).now = s.now := rfl
@[simp] theorem State.core_modStation (s : State) (n : Nat) (f : Station → Station) :
    (s.modStation n f).core = s.core := rfl
@[simp] theorem State.fatal_modStation (s : State) (n : Nat) (f : Station → Station) :
    (s.modStation n f).fatal = s.fatal := rfl
@[simp] theorem State.timeRuns_modStation (s : State) (n : Nat) (f : Station → Station) :
    (s.modStation n f).timeRuns = s.timeRuns := rfl
@[simp] theorem State.fw_modStation (s : State) (n : Nat) (f : Station → Station) :
    (s.modStation n f).fw = s.fw := rfl
@[simp] theorem State.now_modSiding (s : State) (n : Nat) (f : Siding → Siding) : (s.modSiding n f).now = s.now := rfl
@[simp] theorem State.core_modSiding (s : State) (n : Nat) (f : Siding → Siding) :
    (s.modSiding n f).core = s.core := rfl
@[simp] theorem State.fatal_modSiding (s : State) (n : Nat) (f : Siding → Siding) :
    (s.modSiding n f).fatal = s.fatal := rfl
@[simp] theorem State.timeRuns_modSiding (s : State) (n : Nat) (f : Siding → Siding) :
    (s.modSiding n f).timeRuns = s.timeRuns := rfl
@[simp] theorem State.fw_modSiding (s : State) (n : Nat) (f : Siding → Siding) : (s.modSiding n f).fw = s.fw := rfl
@[simp] theorem State.now_modTrack (s : State) (n : Nat) (f : Track → Track) : (s.modTrack n f).now = s.now := rfl
@[simp] theorem State.core_modTrack (s : State) (n : Nat) (f : Track → Track) : (s.modTrack n f).core = s.core := rfl
@[simp] theorem State.fatal_modTrack (s : State) (n : Nat) (f : Track → Track) :
    (s.modTrack n f).fatal = s.fatal := rfl
@[simp] theorem State.timeRuns_modTrack (s : State) (n : Nat) (f : Track → Track) :
    (s.modTrack n f).timeRuns = s.timeRuns := rfl
@[simp] theorem State.fw_modTrack (s : State) (n : Nat) (f : Track → Track) : (s.modTrack n f).fw = s.fw := rfl
@[simp] theorem State.now_modPart (s : State) (n : Nat) (f : Part → Part) : (s.modPart n f).now = s.now := rfl
@[simp] theorem State.core_modPart (s : State) (n : Nat) (f : Part → Part) : (s.modPart n f).core = s.core := rfl
@[simp] theorem State.fatal_modPart (s : State) (n : Nat) (f : Part → Part) : (s.modPart n f).fatal = s.fatal := rfl
@[simp] theorem State.timeRuns_modPart (s : State) (n : Nat) (f : Part → Part) :
    (s.modPart n f).timeRuns = s.timeRuns := rfl
@[simp] theorem State.fw_modPart (s : State) (n : Nat) (f : Part → Part) : (s.modPart n f).fw = s.fw := rfl
@[simp] theorem State.now_modWin (s : State) (n : Nat) (f : CmdWin → CmdWin) : (s.modWin n f).now = s.now := rfl
@[simp] theorem State.core_modWin (s : State) (n : Nat) (f : CmdWin → CmdWin) : (s.modWin n f).core = s.core := rfl
@[simp] theorem State.fatal_modWin (s : State) (n : Nat) (f : CmdWin → CmdWin) : (s.modWin n f).fatal = s.fatal := rfl
@[simp] theorem State.timeRuns_modWin (s : State) (n : Nat) (f : CmdWin → CmdWin) :
    (s.modWin n f).timeRuns = s.timeRuns := rfl
@[simp] theorem State.fw_modWin (s : State) (n : Nat) (f : CmdWin → CmdWin) : (s.modWin n f).fw = s.fw := rfl
@[simp] theorem State.core_modStat (s : State) (n : Nat) (f : EpochStat → EpochStat) :
    (s.modStat n f).core = s.core := rfl
@[simp] theorem State.fatal_modStat (s : State) (n : Nat) (f : EpochStat → EpochStat) :
    (s.modStat n f).fatal = s.fatal := rfl
@[simp] theorem State.timeRuns_modStat (s : State) (n : Nat) (f : EpochStat → EpochStat) :
    (s.modStat n f).timeRuns = s.timeRuns := rfl
@[simp] theorem State.fw_modStat (s : State) (n : Nat) (f : EpochStat → EpochStat) : (s.modStat n f).fw = s.fw := rfl
@[simp] theorem State.now_modStat (s : State) (n : Nat) (f : EpochStat → EpochStat) :
    (s.modStat n f).now = s.now := rfl
@[simp] theorem State.now_emit (s : State) (n k : Nat) (r : Rec) : (s.emit n k r).now = s.now := rfl
@[simp] theorem State.core_emit (s : State) (n k : Nat) (r : Rec) : (s.emit n k r).core = s.core := rfl
@[simp] theorem State.fatal_emit (s : State) (n k : Nat) (r : Rec) : (s.emit n k r).fatal = s.fatal := rfl
@[simp] theorem State.timeRuns_emit (s : State) (n k : Nat) (r : Rec) : (s.emit n k r).timeRuns = s.timeRuns := rfl
@[simp] theorem State.fw_emit (s : State) (n k : Nat) (r : Rec) : (s.emit n k r).fw = s.fw := rfl
@[simp] theorem State.now_countOverdue (s : State) (l : List Owed) : (s.countOverdue l).now = s.now := rfl
@[simp] theorem State.core_countOverdue (s : State) (l : List Owed) : (s.countOverdue l).core = s.core := rfl
@[simp] theorem State.fatal_countOverdue (s : State) (l : List Owed) : (s.countOverdue l).fatal = s.fatal := rfl
@[simp] theorem State.timeRuns_countOverdue (s : State) (l : List Owed) :
    (s.countOverdue l).timeRuns = s.timeRuns := rfl
@[simp] theorem State.fw_countOverdue (s : State) (l : List Owed) : (s.countOverdue l).fw = s.fw := rfl
@[simp] theorem State.now_owe (s : State) (n k t : Nat) : (s.owe n k t).now = s.now := rfl
@[simp] theorem State.core_owe (s : State) (n k t : Nat) : (s.owe n k t).core = s.core := rfl
@[simp] theorem State.fatal_owe (s : State) (n k t : Nat) : (s.owe n k t).fatal = s.fatal := rfl
@[simp] theorem State.timeRuns_owe (s : State) (n k t : Nat) : (s.owe n k t).timeRuns = s.timeRuns := rfl
@[simp] theorem State.fw_owe (s : State) (n k t : Nat) : (s.owe n k t).fw = s.fw := rfl
@[simp] theorem State.now_unowe (s : State) (n k : Nat) : (s.unowe n k).now = s.now := rfl
@[simp] theorem State.core_unowe (s : State) (n k : Nat) : (s.unowe n k).core = s.core := rfl
@[simp] theorem State.fatal_unowe (s : State) (n k : Nat) : (s.unowe n k).fatal = s.fatal := rfl
@[simp] theorem State.timeRuns_unowe (s : State) (n k : Nat) : (s.unowe n k).timeRuns = s.timeRuns := rfl
@[simp] theorem State.fw_unowe (s : State) (n k : Nat) : (s.unowe n k).fw = s.fw := rfl
@[simp] theorem State.now_pendE (s : State) (e : EWrite) : (s.pendE e).now = s.now := rfl
@[simp] theorem State.core_pendE (s : State) (e : EWrite) : (s.pendE e).core = s.core := rfl
@[simp] theorem State.fatal_pendE (s : State) (e : EWrite) : (s.pendE e).fatal = s.fatal := rfl
@[simp] theorem State.timeRuns_pendE (s : State) (e : EWrite) : (s.pendE e).timeRuns = s.timeRuns := rfl
@[simp] theorem State.fw_pendE (s : State) (e : EWrite) : (s.pendE e).fw = s.fw := rfl
@[simp] theorem State.now_draw (s : State) : (s.draw).now = s.now := rfl
@[simp] theorem State.core_draw (s : State) : (s.draw).core = s.core := rfl
@[simp] theorem State.fatal_draw (s : State) : (s.draw).fatal = s.fatal := rfl
@[simp] theorem State.timeRuns_draw (s : State) : (s.draw).timeRuns = s.timeRuns := rfl
@[simp] theorem State.fw_draw (s : State) : (s.draw).fw = s.fw := rfl

end Sys2Proof.Machine
end

