-- ==== Sys2Proof/Laws/Ops.lean ====
section
/-! SUPPORT. What each shared operation can do, said once: occurrences, items, completions, the issue of a
packet, held writes. A proof about a command cites these and does not unfold the operation. -/

namespace Sys2Proof.Machine

/-! ### Guards -/

@[simp] theorem when_true (f : State → State) (s : State) : when true f s = f s := rfl

@[simp] theorem when_false (f : State → State) (s : State) : when false f s = s := rfl

theorem when_cases (c : Bool) (f : State → State) (s : State) :
    (c = true ∧ when c f s = f s) ∨ (c = false ∧ when c f s = s) := by cases c <;> simp

@[simp] theorem withSome_some {α : Type} (x : α) (f : α → State → State) (s : State) : withSome (some x) f s = f x s := rfl

@[simp] theorem withSome_none {α : Type} (f : α → State → State) (s : State) : withSome none f s = s := rfl

@[simp] theorem forEach_nil {α : Type} (f : α → State → State) (s : State) : forEach [] f s = s := rfl

@[simp] theorem forEach_cons {α : Type} (x : α) (l : List α) (f : α → State → State) (s : State) :
    forEach (x :: l) f s = forEach l f (f x s) := rfl

/-- What every effect of a loop keeps, the loop keeps. -/
theorem forEach_keeps {α : Type} (p : State → Prop) (l : List α) (f : α → State → State) (s : State) (hs : p s)
    (h : ∀ x t, p t → p (f x t)) : p (forEach l f s) := by
  induction l generalizing s with
  | nil => exact hs
  | cons x l ih => exact ih _ (h x s hs)

/-! ### Occurrences -/

/-- An occurrence joins the end of the Signal Box's waiting list with the present time, where the core runs; else it
is lost. -/
theorem State.post_cases (s : State) (o : Occurrence) :
    (s.core = true ∧
      s.post o = { s with sbx := { s.sbx with
        inbox := s.sbx.inbox ++ [{ o with time := s.ttb.time, arises := s.sbx.arising }] } }) ∨
    (s.core = false ∧ s.post o = s) := by
  unfold State.post
  cases s.core <;> simp [State.now]

/-- A U or F occurrence marks the epoch of its detection, and no other field of the state. -/
theorem State.markFault_cases (s : State) (t : Nat) :
    s.markFault t = s ∨
    (s.ttb.running = true ∧ s.markFault t = s.modStat (s.epochAt t) fun x => { x with fault := true }) := by
  unfold State.markFault
  cases s.ttb.running <;> simp

/-! ### Items and completions -/

/-- An item for siding `sid` is queued where it is live, counted where it is faulted, and else dropped. -/
theorem State.pushItem_cases (s : State) (sid : Nat) (it : ProdItem) :
    ((s.siding sid).state = 1 ∧ s.pushItem sid it = s.modSiding sid fun d => { d with prodq := d.prodq ++ [it] }) ∨
    ((s.siding sid).state = 2 ∧
      s.pushItem sid it = s.modSiding sid fun d => { d with faultDisc := sat 16 (d.faultDisc + 1) }) ∨
    ((s.siding sid).state ≠ 1 ∧ (s.siding sid).state ≠ 2 ∧ s.pushItem sid it = s) := by
  unfold State.pushItem
  by_cases h1 : (s.siding sid).state = 1
  · simp [h1]
  · by_cases h2 : (s.siding sid).state = 2 <;> simp [h1, h2]

/-- `t` differs from `s` at most in the sidings' descriptors, the windows and the held writes. -/
def RepliesOnly (s t : State) : Prop :=
  t = { s with sdg := { s.sdg with desc := t.sdg.desc }, dsp := { s.dsp with wins := t.dsp.wins, heldQ := t.dsp.heldQ } }

theorem RepliesOnly.refl (s : State) : RepliesOnly s s := rfl

theorem RepliesOnly.trans {s t u : State} (h : RepliesOnly s t) (g : RepliesOnly t u) : RepliesOnly s u := by
  unfold RepliesOnly at *
  rw [g, h]

theorem RepliesOnly.modSiding (s : State) (n : Nat) (f : Siding → Siding) : RepliesOnly s (s.modSiding n f) := rfl

theorem RepliesOnly.modWin (s : State) (n : Nat) (f : CmdWin → CmdWin) : RepliesOnly s (s.modWin n f) := rfl

theorem State.pushItem_only (s : State) (sid : Nat) (it : ProdItem) : RepliesOnly s (s.pushItem sid it) := by
  rcases s.pushItem_cases sid it with ⟨-, h⟩ | ⟨-, h⟩ | ⟨-, -, h⟩ <;> rw [h]
  · exact .modSiding ..
  · exact .modSiding ..
  · exact .refl s

/-- A completion: none is due, or it goes to the window's siding as an item, or it is lost and counted. -/
theorem State.complete_cases (s : State) (t : Ticket) (status result : Nat) (result2 : Word) :
    ((t.tkl = true ∨ (t.reply = false ∧ status = statusDone)) ∧ s.complete t status result result2 = s) ∨
    (t.tkl = false ∧ (t.reply = true ∨ status ≠ statusDone) ∧
      s.complete t status result result2 = s.pushItem (s.win t.w).compl (completionItem t status result result2)) ∨
    (t.tkl = false ∧ (s.siding (s.win t.w).compl).state ≠ 1 ∧ (s.siding (s.win t.w).compl).state ≠ 2 ∧
      s.complete t status result result2 = s.modWin t.w fun x => { x with lostRep := sat 16 (x.lostRep + 1) }) := by
  unfold State.complete
  by_cases h0 : t.tkl = true
  · simp [h0]
  · by_cases h1 : t.reply = true
    · by_cases h2 : (s.siding (s.win t.w).compl).state = 1 ∨ (s.siding (s.win t.w).compl).state = 2
      · simp [h0, h1, h2]
      · simp [h0, h1]; tauto
    · by_cases h3 : status = statusDone
      · simp [h1, h3]
      · by_cases h2 : (s.siding (s.win t.w).compl).state = 1 ∨ (s.siding (s.win t.w).compl).state = 2
        · simp [h0, h3, h2]
        · simp [h0, h1, h3]; tauto

theorem State.complete_only (s : State) (t : Ticket) (status result : Nat) (result2 : Word) :
    RepliesOnly s (s.complete t status result result2) := by
  rcases s.complete_cases t status result result2 with ⟨-, h⟩ | ⟨-, -, h⟩ | ⟨-, -, -, h⟩ <;> rw [h]
  · exact .refl s
  · exact s.pushItem_only ..
  · exact .modWin ..

theorem State.completeFree_only (s : State) (t : Ticket) (status result : Nat) (result2 : Word) :
    RepliesOnly s (s.completeFree t status result result2) := by
  unfold State.completeFree
  dsimp only
  split
  · exact .modWin ..
  · exact s.complete_only ..

theorem State.finish_only (s : State) (t : Ticket) (status result : Nat) (result2 : Word) :
    RepliesOnly s (s.finish t status result result2) := by
  unfold State.finish
  dsimp only
  split
  · exact s.complete_only ..
  · exact (s.complete_only ..).trans (.modWin ..)

theorem State.startLong_only (s : State) (t : Ticket) : RepliesOnly s (s.startLong t) := by
  unfold State.startLong
  split
  · exact .refl s
  · exact .modWin ..

theorem State.answer_only (s : State) (t : Ticket) (status result : Nat) (result2 : Word) :
    RepliesOnly s (s.answer t status result result2) := by
  unfold State.answer
  split
  · exact s.finish_only ..
  · exact s.complete_only ..

/-- `t` differs from `s` at most in the sidings' descriptors, the windows, the held writes and the plan and model
slots, whose `deferred` marks follow the held writes. -/
def HeldOnly (s t : State) : Prop :=
  t = { s with
    sdg := { s.sdg with desc := t.sdg.desc }, dsp := { s.dsp with wins := t.dsp.wins, heldQ := t.dsp.heldQ },
    wtp := { s.wtp with slots := t.wtp.slots }, plt := { s.plt with models := t.plt.models } }

theorem HeldOnly.refl (s : State) : HeldOnly s s := rfl

theorem HeldOnly.trans {s t u : State} (h : HeldOnly s t) (g : HeldOnly t u) : HeldOnly s u := by
  unfold HeldOnly at *
  rw [g, h]

theorem RepliesOnly.held {s t : State} (h : RepliesOnly s t) : HeldOnly s t := by
  unfold RepliesOnly at h
  unfold HeldOnly
  rw [h]

theorem setHeld_only (q : List HeldQ) (s : State) : HeldOnly s (setHeld q s) := rfl

/-- A plan slot keeps everything but its `deferred` mark when the held writes change. -/
theorem setHeld_slot (q : List HeldQ) (s : State) (k : Nat) :
    (setHeld q s).wtp.slots[k]? =
      s.wtp.slots[k]?.map fun x => { x with deferred := q.any fun h => h.unit == unitPlan k } := by
  simp [setHeld, List.getElem?_mapIdx]

/-- A model slot keeps everything but its `deferred` mark when the held writes change. -/
theorem setHeld_model (q : List HeldQ) (s : State) (k : Nat) :
    (setHeld q s).plt.models[k]? =
      s.plt.models[k]?.map fun x => { x with deferred := q.any fun h => h.unit == unitModel k } := by
  simp [setHeld, List.getElem?_mapIdx]

/-- Held writes that meet `p` answer ABORTED; nothing else changes. -/
theorem abortHeld_only (p : HeldQ → Bool) (s : State) : HeldOnly s (abortHeld p s) := by
  unfold abortHeld
  exact forEach_keeps (HeldOnly s) _ _ _ (setHeld_only ..) fun h t ht => ht.trans (t.finish_only ..).held

/-- Held writes of a unit that are dropped answer ABORTED; nothing else changes. -/
theorem dropHeld_only (unit : Nat) (s : State) : HeldOnly s (dropHeld unit s) := abortHeld_only ..

/-- A deferred write answers DEFERRED and waits in the queue of its unit; nothing else changes. -/
theorem defer_only (unit : Nat) (pk : List Word) (t : Ticket) (s : State) : HeldOnly s (defer unit pk t s) := by
  have h := (dropHeld_only unit s).trans ((dropHeld unit s).complete_only t statusDeferred 0 0).held
  unfold defer
  dsimp only
  split
  · exact h.trans (setHeld_only ..)
  · exact (h.trans (RepliesOnly.modWin ..).held).trans (setHeld_only ..)

/-! ### The issue of a packet -/

/-- A packet leaves its window: nothing but the windows and the round changes. -/
theorem takePacket_eq (w : Nat) (s : State) : takePacket w s =
    { s with dsp := { s.dsp with
      wins := s.dsp.wins.modify w fun x => { x with ready := x.ready.drop 1 }, round := (roundPlace w + 1) % 17 } } := rfl

/-- Everything that the issue of opcode `op` from window `w` can do: nothing; ABORTED or NOT_PERMITTED for the packet
that leaves the window; or the command's own effect on the state that the packet has left. -/
theorem issue_cases (op w : Nat) (act : List Word → Ticket → State → State) (s : State) :
    issue op w act s = s ∨
    ∃ p, headPacket s w = some p ∧ s.fw = true ∧ nextInRound s = some w ∧ pkOpcode p.words = op ∧
      (issue op w act s = (takePacket w s).complete (ticketOf w p.words) statusAborted 0 0 ∨
       issue op w act s = (takePacket w s).complete (ticketOf w p.words) statusNotPermitted 0 0 ∨
       issue op w act s = act p.words (ticketOf w p.words) (takePacket w s)) := by
  unfold issue
  split
  · exact .inl rfl
  · rename_i p hp
    split
    · rename_i hc
      simp only [Bool.and_eq_true, beq_iff_eq] at hc
      refine .inr ⟨p, hp, hc.1.1, hc.1.2, hc.2, ?_⟩
      dsimp only
      split
      · exact .inl rfl
      · split
        · exact .inr (.inl rfl)
        · exact .inr (.inr rfl)
    · exact .inl rfl

end Sys2Proof.Machine
end

