-- ==== Sys2Proof/Laws/Sparse.lean ====
section
/-! SUPPORT. The laws of sparse storage: a value stored is the value read there, every other place reads as
before, and the canonical form is kept. -/

namespace Sys2Proof.Machine

variable {β : Type} [DecidableEq β]

/-- Every key of the list lies above `k`. -/
def KeysAbove (k : Nat) (l : List (Nat × β)) : Prop := ∀ e ∈ l, k < e.1

theorem canonical_cons {d : β} {i : Nat} {v : β} {r : List (Nat × β)} :
    canonical d ((i, v) :: r) = true ↔ v ≠ d ∧ KeysAbove i r ∧ canonical d r = true := by
  induction r generalizing i v with
  | nil => simp [canonical, KeysAbove]
  | cons x r ih =>
    obtain ⟨j, w⟩ := x
    simp only [canonical, Bool.and_eq_true, decide_eq_true_eq, KeysAbove]
    constructor
    · rintro ⟨⟨hij, hv⟩, h⟩
      refine ⟨hv, ?_, h⟩
      intro e he
      rcases List.mem_cons.mp he with rfl | he
      · exact hij
      · exact lt_trans hij ((ih.mp h).2.1 e he)
    · rintro ⟨hv, hk, h⟩
      exact ⟨⟨hk (j, w) (by simp), hv⟩, h⟩

theorem keysAbove_store {d : β} {i k : Nat} {v : β} {l : List (Nat × β)} (hl : KeysAbove i l)
    (hk : i < k) : KeysAbove i (store d k v l) := by
  induction l with
  | nil => intro e he; simp only [store] at he; split at he <;> simp_all
  | cons x r ih =>
    obtain ⟨j, w⟩ := x
    have hj : i < j := hl (j, w) (by simp)
    have hr : KeysAbove i r := fun e he => hl e (by simp [he])
    intro e he
    simp only [store] at he
    split at he
    · split at he
      · exact hl e he
      · rcases List.mem_cons.mp he with rfl | he
        · exact hk
        · exact hl e he
    · split at he
      · split at he
        · exact hr e he
        · rcases List.mem_cons.mp he with rfl | he
          · exact hk
          · exact hr e he
      · rcases List.mem_cons.mp he with rfl | he
        · exact hj
        · exact ih hr e he

/-- Storing keeps the canonical form. -/
theorem canonical_store {d : β} {k : Nat} {v : β} {l : List (Nat × β)} (h : canonical d l = true) :
    canonical d (store d k v l) = true := by
  induction l with
  | nil => simp only [store]; split <;> simp_all [canonical]
  | cons x r ih =>
    obtain ⟨j, w⟩ := x
    obtain ⟨hw, ha, hr⟩ := canonical_cons.mp h
    simp only [store]
    split
    · rename_i hkj
      split
      · exact h
      · refine canonical_cons.mpr ⟨by assumption, ?_, h⟩
        intro e he
        rcases List.mem_cons.mp he with rfl | he
        · exact hkj
        · exact lt_trans hkj (ha e he)
    · split
      · rename_i hkj
        subst hkj
        split
        · exact hr
        · exact canonical_cons.mpr ⟨by assumption, ha, hr⟩
      · exact canonical_cons.mpr ⟨hw, keysAbove_store ha (by omega), ih hr⟩

theorem look_of_keysAbove {d : β} {k : Nat} {l : List (Nat × β)} (h : KeysAbove k l) :
    look d k l = d := by
  cases l with
  | nil => rfl
  | cons x r =>
    obtain ⟨j, w⟩ := x
    have : k < j := h (j, w) (by simp)
    simp [look, this]

/-- A place stored to reads the value stored. -/
theorem look_store_self {d : β} {k : Nat} {v : β} {l : List (Nat × β)} (h : canonical d l = true) :
    look d k (store d k v l) = v := by
  induction l with
  | nil => simp only [store]; split <;> simp_all [look]
  | cons x r ih =>
    obtain ⟨j, w⟩ := x
    obtain ⟨-, ha, hr⟩ := canonical_cons.mp h
    simp only [store]
    split
    · split <;> simp_all [look]
    · split
      · rename_i hkj
        subst hkj
        split
        · simp_all [look_of_keysAbove ha]
        · simp [look]
      · simp_all [look]

/-- Every other place reads as before. -/
theorem look_store_other {d : β} {j k : Nat} {v : β} {l : List (Nat × β)} (h : canonical d l = true)
    (hjk : j ≠ k) : look d j (store d k v l) = look d j l := by
  induction l with
  | nil => simp only [store]; split <;> simp [look, hjk]
  | cons x r ih =>
    obtain ⟨i, w⟩ := x
    obtain ⟨-, ha, hr⟩ := canonical_cons.mp h
    simp only [store]
    split
    · rename_i hki
      split
      · rfl
      · simp only [look]
        by_cases h1 : j < k
        · simp [h1, show j < i by omega]
        · simp [h1, hjk]
    · split
      · rename_i hki
        subst hki
        split
        · simp only [look]
          by_cases h1 : j < k
          · simp only [h1, if_true]
            exact look_of_keysAbove fun e he => lt_trans h1 (ha e he)
          · simp [h1, hjk]
        · simp only [look]
          by_cases h1 : j < k <;> simp [h1, hjk]
      · simp only [look]
        rw [ih hr]

/-- Two canonical lists that read alike everywhere are the same list. -/
theorem canonical_ext {d : β} {l m : List (Nat × β)} (hl : canonical d l = true)
    (hm : canonical d m = true) (h : ∀ k, look d k l = look d k m) : l = m := by
  induction l generalizing m with
  | nil =>
    cases m with
    | nil => rfl
    | cons y m =>
      obtain ⟨j, w⟩ := y
      have := h j
      simp [look] at this
      exact absurd this.symm (canonical_cons.mp hm).1
  | cons x l ih =>
    obtain ⟨i, v⟩ := x
    obtain ⟨hv, ha, hr⟩ := canonical_cons.mp hl
    cases m with
    | nil =>
      have := h i
      simp [look] at this
      exact absurd this hv
    | cons y m =>
      obtain ⟨j, w⟩ := y
      obtain ⟨hw, hb, hs⟩ := canonical_cons.mp hm
      have hi := h i
      have hj := h j
      simp only [look] at hi hj
      have hij : i = j := by
        rcases lt_trichotomy i j with hlt | heq | hgt
        · simp [hlt] at hi; exact absurd hi hv
        · exact heq
        · simp [hgt] at hj; exact absurd hj.symm hw
      subst hij
      simp at hi
      subst hi
      congr 1
      refine ih hr hs fun k => ?_
      have hk := h k
      simp only [look] at hk
      by_cases h1 : k < i
      · rw [look_of_keysAbove fun e he => lt_trans h1 (ha e he),
          look_of_keysAbove fun e he => lt_trans h1 (hb e he)]
      · by_cases h2 : k = i
        · subst h2
          rw [look_of_keysAbove ha, look_of_keysAbove hb]
        · simpa [h1, h2] using hk

/-- A filter keeps the canonical form: what it drops reads as the default. -/
theorem canonical_filter {d : β} {p : Nat × β → Bool} {l : List (Nat × β)}
    (h : canonical d l = true) : canonical d (l.filter p) = true := by
  induction l with
  | nil => rfl
  | cons x r ih =>
    obtain ⟨i, v⟩ := x
    obtain ⟨hv, ha, hr⟩ := canonical_cons.mp h
    simp only [List.filter_cons]
    split
    · exact canonical_cons.mpr ⟨hv, fun e he => ha e (List.mem_filter.mp he).1, ih hr⟩
    · exact ih hr

/-- A fold of stores keeps the canonical form. -/
theorem canonical_foldl_store {α : Type} {d : β} {f : α → Nat} {g : α → β} {xs : List α}
    {l : List (Nat × β)} (h : canonical d l = true) :
    canonical d (xs.foldl (fun l a => store d (f a) (g a) l) l) = true := by
  induction xs generalizing l with
  | nil => exact h
  | cons a xs ih => exact ih (canonical_store h)

end Sys2Proof.Machine
end

