-- ==== Sys2Proof/Machine/Flags.lean ====
section
/-! DEFINITION. The interrupt lines of the register port, and all outputs that hold a level, as they follow the
state (chapter "Boundary ports and integration"). -/

namespace Sys2Proof.Machine

/-- Some siding of `owner` is pending (R163). -/
def ownerPending (s : State) (owner : Nat) : Bool :=
  s.sdg.desc.any fun d => d.owner == owner && sidingPending d

/-- INT_P[n] (R284). -/
def intP (s : State) (n : Nat) : Bool :=
  (s.part n).state == 1 && (ownerPending s n || (s.part n).pint != 0)

/-- INT_ROOT (R285). -/
def intRoot (s : State) : Bool := ownerPending s 16 || s.ilk.rint != 0

/-- INT_SBX (R310). -/
def intSbx (s : State) : Bool := bit s.sbx.cfg 1 && s.sbx.recs.any (·.valid)

/-! ## The outputs of the core macro (Tables 02-5 to 02-8) -/

/-- The outputs that hold a level between the handshakes of the ports. -/
structure Outputs where
  heartbeat   : Bool
  safeReq     : Bool
  faultClass  : BitVec 2
  degradeReq  : BitVec 16
  govHint     : BitVec 64
  sdgXoff     : BitVec 4
  intPart     : BitVec 16
  intRoot     : Bool
  intSbx      : Bool
  regRdata    : BitVec 64
  fuseReq     : Bool
  fuseAddr    : BitVec 6
  tklTokenOut : Bool
  deriving DecidableEq, Repr

/-- The reset values of the outputs. -/
def outputsReset : Outputs :=
  { heartbeat := false, safeReq := true, faultClass := 3, degradeReq := 0, govHint := 0, sdgXoff := 0, intPart := 0,
    intRoot := false, intSbx := false, regRdata := 0, fuseReq := false, fuseAddr := 0, tklTokenOut := false }

/-- What the functional logic drives. -/
def outputsDriven (s : State) : Outputs :=
  { heartbeat := s.sbx.heartbeat, safeReq := s.sbx.safeReq, faultClass := BitVec.ofNat 2 s.sbx.faultClass,
    degradeReq := s.sbx.degrade, govHint := s.sbx.govHint,
    sdgXoff := BitVec.ofNat 4 (maskOf ((List.range 4).filter fun i => (s.siding i).xoff)),
    intPart := BitVec.ofNat 16 (maskOf ((List.range 16).filter (intP s))), intRoot := intRoot s, intSbx := intSbx s,
    regRdata := s.pins.regData, fuseReq := s.pins.fuseReq, fuseAddr := BitVec.ofNat 6 s.pins.fuseAddr,
    tklTokenOut := s.tkl.addrValid }

/-- What the cells of the boundary register drive. -/
def outputsBoundary (v : Nat) : Outputs :=
  { heartbeat := v.testBit 0, safeReq := v.testBit 1, faultClass := BitVec.ofNat 2 (v / 2 ^ 2),
    degradeReq := BitVec.ofNat 16 (v / 2 ^ 4), govHint := BitVec.ofNat 64 (v / 2 ^ 20),
    sdgXoff := BitVec.ofNat 4 (v / 2 ^ 84), intPart := BitVec.ofNat 16 (v / 2 ^ 88), intRoot := v.testBit 104,
    intSbx := v.testBit 105, regRdata := BitVec.ofNat 64 (v / 2 ^ 106), fuseReq := v.testBit 170,
    fuseAddr := BitVec.ofNat 6 (v / 2 ^ 171), tklTokenOut := v.testBit 177 }

/-- The outputs: their reset values while they are held, the boundary register in WS_EXTEST, else what the functional
logic drives (R29, R52, R55, R56). -/
def outputs (s : State) : Outputs :=
  if s.outputsHeld then outputsReset
  else if s.drives then outputsDriven s
  else outputsBoundary (Config.boundaryRegister s.free)

/-- What ZF_STATUS puts between WSI and WSO (Table 02-13); other instructions show no word of the block. -/
def wrapperWord (s : State) : Option Word :=
  if s.pins.wir = 0x10 then some (Config.selfTestWord s.free) else none

end Sys2Proof.Machine
end

