-- ==== Sys2Proof/WellFormed.lean ====
section
/-! DEFINITION. Well-formed commands: the operands name objects that the block has. `exec` is total: a
command with an operand outside these ranges meets no object and has no effect on it. -/

namespace Sys2Proof

/-- A command window: 0-15 the tenants, 16 Root (Table 14-2). -/
def wfWin (w : Nat) : Bool := w < 17

def wfStation (n : Nat) : Bool := n < 64

def wfTrack (t : Nat) : Bool := t < 4

/-- An optional subsystem of the self-test report: 1, 4, 5 or 6 (Table 20-2). -/
def wfBist (r : BistResult) : Bool :=
  r.words.all fun x => [1, 4, 5, 6].contains x.subsystem

def wfInputs (inp : StnInputs) : Bool := inp.occ.length ≤ 64

/-- Whether the operands of a command name objects of the block. -/
def Instr.wf : Instr → Bool
  | .startupSelftestComplete r => wfBist r
  | .stnRstAssert n | .stnRstRelease n | .vioStnOff n | .vioStnOn n => wfStation n
  | .fsyncEdge i => i < 16
  | .stationDelayMeasured n _ | .deltaBankTimer n | .deltaBankHandoverEnd n _
  | .stationRecordHandover n _ | .lineClearToken n | .stationPark n | .stationUnpark n _
  | .stationFail n | .stnViewSelRead n | .operandBeatDeliver n _ | .ledgerDeltaApply n _
  | .tallyDeltaAdd n _ => wfStation n
  | .stationEdge n _ inp => wfStation n && wfInputs inp
  | .internalRecordOverdue src => src < 6
  | .payloadClose i => i < 33
  | .ledgerPatrol i _ => i < 1048576
  | .snapshotTimeout i => i < 17
  | .sidingWordWrite i | .sidingItemClose i | .drainItemWrite i _ _ | .sdgFlushComplete i => i < 256
  | .sdgPop page slot _ _ => (page < 16 && slot < 16) || (page == 16 && slot < 256)
  | .portClockStall i => i < 3
  | .exportFrameStart l _ _ | .exportBeatAccept l | .exportEofAccept l | .exportAbortAccept l => l < 2
  | .sessionEndClock o => o < 17
  | .frameWindowOpen i | .frameWindowClose i => i < 16
  | .workItemStart t | .chunkDecryptComplete t _ | .trackPassEnd t _ | .knownAnswerTileEnd t _
  | .sequencerWatchdog t | .sampleSetCommit t _ | .pilotFrameStart t => wfTrack t
  | .pilotReadyTime i | .pilotFrameJudge i | .pilotOverrun i => i < 16
  | .commandWindowWrite w _ _ | .packetDiscardTimeout w | .packetAbandon w | .unknownOp w | .nop w
  | .readVersion w | .commit w | .govSet w | .epochSet w | .partCreate w | .partDetach w
  | .windowSet w | .grant w | .stnConfig w | .stnTagmap w | .stnThresh w | .stnSnoopwin w
  | .ldgRead w _ | .ldgReadPair w _ | .ldgChain w | .ldgSnapcfg w | .ldgClear w | .sdgCreate w
  | .sdgMark w | .sdgRewind w | .sdgRelease w | .sdgFlush w | .sdgLevel w | .sdgWatermark w
  | .planLoad w | .planArm w | .planDisarm w | .coverSet w | .pltLoad w | .pltZones w | .pltArm w
  | .wbrConfig w | .sessionOpen w | .sessionClose w | .bundleUnwrap w | .sbxConfig w
  | .sbxReadrec w | .sbxClear w | .reactSet w | .mtrMap w | .ttbSet w
  | .inject w | .selftest w => wfWin w
  | .mtrRead c | .mtrEvidence c => wfWin c.w
  | .detachScrubStart p | .detachComplete p | .ldgUreadData p _ | .ldgUreadPairLo p _
  | .ilkPintRc p => p < 16
  | .quietPeriodExpire i => i < 32
  | .conductorWatchdogExpire i | .lockstepMiscompare i => i < 2
  | .mtrMapWrite t _ _ => t < 256
  | .porstAssert | .porstRelease | .fuseWordSample _ | .meterReady | .firmwareBootComplete
  | .stationEnumTokenReturn _ | .blkRstAssert | .blkRstRelease | .mtrRstAssert | .mtrRstRelease
  | .vqOff | .vqOn | .wrapperInstructionUpdate _ | .timeAdvance _ _ | .timeValidFall
  | .holdoverExpire | .ppsEdge | .syntheticMasterEdge | .internalMasterEdge | .upperTimeMessage
  | .epochBoundary | .epochStatusClose | .governorRefill | .rateMonitorMeasure _ _ _
  | .junctionRelease | .mydRecordDeliver _ | .sweepTraverseStart | .sweepWordVisit _ | .tallyLatch
  | .memCmdIssue _ | .memWriteBeat | .memReadBeat _ _ _ _ | .memWriteResponse _ _ | .memTimeout _
  | .epochPreparation | .verdictDeadline | .statisticsClose | .commitHeldResume
  | .selftestDone _ _ _ | .qWriteApply _ | .ilkRintRc | .entropyBlock _ | .sbxOccurrenceReceive
  | .cQuietExpire | .heartbeatToggle | .faultClassIntermediateEnd | .sbxSelfCheckMiscompare
  | .sealOpen | .sealClose | .meterClosingRetry | .meterCoreStall | .ttbCfgWrite _ _
  | .mtrImgCtlBegin _ _ | .mtrImgDataWrite _ _ | .registerWriteOther _ _ _ | .tklFrameForward _
  | .tklNop _ | .tklEnum _ _ | .tklRead _ | .tklReadCnt _ _ | .tklReadCntHi _ | .tklWrite _
  | .tklWritePartCreate _ | .tklWritePartDetach _ | .tklWriteMirror _ | .tklWriteWindow _
  | .tklWriteSdgCreate _ | .tklWriteSdgFree _ | .tklWriteStnViewSel _ | .tklTake _ | .tklGive _
  | .tklForce _ | .tklRelease _ | .tklCommit _ | .tklClearRec _ | .tklSetver _
  | .takeoverLeaseExpire => true

end Sys2Proof
end

