-- ==== Sys2Proof/Tests/Slice0.lean ====
section
/-! SUPPORT. The model's own tests: well-formedness refuses what is ill-formed, a few single steps with results
taken from the spec, and for every claim a concrete state and operands that meet its hypotheses together.
The states are built from reset by naming the fields that differ; no run produces them. -/

set_option Elab.async false

open Sys2Proof Sys2Proof.Machine Sys2Proof.Claims

namespace Sys2Proof.Tests

/-! ## States to test in -/

/-- A command packet: opcode, parameter with the reply bit in bit 32, and the words after word 0. -/
def packet (op param : Nat) (args : List Word) : List Word :=
  BitVec.ofNat 64 (op * 2 ^ 56 + 7 * 2 ^ 40 + args.length * 2 ^ 36 + param) :: args

/-- The block after start-up: a core that runs its firmware, 64 stations, four tracks, partition 3 with its window,
and the completion sidings 255 of Root and 200 of partition 3. -/
def rig : State :=
  { State.reset with
    pins := { Pins.reset with porstN := true }
    ttb := { Timetable.reset with
      time := 50000000, anyBoundary := true, everValid := true, anyEpoch := true, running := true, epoch := 5,
      epochT := 40000000, lastEdge := 40000000 }
    stn := List.replicate 64 { Station.reset with addressed := true, st := .running }
    trk := List.replicate 4 { Track.reset with state := 1, tokens := 1000 }
    sdg := { Sidings.reset with desc :=
      ((Sidings.reset.desc.set 255 { Siding.reset with state := 1, producer := 2 }).set 200
        { Siding.reset with state := 1, producer := 2, owner := 3, base := 4096 }) }
    ilk := { Interlock.reset with parts := Interlock.reset.parts.set 3 { Part.reset with state := 1 }, trng := 1 }
    dsp := { Dispatcher.reset with
      wins := (Dispatcher.reset.wins.set 16 { CmdWin.reset with isOpen := true, compl := 255 }).set 3
        { CmdWin.reset with isOpen := true, compl := 200 }
      boot := { Boot.reset with state := 1 }, coresRun := true, enumCount := 64 }
    sbx := { SignalBox.reset with taken := true, state := 1, safeReq := false, faultClass := 0, fcTarget := 0 } }

/-- `s` with one ready packet in window `w`. -/
def sent (w : Nat) (pk : List Word) (s : State) : State := s.modWin w fun x => { x with ready := [{ words := pk }] }

/-- `s` at block time `t`. -/
def at_ (t : Nat) (s : State) : State := { s with ttb := { s.ttb with time := t } }

def after (c : Instr) (s : State) : State := match exec c s with | .next t => t | _ => s

def boundaryAtT (t : Nat) (step : Bool) : Boundary := { t := t, edge := t - 4000, kind := .internal, step := step }

/-- The announced boundary and the master of the epochs. -/

def master (m : Nat) (s : State) : State :=
  { s with ttb := { s.ttb with epochCfg := put (put epochCfgReset 0 5 m) 8 1 1, eff := put (put epochCfgReset 0 5 m) 8 1 1 } }

def announced (t : Nat) (s : State) : State := { s with ttb := { s.ttb with announced := some (boundaryAtT t false) } }

def takenOver (s : State) : State := { s with dsp := { s.dsp with takeover := true } }

def asmOf (words : List Word) (drop : Bool) (t0 : Nat) (w : Nat) (s : State) : State :=
  s.modWin w fun x => { x with asm := some { need := 3, words := words, t0 := t0, drop := drop } }

def theDetach (p : Nat) (scrub scrubEnd : Bool) (snap : Option Bool) : Detach :=
  { p := p, ticket := ticketOf 16 (packet 0x11 (2 ^ 32 + p) []), at_ := some 7, tdDone := true, td := some 7, snapOk := snap,
    mask := 0, scrub := scrub, scrubEnd := scrubEnd, failed := false }

def detaching (p state : Nat) (scrub scrubEnd : Bool) (snap : Option Bool) : State :=
  let s := rig.modPart p fun x => { x with state := state }
  { s with ilk := { s.ilk with detaches := [theDetach p scrub scrubEnd snap] } }

def identified (s : State) : State :=
  { s with ilk := { s.ilk with identity := some { d := 5, qx := 1, qy := 2, deviceId := [] } } }

def keyed (k bundle owner : Nat) (s : State) : State :=
  { s with ilk := { s.ilk with keys := s.ilk.keys.set k (some { bundle := bundle, key := List.replicate 16 0, owner := owner }) } }

/-- Raw noise that passes both health tests. -/

def noise : BitVec 1024 :=
  BitVec.ofNat 1024 (0x5A3C96F00F1E2D4B * (2 ^ 64 + 1) * (2 ^ 128 + 1) * (2 ^ 256 + 1) * (2 ^ 512 + 1))

def stnWith (n : Nat) (f : Station → Station) (s : State) : State := s.modStation n f

def aRec (type ts src seq : Nat) : Rec := { mkRec type ts src 0 0 [] with seq := seq }

def noIn : StnInputs := { ev := 0, occ := [], snoop := none, tag := none, acc := none }

def clearTo (t : Nat) (s : State) : State := { s with stn := s.stn.map fun x => { x with tLc := t } }

def stnInput (n : Nat) (q : List Rec) (s : State) : State := { s with jct := { s.jct with stnIn := s.jct.stnIn.set n q } }

def owing (o : Owed) (s : State) : State := { s with jct := { s.jct with owed := [o] } }

def inYard (q : List Rec) (s : State) : State := { s with myd := { s.myd with inq := q } }

def mkSiding (sid : Nat) (d : Siding) (s : State) : State := { s with sdg := { s.sdg with desc := s.sdg.desc.set sid d } }

/-- A live ordinary siding of partition 3. -/

def aSiding : Siding := { Siding.reset with state := 1, owner := 3, producer := 1, base := 8192 }

def aDest (k : Nat) : Dest := { stream := 3, siding := some k, exp := false, comp := false, trailer := true }

def aSession (sid : Nat) : Session := { Session.reset with isOpen := true, siding := sid, id := 9 }

def withSession (o : Nat) (x : Session) (s : State) : State := { s with exp := { s.exp with sess := s.exp.sess.set o x } }

def delta (ctx ev count epoch : Nat) (lost : Bool) : Delta :=
  { ctx := ctx, ev := ev, count := count, epoch := epoch, mark := false, lost := lost }

def arrived (n : Nat) (d : Delta) (s : State) : State := { s with ldg := { s.ldg with inq := s.ldg.inq.set n [d] } }

def chain (n : Nat) (s : State) : State :=
  { s with ldg := { s.ldg with eff := { s.ldg.eff with chain := s.ldg.eff.chain.set (4 * n) 1 } } }

def wordIs (i : Nat) (w : LWord) (s : State) : State := { s with ldg := { s.ldg with words := store LWord.zero i w s.ldg.words } }

def aSweep (pos : Nat) (started : Bool) : Sweep :=
  { t := 49000000, epoch := 6, clear := 0, oldChain := List.replicate 256 0, taken := [], started := started, pos := pos,
    owners := List.replicate 32 16 }

def sweeping (w : Sweep) (s : State) : State := { s with ldg := { s.ldg with sweep := some w } }

def aSnap (slot : Nat) : Snap :=
  { slot := slot, owner := slot, epoch := 4, t := 49000000, base := 0, mask := 1, entries := [], lost := false, ovf := false,
    issued := false, pending := 0, done := false, withdrawn := false, sent := false }

def userSel (p : Nat) (w : Word) (s : State) : State := { s with ldg := { s.ldg with userSel := s.ldg.userSel.set p w } }

def ctxWord (c : Nat) (w : Word) (s : State) : State := { s with ldg := { s.ldg with ctx := s.ldg.ctx.set c w } }

def aPayload : Payload := { bytes := [1, 2, 3], firstTs := 49000000, lastTs := 49000005, count := 2, openAt := 49900000 }

def openPayload (i : Nat) (s : State) : State :=
  { s with myd := { s.myd with streams := s.myd.streams.modify i fun x => { x with payload := some aPayload } } }

def mapTally (k n ctx ev : Nat) (s : State) : State :=
  { s with mtr := { s.mtr with map := s.mtr.map.set k (pack [(63, 1, 1), (50, 6, n), (41, 9, ev), (ctx, 1, 1)]) } }

/-- The meter core runs, in the given state. -/

def metered (state : Nat) (isOpen : Bool) (s : State) : State :=
  { s with mtr := { s.mtr with ready := true, state := state, sealOpen := isOpen } }

def entropy (n : Nat) (s : State) : State := { s with ilk := { s.ilk with entropy := List.replicate n 1 } }

/-- Siding `sid` is `d` with the given words in its pool place and its producer's pointer behind them. -/

def filled (sid : Nat) (d : Siding) (words : List Word) (s : State) : State :=
  let put := fun l i => store 0 (d.base / 8 + i) (words.getD i 0) l
  let s := mkSiding sid { d with wr := words.length } s
  { s with sdg := { s.sdg with pool := (List.range words.length).foldl put s.sdg.pool } }

def lengthWord (n : Nat) : Word := pack [(60, 2, 0), (53, 7, 2), (16, 32, 7), (0, 16, n)]

def anItem : ProdItem := { kind := .record, src := 2, seq := 7, words := [0x11, 0x22] }

def aTicket (w op : Nat) : Ticket := { w := w, seq := 7, op := op, reply := true, later := false, tkl := false }

def aFlush (left : Nat) (discard : Bool) : Flush :=
  { ticket := aTicket 3 0x44, discard := discard, point := 3, left := left, moved := 0, applied := true }

def aJob (len : Nat) (write : Bool) (p : Purpose) : Job :=
  { id := 1, cls := 3, owner := 3, write := write, addr := 4096, len := len, bytes := [], purpose := p, issued := 0, open_ := 0,
    got := [], err := 0, bad := 0 }

def aTxn (write : Bool) : Txn :=
  { id := 5, job := 1, cls := 3, write := write, addr := 4096, beats := 2, got := 0, at_ := 49000000, dead := false, bad := false,
    part := 3 }

def jobs (l : List Job) (t : List Txn) (s : State) : State := { s with mem := { s.mem with jobs := l, txns := t } }

/-- Partition 3 may read and write the 64 KiB from 4096 on. -/

def windowed (s : State) : State :=
  { s with ilk := { s.ilk with win := s.ilk.win.set 3 (List.replicate 4 { base := 4096 + 3, size := 65536 }) } }

def aFrame (o : Nat) (n : Nat) (item last : Bool) : Frame :=
  { owner := o, sid := 9, itemEnd := 3, bytes := List.replicate n 0xAA, sent := 0, last := last, hasItem := item }

def laneWith (l : Nat) (f : Option Frame) (abort resets : Bool) (s : State) : State :=
  { s with exp := { s.exp with lanes := s.exp.lanes.set l { Lane.reset with cur := f, abort := abort, resets := resets } } }

def stalled (t : Nat) (s : State) : State := { s with exp := { s.exp with stallAt := some t } }

def generator : List Word :=
  [0x6B17D1F2E12C4247, 0xF8BCE6E563A440F2, 0x77037D812DEB33A0, 0xF4A13945D898C296, 0x4FE342E2FE1A7F9B, 0x8EE7EB4A7C0F9E16,
   0x2BCE33576B315ECE, 0xCBB6406837BF51F5]

def withKey (s : State) : State := { s with mtr := { s.mtr with key := some (5, 1, 2) } }

def flying (s : State) : State := { s with exp := { s.exp with flight := [(9, 3, false)] } }

def meterReset (s : State) : State := { s with mtr := { s.mtr with inReset := true } }

def aDesc : Desc := { window := 0, ordinal := 1, rowPitch := 1, addr := 0 }

/-- One position of one channel: an element-wise layer (kind 4), or one whose only tap lies in the padding. -/

def aLayer (kind pad : Nat) : Layer :=
  { layer := 1, kind := kind, skipReason := 0, station := 2, ctx := 0, lanemap := 0, kernel := 1, stride := 1, pad := pad,
    opTypes := 0, accMode := 0, rndMode := 0, outType := 0, hOut := 1, wOut := 1, cIn := 1, cOut := 1, zpA := 0, zpW := 0,
    zpB := 0, padValue := 0, zpOut := 0, clampLo := 0, clampHi := 127, mA := 1, mB := 1, wChunk := 0, wChunks := 1,
    tapBias := false, tChunk := 1, descA := aDesc, descB := aDesc, descO := aDesc }

def aSample (num lost : Nat) : Sample := { num := num, pos := 0, done := false, lost := lost, held := none }

def workItem (l : Layer) (samples : List Sample) (phase passes : Nat) : WorkItem :=
  { id := 1, slot := 0, layerIx := 0, layer := l, plan := 1, owner := 3, stream := 0, bundle := 77, window := 1, nf := 0,
    epoch := 5, track := 2, samples := samples, run := [], org := [0, 0, 0], need := [],
    beats := (List.range 3).map fun r => { role := r, offset := 0, stamp := 49000000, data := 0 },
    gone := [], taps := [], tapOn := false, tapEnd := false, due := some 60000000, obs := 49000000, phase := phase, asked := true,
    chunks := [(0, [0]), (1, [0, 0, 0, 0, 0, 0, 0, 0])], raw := [], fetch := [], passes := passes }

def items (l : List WorkItem) (s : State) : State := { s with wtp := { s.wtp with items := l } }

def trackIs (t : Nat) (f : Track → Track) (s : State) : State := s.modTrack t f

/-- Track 2 runs item 1. -/

def runs (it : WorkItem) : State := items [it] (trackIs 2 (fun x => { x with running := some 1, progress := 49900000 }) rig)

def ewItem (phase passes : Nat) : WorkItem := workItem (aLayer 4 0) [aSample 0 0] phase passes

def padItem (phase passes : Nat) : WorkItem := workItem (aLayer 0 1) [aSample 0 0] phase passes

def aWin (opened : Bool) (closeAt : Option Nat) : FrameWin :=
  { id := 1, slot := 15, stream := 0, nf := 0, epoch := 5, lag := 0, openAt := 50000000, closeAt := closeAt, opened := opened,
    closed := false, counts := [], runs := [] }

def windowsAre (l : List FrameWin) (s : State) : State := { s with wtp := { s.wtp with windows := l } }

/-- A chunk of bundle 77 without content. -/

def aChunk : List Byte :=
  let head := [0x42, 0x57, 1, 0, 77, 0, 0, 0] ++ List.replicate 24 0
  head ++ (gcmSeal (List.replicate 16 0) ((head.drop 8).take 12) head []).2

def aPlan (bundle : Nat) : Plan :=
  { planId := 1, stream := 0, lagUs := 0, bundle := bundle, totalLen := 208, lanemaps := [], layers := [], digest := [] }

def planIn (k state : Nat) (p : Plan) (s : State) : State :=
  { s with wtp := { s.wtp with slots := s.wtp.slots.set k { state := state, deferred := false, loading := false, owner := 3, plan := some p } } }

/-- The image of a plan with one lane map and one layer, and its CRC. -/

def planImage : List Byte :=
  let body := [0x4C, 0x50, 1, 0, 1, 0, 1, 0, 1, 0, 0, 0, 0, 0, 0, 0, 77, 0, 0, 0, 208, 0, 0, 0] ++ List.replicate 36 0
  let rest := List.replicate 144 0
  body ++ leBytes 4 (crc32c (body ++ leBytes 4 0 ++ rest)) ++ rest

def aModel : PModel :=
  { bundle := 77, inW := 1, inH := 1, inZp := 0, headK := 1, headS := 1, actBytes := 64, thr := [], layers := [], steps := 10,
    digest := [] }

def aPFrame (f : PFrame → PFrame) : PFrame :=
  f { id := 1, stream := 4, frame := 9, epoch := 5, tf := 45000000, tr := 50000000, td := 60000000,
      word := pack [(63, 1, 1), (55, 6, 2), (46, 6, 60)], owner := 3, slot := 0, track := some 2, start := 50000000,
      finish := 55000000, decided := true, loader := 3, need := 10, beats := [], gone := false, ready := false, running := false, finished := false,
      chunks := [], raw := [], fetch := [], host := none, steps := 10, judged := false, model := none }

def pframes (l : List PFrame) (s : State) : State := { s with plt := { s.plt with frames := l } }

def modelIn (k : Nat) (s : State) : State :=
  { s with plt := { s.plt with models := s.plt.models.set k { deferred := false, loading := false, owner := 3, model := some aModel } } }

def aStats (closeAt : Nat) : StatsEnd :=
  { epoch := 4, closeAt := closeAt, owners := [], sel := List.replicate 64 wbrSelReset, q := List.replicate 64 wbrQReset }

def closing (c : StatsEnd) (s : State) : State := { s with wbr := { s.wbr with toClose := [c] } }

def planOf4 (s : State) : State :=
  { s with wtp := { s.wtp with slots := s.wtp.slots.set 15 { state := 1, deferred := false, loading := false, owner := 4, plan := some (aPlan 77) } } }

def allPlans (s : State) : State :=
  { s with wtp := { s.wtp with slots := List.replicate 16 { state := 1, deferred := false, loading := false, owner := 4, plan := some (aPlan 77) } } }

def modelOf4 (s : State) : State :=
  { s with plt := { s.plt with models := s.plt.models.set 3 { deferred := false, loading := false, owner := 4, model := some aModel } } }

def streamOf4 (s : State) : State :=
  { s with plt := { s.plt with streams := s.plt.streams.set 15 { PStream.reset with word := pack [(63, 1, 1)], owner := 4 } } }

def entryOf4 (s : State) : State :=
  { s with wbr := { s.wbr with sel := s.wbr.sel.set 63 (pack [(63, 1, 1), (0, 4, 4)]) } }

def anOcc (sub cause : Nat) : Occurrence := { occ sub cause 3 9 with time := 49000000 }

def inbox (o : Occurrence) (s : State) : State := { s with sbx := { s.sbx with inbox := [o] } }

def recIs (k : Nat) (r : FRec) (s : State) : State := { s with sbx := { s.sbx with recs := s.sbx.recs.set k r } }

/-- A U record in force of the fault `anOcc 4 2`. -/

def aFRec : FRec :=
  { FRec.reset with
    valid := true, inForce := true, cls := 2, sub := 4, cause := 2, engine := 3, detect := 48000000, lastTime := 48000000,
    realCls := 2 }

/-- FAULT_CLASS and its target, and whether it shows the intermediate value. -/

def classIs (a b : Nat) (mid : Bool) (s : State) : State :=
  { s with sbx := { s.sbx with faultClass := a, fcTarget := b, fcMid := mid } }

def frameOf (ver op arg : Nat) (wdata : Word) (bcast : Bool) : TklFrame :=
  { ver := BitVec.ofNat 3 ver, bcast := bcast, dst := 5, op := BitVec.ofNat 6 op, seq := 9, arg := BitVec.ofNat 24 arg,
    wdata := wdata, crcQ := 0, rspSeq := 0, rspStatus := 0xFF, rdata := 0, crcR := 0 }

/-- A frame of version 2 with its query CRC. -/

def frame (op arg : Nat) (wdata : Word) (bcast : Bool) : TklFrame :=
  let f := frameOf 2 op arg wdata bcast
  { f with crcQ := BitVec.ofNat 32 (tklCrc (queryBits f)) }

def frame1 (op arg : Nat) : TklFrame :=
  let f := frameOf 1 op arg 0 false
  { f with crcQ := BitVec.ofNat 32 (tklCrc (queryBits f)) }

/-- The instance has address 5. -/

def lined (s : State) : State := { s with tkl := { s.tkl with addrValid := true, addr := 5 } }

def lineSet (f : TokenLine → TokenLine) (s : State) : State := { s with tkl := f s.tkl }

def heldCommit (s : State) : State := { s with dsp := { s.dsp with commitHeld := some (aTicket 16 3) } }

def forced (s : State) : State := { s with sbx := { s.sbx with forced := true } }

def partIs (p state : Nat) (mirror : Bool) (s : State) : State :=
  s.modPart p fun x => { x with state := state, mirror := mirror }


/-- What holds of every siding of a block with 256 of them, and of a siding at reset, holds of `s.siding` throughout. -/
theorem sidings_all {p : Siding → Prop} (s : State) (h : ∀ d ∈ s.sdg.desc, p d) (hr : p Siding.reset) :
    ∀ i, p (s.siding i) := by
  intro i
  unfold State.siding
  rw [List.getD_eq_getElem?_getD]
  cases hi : s.sdg.desc[i]? with
  | none => exact hr
  | some d => exact h d (List.mem_of_getElem? hi)

/-! ## Ill-formed commands are refused -/

theorem test_wf_windows_and_partitions : ∀ i ∈ [Instr.nop 17, .commit 17, .commandWindowWrite 17 0 0xFF,
    .ilkPintRc 16, .detachComplete 16, .ldgUreadData 16 .ok, .sessionEndClock 17], i.wf = false := by decide

theorem test_wf_stations_and_counters : ∀ i ∈ [Instr.stnRstAssert 64, .stationFail 64, .stationEdge 64 0 noIn,
    .stationEdge 0 0 { noIn with occ := List.replicate 65 0 }, .fsyncEdge 16, .ledgerPatrol 1048576 .ok,
    .snapshotTimeout 17, .internalRecordOverdue 6], i.wf = false := by decide

theorem test_wf_sidings_and_ports : ∀ i ∈ [Instr.sidingWordWrite 256, .sdgPop 3 16 [] [], .sdgPop 16 256 [] [],
    .sdgPop 17 0 [] [], .payloadClose 33, .portClockStall 3, .exportBeatAccept 2], i.wf = false := by decide

/-- Self-test results that name a word of subsystem 2, which has no self-tested words. -/
def badSelftest : BistResult :=
  { sbxOk := true, conductorOk := 3, words := [{ subsystem := 2, engine := 0, word := 0, multi := false }],
    arrayFail := 0, decryptFail := 0, entropyRaw := 0 }

theorem test_wf_engines : ∀ i ∈ [Instr.frameWindowOpen 16, .workItemStart 4, .pilotReadyTime 16, .quietPeriodExpire 32,
    .lockstepMiscompare 2, .mtrMapWrite 256 0 0xFF,
    .startupSelftestComplete badSelftest], i.wf = false := by decide

theorem test_wf_accepts : ∀ i ∈ [Instr.nop 16, .stationFail 63, .sdgPop 16 255 [] [], .quietPeriodExpire 31],
    i.wf = true := by decide

/-! ## Worked examples of the spec, and published test vectors -/

/-- Chapter "Tracks and array arithmetic", the example after R174: 3 × lift(−5) folds to the residue of −15. -/
theorem test_product_mod_m31 : lift31 (-5) = 0x7FFFFFFA ∧ reduce31 (3 * lift31 (-5)) = 0x7FFFFFF0 := by decide +kernel

/-- Table 09-5: half-way values under the three rounding modes. -/
theorem test_half_way_values :
    ([0, 1, 2].map fun m => (toCode (138 * 0x40000000) 32 m 3 (-128) 127).y) = [37, 38, 38] ∧
    ([0, 1, 2].map fun m => (toCode (-138 * 0x40000000) 32 m 3 (-128) 127).y) = [-31, -32, -31] ∧
    ([0, 1, 2].map fun m => (toCode (139 * 0x40000000) 32 m 3 (-128) 127).y) = [38, 38, 38] := by decide +kernel

/-- The example after Table 09-5: codes beyond the range clamp and count as clipped. -/
theorem test_clipped_codes :
    toCode (6000 * 0x60000000) 36 0 (-5) (-128) 127 = { y := 127, clip := 2 } ∧
    toCode (-7000 * 0x60000000) 36 0 (-5) (-128) 127 = { y := -128, clip := 1 } := by decide +kernel

/-- The window of the example in chapter "Probe stations". -/
def exampleWindow : SnoopWin :=
  { base := 0x840000000, limit := 0x8401FFFC0, ctl := pack [(56, 8, 0xC0), (48, 8, 0x40), (32, 1, 1), (34, 1, 1), (0, 16, 40)],
    row := 0x20000000008, col := 0x800000001 }

/-- That example: offset 1675 is row 41 and column 35 and passes, the next beat does not. -/
theorem test_snoop_filter : beatOffset exampleWindow 0x84001A2C0 = 1675 ∧ passesFilter exampleWindow 1675 = true ∧
    passesFilter exampleWindow 1676 = false := by decide +kernel

/-- Step 5 of Table 08-3. -/
def siding37 : Siding :=
  { aSiding with wr := 0x20E, rd := 0x20E, rel := 0x1F0, mark := 0x1F0, markValid := true, relLeft := 0 }

/-- Table 08-3, step 5: a release to 0x1F7 passes the mark, which is lost, and the level is 23. -/
theorem test_release_passes_mark :
    let d := (after (.sdgRelease 3) (sent 3 (packet 0x43 0x1F709 []) (mkSiding 9 siding37 rig))).siding 9
    d.rel = 0x1F7 ∧ d.markValid = false ∧ d.markLost = true ∧ d.level = 23 ∧ d.avail = 0 := by decide +kernel

/-- Table 08-3, step 6: a rewind without a mark moves rd to rel. -/
theorem test_rewind_mark_lost :
    let s := mkSiding 9 { siding37 with markValid := false, markLost := true, rel := 0x1F7 } rig
    let t := after (.sdgRewind 3) (sent 3 (packet 0x42 9 []) s)
    (t.siding 9).rd = 0x1F7 ∧ (t.siding 9).avail = 23 ∧
    ((t.siding 200).prodq.map fun i => fld (i.words.getD 0 0) 56 8) = [8] := by decide +kernel

/-- Table 08-3, after step 7: 512 words fill the siding though the address bits of both pointers agree. -/
theorem test_full_siding : ({ siding37 with wr := 0x00E, rel := 0x20E } : Siding).level = 512 := by decide +kernel

/-- The example after R85, with t0 = 10^9: the timeout at t0 + 83,333,335 ns opens the epoch 4 µs later. -/
theorem test_missed_master_frame :
    let t := { (master 0 rig).ttb with
      time := 1100000000, prevMaster := some 1033333334, interval := some 33333334, lastAccepted := some 1033333334 }
    let u := after .syntheticMasterEdge { rig with ttb := t }
    u.ttb.announced.map (fun b => (b.t, b.kind)) = some (1083337335, EdgeKind.synthetic) ∧ u.ttb.synthRun = 1 ∧
    u.ttb.interval = some 33333334 := by decide +kernel

/-- Chapter "Weighbridge", the worked example: shares of 61,440 elements, and the bins of codes 127 and 3. -/
theorem test_weighbridge_example : shareOf 61440 20480 = 0x5555 ∧ shareOf 61440 30720 = 0x8000 ∧ binOf 0 127 = 63 ∧
    binOf 0 3 = 32 := by decide +kernel

/-- Chapter "Pilot sentinel inference", the worked example: the point (840, 488) lies in zone 2. -/
theorem test_point_in_zone :
    insidePoly [(380, 200), (600, 200), (600, 380), (300, 380)] 840 488 = true ∧
    insidePoly [(380, 200), (600, 200), (600, 380), (300, 380)] 100 100 = false := by decide +kernel

/-- Chapter "Memory and export ports", the example frame: its header bytes. -/
theorem test_frame_header :
    frameHeader { aSession 9 with id := 0x10002A7C, enc := true, comp := true } 2 0x17A2000000001000 37 0x4D21 false =
    [0x4F, 0x56, 0x03, 0x03, 0x7C, 0x2A, 0x00, 0x10, 0x02, 0, 0, 0, 0x21, 0x4D, 0, 0, 0, 0, 0, 0, 0, 0x10, 0, 0, 0, 0, 0xA2, 0x17,
     0x25, 0, 0, 0] := by decide +kernel

/-- FIPS 180-4: SHA-256 of "abc". -/
theorem test_sha256_abc : ofBe (sha256 [0x61, 0x62, 0x63]) =
    0xBA7816BF8F01CFEA414140DE5DAE2223B00361A396177A9CB410FF61F20015AD := by decide +kernel

/-- The GCM specification, test case 13: AES-256, a zero key and IV, nothing to encrypt. -/
theorem test_gcm_empty : ofBe (gcmSeal (List.replicate 32 0) (List.replicate 12 0) [] []).2 =
    0x530F8AFBC74536B9A963B4F1C4CB738B := by decide +kernel

/-- RFC 3720: CRC-32C of 32 bytes of zeros. -/
theorem test_crc32c : crc32c (List.replicate 32 0) = 0x8A9136AA := by decide +kernel

/-! ## Each claim meets its hypotheses somewhere -/

theorem meets_StepRunsFront :
    ∃ (s : State), s.pending = [] :=
  ⟨rig, by decide +kernel⟩

theorem meets_QueueDrains :
    ∃ (s : State) (k : Nat), k ≤ s.pending.length :=
  ⟨{ rig with pending := [.ppsEdge, .upperTimeMessage] }, 2, by decide +kernel⟩

theorem meets_StoresStayCanonical :
    ∃ (s t : State), s.storesCanonical = true ∧ step s = .next t :=
  ⟨{ rig with pending := [.upperTimeMessage] }, (after .upperTimeMessage rig), by decide +kernel, rfl⟩

theorem meets_TimeNeverGoesBack :
    ∃ (c : Instr) (s t : State), c ≠ .porstAssert ∧ s.ttb.anyBoundary = true ∧ s.ttb.time + 2 ^ 40 < 2 ^ 64 ∧
    s.ttb.acc < accUnit s.ttb ∧ exec c s = .next t :=
  ⟨(.timeAdvance 7 true), rig, (after (.timeAdvance 7 true) rig), by refine ⟨?_, ?_, ?_, ?_, rfl⟩ <;> decide +kernel⟩

theorem meets_SealGuardsConfiguration :
    ∃ (c : Instr) (s t : State), c ≠ .porstAssert ∧ meterOpen s = false ∧ exec c s = .next t :=
  ⟨(.ttbCfgWrite 5 0xFF), rig, (after (.ttbCfgWrite 5 0xFF) rig), by refine ⟨?_, ?_, rfl⟩ <;> decide +kernel⟩

theorem meets_RootKeyIsolated :
    ∃ (c : Instr) (s t : State), (∀ d, c ≠ .fuseWordSample d) ∧ (∀ x, c ≠ .wrapperInstructionUpdate x) ∧ c ≠
    .porstAssert ∧ exec c s = .next t :=
  ⟨.blkRstAssert, rig, (after .blkRstAssert rig), nofun, nofun, nofun, rfl⟩

theorem meets_PowerOnStartsFuseRead :
    ∃ (s : State), s.pins.porstN = false :=
  ⟨State.reset, by decide +kernel⟩

theorem meets_FuseRead :
    (∃ (s : State), s.drives = true ∧ s.pins.fuseReq = true ∧ s.pins.fuseAddr < 63) ∧ (∃ (s : State), s.drives =
    true ∧ s.pins.fuseReq = true ∧ s.pins.fuseAddr = 63 ∧ (s.ilk.fuses.getD 8 0).getLsbD 1 = false) ∧ (∃ (s :
    State), (s.pins.fuseReq = false ∨ s.pins.vqOn = false ∨ s.ilk.testState = true)) :=
  ⟨⟨{ rig with pins := { rig.pins with fuseReq := true, fuseAddr := 15 } }, by decide +kernel⟩,
   ⟨{ rig with pins := { rig.pins with fuseReq := true, fuseAddr := 63 } }, by decide +kernel⟩,
   ⟨rig, by decide +kernel⟩⟩

theorem meets_BlockReset :
    ∃ (s : State), s.pins.blkRstN = true :=
  ⟨rig, by decide +kernel⟩

theorem meets_CoreSupplyOff :
    ∃ (s : State), s.pins.vqOn = true :=
  ⟨rig, by decide +kernel⟩

theorem meets_WarmStart :
    (∃ (s : State), s.pins.blkRstN = false ∧ s.pins.porstN = true ∧ s.pins.vqOn = true ∧ s.pins.fuseReq = false ∧
    functionalWir s.pins.wir.toNat = true) ∧ (∃ (s : State), s.pins.vqOn = false ∧ s.pins.porstN = true ∧
    s.pins.blkRstN = true ∧ s.pins.fuseReq = false ∧ functionalWir s.pins.wir.toNat = true) :=
  ⟨⟨{ rig with pins := { rig.pins with blkRstN := false } }, by decide +kernel⟩,
   ⟨{ rig with pins := { rig.pins with vqOn := false } }, by decide +kernel⟩⟩

theorem meets_FirmwareBoot :
    ∃ (s : State), s.core = true ∧ s.dsp.boot.state = 0 ∧ 3 ≤ s.dsp.boot.phase :=
  ⟨{ rig with dsp := { rig.dsp with boot := { rig.dsp.boot with state := 0, phase := 4 } } }, by decide +kernel⟩

theorem meets_StartupSelftest :
    ∃ (s : State), s.core = true ∧ s.dsp.boot.state = 1 ∧ s.dsp.bist.done = false ∧ s.sdg = Sidings.reset ∧
    s.exp.opens = [] ∧ s.dsp.wins.length = 17 :=
  ⟨{ rig with sdg := Sidings.reset }, by decide +kernel⟩

theorem meets_StationEnumeration :
    ∃ (s : State) (c : BitVec 7), s.core = true ∧ s.dsp.enumSent = true ∧ c.toNat ≤ 64 :=
  ⟨{ rig with dsp := { rig.dsp with enumSent := true } }, 64, by decide +kernel⟩

theorem meets_TestState :
    (∃ (s : State) (x : BitVec 8), s.pins.porstN = true ∧ functionalWir x.toNat = true ∧ s.core = true) ∧ (∃ (s :
    State) (x : BitVec 8), s.pins.porstN = true ∧ functionalWir x.toNat = false ∧ x.toNat ≠ 0x11 ∧ s.ilk.testState
    = false ∧ s.ilk.keys.length = 8 ∧ s.exp.sess.length = 17) :=
  ⟨⟨rig, 0, by decide +kernel⟩,
   ⟨rig, 1, by decide +kernel⟩⟩

theorem meets_RegisterWrites :
    (∃ (s : State) (a : BitVec 22) (p : Nat), s.core = true ∧ p < 16 ∧ a.toNat = 0x200000 + 0x10000 * p) ∧ (∃ (s :
    State) (a : BitVec 22) (be : BitVec 8), s.core = true ∧ (∀ p < 16, a.toNat ≠ 0x200000 + 0x10000 * p) ∧ (a.toNat
    / 0x10000 ≠ 0x30 ∨ meterOpen s = true ∨ be ≠ 0xFF)) ∧ (∃ (s : State) (a : BitVec 22), s.core = true ∧ a.toNat /
    0x10000 = 0x30 ∧ meterOpen s = false) :=
  ⟨⟨rig, 0x2F0000, 15, by decide +kernel⟩,
   ⟨rig, 0x2F0008, 0xFF, by decide +kernel⟩,
   ⟨rig, 0x301800, by decide +kernel⟩⟩

theorem meets_StationView :
    ∃ (s : State), s.core = true :=
  ⟨rig, by decide +kernel⟩

theorem meets_FirstValidTimeSetsBlockTime :
    ∃ (s : State), s.pins.porstN = true ∧ s.ttb.anyBoundary = false ∧ s.ttb.everValid = false :=
  ⟨{ rig with ttb := { Timetable.reset with time := 500 } }, by decide +kernel⟩

theorem meets_TimeDiscipline :
    (∃ (s : State), s.pins.porstN = true ∧ s.ttb.anyBoundary = true) ∧ (∃ (s : State), s.pins.porstN = true) ∧ (∃
    (t : Timetable), rateOf t = 0 ∧ fld t.cfg 0 8 = 125 ∧ t.acc < accUnit t ∧ t.time < 2 ^ 64 - 8) :=
  ⟨⟨rig, by decide +kernel⟩,
   ⟨rig, by decide +kernel⟩,
   ⟨{ rig.ttb with cfg := put ttbCfgReset 0 8 125 }, by decide +kernel⟩⟩

theorem meets_TimeValidFall :
    ∃ (s : State), s.pins.porstN = true ∧ (s.ttb.state = .locked ∨ s.ttb.state = .slewing) :=
  ⟨{ rig with ttb := { rig.ttb with state := .slewing } }, by decide +kernel⟩

theorem meets_HoldoverExpires :
    ∃ (s : State), s.core = true ∧ s.ttb.state = .holdover ∧ s.ttb.holdoverAt + fld s.ttb.cfg 52 12 * 1000000000 ≤
    s.ttb.time :=
  ⟨{ rig with ttb := { rig.ttb with state := .holdover, offset := -5, time := 60000000000 } }, by decide +kernel⟩

theorem meets_PpsEdge :
    (∃ (s : State), s.pins.porstN = true ∧ s.ttb.timeValid = false ∧ s.ttb.state ≠ .holdover) ∧ (∃ (s : State),
    s.core = true ∧ s.ttb.timeValid = true ∧ bit s.ttb.cfg 14 = true ∧ s.ttb.state ≠ .holdover ∧ (fld s.ttb.cfg 8 6
    * 100 : Int) < (secondPhase s.ttb.time).natAbs) ∧ (∃ (s : State), s.pins.porstN = true ∧ s.ttb.timeValid =
    false ∧ s.ttb.state = .holdover ∧ bit s.ttb.cfg 15 = true) :=
  ⟨⟨rig, by decide +kernel⟩,
   ⟨{ rig with ttb := { rig.ttb with state := .locked, timeValid := true } }, by decide +kernel⟩,
   ⟨{ rig with ttb := { rig.ttb with state := .holdover, time := 1999000000 } }, by decide +kernel⟩⟩

theorem meets_UpperTime :
    ∃ (s : State), s.pins.porstN = true ∧ s.ttb.upperAt + 1000000 ≤ s.ttb.time :=
  ⟨rig, by decide +kernel⟩

theorem meets_FsyncNumbersFrames :
    ∃ (s : State) (i : Nat), s.pins.porstN = true ∧ i < 16 ∧ boundaryDue s = false ∧ s.ttb.running = false ∧
    masterOf s.ttb ≠ i :=
  ⟨{ rig with ttb := { rig.ttb with running := false } }, 15, by decide +kernel⟩

theorem meets_RealMasterEdge :
    (∃ (s : State) (i p : Nat), s.core = true ∧ i < 16 ∧ boundaryDue s = false ∧ masterOf s.ttb = i ∧ s.ttb.running
    = false ∧ s.ttb.anyBoundary = false ∧ s.ttb.lastAccepted = some p ∧ s.ttb.time < p + 1000000) ∧ (∃ (s : State)
    (i p : Nat), s.core = true ∧ i < 16 ∧ boundaryDue s = false ∧ masterOf s.ttb = i ∧ s.ttb.running = true ∧
    s.ttb.armed = false ∧ s.ttb.edgeCount + 1 < fld s.ttb.eff 12 4 + 1 ∧ s.ttb.lastAccepted = some p ∧ p + 1000000
    ≤ s.ttb.time) :=
  ⟨⟨{ (master 4 rig) with ttb := { (master 4 rig).ttb with running := false, anyBoundary := false, lastAccepted := some 49000001 } },
    4, 49000001, by decide +kernel⟩,
   ⟨{ (master 4 rig) with ttb := { (master 4 rig).ttb with eff := put (master 4 rig).ttb.eff 12 4 3, edgeCount := 2, lastAccepted := some 49000000, lastReal := some 48000000, synthRun := 2 } },
    4, 49000000, by decide +kernel⟩⟩

theorem meets_BoundaryAnnounced :
    ∃ (s : State) (d : Nat), edgesRun s = true ∧ masterOf s.ttb = 16 ∧ internalDue s.ttb = some d ∧ d ≤ s.ttb.time
    ∧ (s.ttb.armed = true ∨ fld s.ttb.eff 12 4 + 1 ≤ s.ttb.edgeCount + 1) :=
  ⟨{ (master 16 rig) with ttb := { (master 16 rig).ttb with armed := true, running := false, prevMaster := some 45000000 } },
    45000000, by decide +kernel⟩

theorem meets_SyntheticMasterEdge :
    ∃ (s : State) (p d : Nat), edgesRun s = true ∧ masterOf s.ttb ≠ 16 ∧ s.ttb.armed = false ∧ s.ttb.edgeCount + 1
    < fld s.ttb.eff 12 4 + 1 ∧ s.ttb.prevMaster = some p ∧ d = max s.ttb.stepTo (p + s.ttb.interval.getD (fld
    s.ttb.eff 44 20 * 1000) * fld s.ttb.eff 16 8 / 100) ∧ d ≤ s.ttb.time ∧ s.ttb.synthRun < 255 :=
  ⟨{ (master 4 rig) with ttb := { (master 4 rig).ttb with eff := put (master 4 rig).ttb.eff 12 4 1, prevMaster := some 9000000, interval := some 10000000, synthRun := 2 } },
    9000000, 24000000, by decide +kernel⟩

theorem meets_EpochOpens :
    ∃ (s : State) (b : Boundary), s.core = true ∧ s.ttb.announced = some b ∧ b.t ≤ s.ttb.time :=
  ⟨(announced 45000000 rig), (boundaryAtT 45000000 false), by decide +kernel⟩

theorem meets_EpochStatusCloses :
    ∃ (s : State), s.core = true :=
  ⟨rig, by decide +kernel⟩

theorem meets_EpochPrepared :
    ∃ (s : State), s.fw = true ∧ s.ttb.announced = none ∧ s.ttb.running = true :=
  ⟨rig, by decide +kernel⟩

theorem meets_EpochAndGovernorSettings :
    (∃ (s : State) (pk : List Word) (w : Nat), Issues 0x05 w pk s) ∧ (∃ (s : State) (pk : List Word) (w : Nat),
    Issues 0x04 w pk s) :=
  ⟨⟨(sent 16 (packet 5 0x100000000 [0xFFFFFFFFFFFFFFFF]) rig), (packet 5 0x100000000 [0xFFFFFFFFFFFFFFFF]), 16,
    by decide +kernel⟩,
   ⟨(sent 16 (packet 4 0x100000000 [0x5A00FFFF]) rig), (packet 4 0x100000000 [0x5A00FFFF]), 16, by decide +kernel⟩⟩

theorem meets_CommitTiming :
    (∃ (s : State) (pk : List Word), Issues 0x03 16 pk s ∧ s.ttb.announced = none ∧ s.dsp.pending = [] ∧
    s.dsp.frozen = []) ∧ (∃ (s : State) (pk : List Word), Issues 0x03 16 pk s ∧ s.ttb.announced ≠ none) ∧ (∃ (s :
    State) (k : Ticket), s.core = true ∧ s.dsp.commitHeld = some k ∧ s.ttb.announced = none) :=
  ⟨⟨(sent 16 (packet 3 0x100000000 []) rig), (packet 3 0x100000000 []), by decide +kernel⟩,
   ⟨(sent 16 (packet 3 0x100000000 []) (announced 50004000 rig)), (packet 3 0x100000000 []), by decide +kernel⟩,
   ⟨{ rig with dsp := { rig.dsp with commitHeld := some { w := 16, seq := 1, op := 3, reply := true, later := false, tkl := false }, pending := [.govBudget 4] } },
    { w := 16, seq := 1, op := 3, reply := true, later := false, tkl := false }, by decide +kernel⟩⟩

theorem meets_RateMonitor :
    ∃ (s : State), s.core = true :=
  ⟨rig, by decide +kernel⟩

theorem meets_GovernorBucket :
    ∃ (s : State), s.core = true ∧ s.sbx.refillAt / 1000 < s.ttb.time / 1000 :=
  ⟨{ rig with trk := rig.trk.set 2 { Track.reset with state := 2, tokens := 5 } }, by decide +kernel⟩

theorem meets_WindowAssembly :
    (∃ (s : State) (w : Nat) (x : BitVec 64), s.core = true ∧ w < 17 ∧ (s.win w).isOpen = true ∧ (s.win w).asm =
    none ∧ fld x 36 4 = 0 ∧ fifoUsed (s.win w) < 64) ∧ (∃ (s : State) (w : Nat) (a : Assembly), s.core = true ∧ w <
    17 ∧ (s.win w).isOpen = true ∧ (s.win w).asm = some a ∧ a.drop = false) ∧ (∃ (be : BitVec 8), be ≠ 0xFF#8) :=
  ⟨⟨rig, 3, 0x0107000000000005, by decide +kernel⟩,
   ⟨(asmOf [1, 2] false 49000001 16 rig), 16, { need := 3, words := [1, 2], t0 := 49000001, drop := false },
    by decide +kernel⟩,
   ⟨0x7F, by decide +kernel⟩⟩

theorem meets_PacketTimeouts :
    (∃ (s : State) (w : Nat) (a : Assembly), s.core = true ∧ (s.win w).asm = some a ∧ a.drop = true ∧ a.t0 +
    1000000 ≤ s.ttb.time) ∧ (∃ (s : State) (w : Nat) (a : Assembly), s.core = true ∧ (s.win w).asm = some a ∧
    a.drop = false ∧ a.t0 + 1000000 ≤ s.ttb.time ∧ (s.siding (s.win w).compl).state = 1 ∧ 3 * ((s.win w).owes + 1)
    + (s.siding (s.win w).compl).coming ≤ (s.siding (s.win w).compl).free) :=
  ⟨⟨(asmOf [] true 49000000 16 rig), 16, { need := 3, words := [], t0 := 49000000, drop := true }, by decide +kernel⟩,
   ⟨(asmOf [0x0307003000000000] false 49000000 3 rig), 3,
    { need := 3, words := [0x0307003000000000], t0 := 49000000, drop := false }, by decide +kernel⟩⟩

theorem meets_AnswersOnly :
    (∃ (s : State) (w : Nat) (pk : List Word), Issues 0x01 w pk s) ∧ (∃ (s : State) (w : Nat) (pk : List Word),
    Issues 0x02 w pk s) ∧ (∃ (s : State) (w op : Nat) (pk : List Word), Issues op w pk s ∧ op ∉ knownOps) :=
  ⟨⟨(sent 3 (packet 1 0x100001234 []) rig), 3, (packet 1 0x100001234 []), by decide +kernel⟩,
   ⟨(sent 16 (packet 2 0x100001234 []) rig), 16, (packet 2 0x100001234 []), by decide +kernel⟩,
   ⟨(sent 16 (packet 6 0x100001234 [1]) rig), 16, 6, (packet 6 0x100001234 [1]), by decide +kernel⟩⟩

theorem meets_SenderRights :
    (∃ (s : State) (w op : Nat) (pk : List Word) (e : Ecc) (c : Instr), rootCommand w e op = some c ∧ op ∈ rootOps
    ∧ w < 16 ∧ s.fw = true ∧ headPacket s w = some { words := pk } ∧ nextInRound s = some w ∧ pkOpcode pk = op ∧
    s.dsp.takeover = false ∧ departing s w = false ∧ (s.siding (s.win w).compl).state = 1) ∧ (∃ (s : State) (w op :
    Nat) (pk : List Word) (e : Ecc) (c : Instr), rootCommand w e op = some c ∧ s.fw = true ∧ headPacket s w = some
    { words := pk } ∧ nextInRound s = some w ∧ pkOpcode pk = op ∧ s.dsp.takeover = true ∧ (s.siding (s.win
    w).compl).state = 1) :=
  ⟨⟨(sent 3 (packet 0xB1 0 []) rig), 3, 0xB1, (packet 0xB1 0 []), .ok, (.selftest 3), by decide +kernel⟩,
   ⟨(takenOver (sent 3 (packet 0x41 0 []) rig)), 3, 0x41, (packet 0x41 0 []), .ok, (.sdgMark 3), by decide +kernel⟩⟩

theorem meets_TurnsAreKept :
    ∃ (s : State) (w op : Nat) (e : Ecc) (c : Instr), rootCommand w e op = some c ∧ nextInRound s ≠ some w :=
  ⟨(sent 3 (packet 0x41 0 []) rig), 16, 0x41, .ok, (.sdgMark 16), by decide +kernel⟩

theorem meets_TableChangesWait :
    (∃ (s : State) (pk : List Word) (p : Nat), Issues 0x13 16 pk s ∧ p = fld (pk.getD 0 0) 0 4 ∧ (s.part p).state =
    1 ∧ fld (pk.getD 0 0) 8 3 = 1 ∧ s.ttb.running = true ∧ (s.jct.switchWait = true ∨ s.ilk.changes ≠ [])) ∧ (∃ (s
    : State) (c : TableChange) (r : List TableChange), s.core = true ∧ s.ilk.changes = c :: r) :=
  ⟨⟨{ sent 16 (packet 0x13 0x180000103 []) rig with jct := { rig.jct with switchWait := true } },
    (packet 0x13 0x180000103 []), 3, by decide +kernel⟩,
   ⟨{ rig with ilk := { rig.ilk with changes := [.mirror 3 true, .mirror 3 false] } }, (.mirror 3 true),
    [.mirror 3 false], by decide +kernel⟩⟩

theorem meets_PartitionCreated :
    (∃ (s : State) (pk : List Word) (p sid base : Nat), Issues 0x10 16 pk s ∧ s.shaped = true ∧ p = fld (pk.getD 0
    0) 0 4 ∧ (s.part p).state = 0 ∧ pointFree s ∧ (List.range 256).find? (fun i => decide (4 ≤ i) && (s.siding
    i).state == 0) = some sid ∧ placeSiding s sid (min 10 (fld (pk.getD 0 0) 4 4)) = some base) ∧ (∃ (s : State)
    (pk : List Word), Issues 0x10 16 pk s ∧ (partSoon s (fld (pk.getD 0 0) 0 4)).1 ≠ 0) :=
  ⟨⟨(sent 16 (packet 0x10 0x100000015 [0xF0F]) rig), (packet 0x10 0x100000015 [0xF0F]), 5, 4,
    ((placeSiding rig 4 1).getD 0), by decide +kernel⟩,
   ⟨(sent 16 (packet 0x10 0x100000013 [0xF0F]) rig), (packet 0x10 0x100000013 [0xF0F]), by decide +kernel⟩⟩

theorem meets_DetachBegins :
    (∃ (s : State) (pk : List Word) (p : Nat), Issues 0x11 16 pk s ∧ s.shaped = true ∧ p = fld (pk.getD 0 0) 0 4 ∧
    detachable s p = true ∧ pointFree s) ∧ (∃ (s : State) (pk : List Word), Issues 0x11 16 pk s ∧ detachable s (fld
    (pk.getD 0 0) 0 4) = false) :=
  ⟨⟨(sent 16 (packet 0x11 0x100000003 []) rig), (packet 0x11 0x100000003 []), 3, by decide +kernel⟩,
   ⟨(sent 16 (packet 0x11 0x100000004 []) rig), (packet 0x11 0x100000004 []), by decide +kernel⟩⟩

theorem meets_ScrubBegins :
    ∃ (s : State) (p : Nat) (d : Detach), s.core = true ∧ s.shaped = true ∧ p < 16 ∧ detachOf s p = some d ∧
    d.scrub = false ∧ pointFree s ∧ readyToScrub s p = true ∧ (s.session p).isOpen = false :=
  ⟨(detaching 3 2 false false none), 3, (theDetach 3 false false none), by decide +kernel⟩

theorem meets_DetachEnds :
    ∃ (s : State) (p : Nat) (d : Detach), s.core = true ∧ s.shaped = true ∧ p < 16 ∧ detachOf s p = some d ∧
    (s.part p).state = 3 ∧ pointFree s ∧ d.scrubEnd = true ∧ d.snapOk.isSome = true :=
  ⟨(detaching 3 3 true true (some true)), 3, (theDetach 3 true true (some true)), by decide +kernel⟩

theorem meets_WindowSet :
    (∃ (s : State) (pk : List Word), Issues 0x12 16 pk s ∧ barredPart s (ofOwnerCode (fld (pk.getD 0 0) 0 5)) =
    false) ∧ (∃ (s : State) (pk : List Word), Issues 0x12 16 pk s ∧ barredPart s (ofOwnerCode (fld (pk.getD 0 0) 0
    5)) = true) :=
  ⟨⟨(sent 16 (packet 0x12 0x100000E1F [0x123456789ABC, 0xFFFFFFFF]) rig),
    (packet 0x12 0x100000E1F [0x123456789ABC, 0xFFFFFFFF]), by decide +kernel⟩,
   ⟨(sent 16 (packet 0x12 0x100000E03 [4096, 4096]) (detaching 3 2 false false none)),
    (packet 0x12 0x100000E03 [4096, 4096]), by decide +kernel⟩⟩

theorem meets_Grant :
    (∃ (s : State) (pk : List Word) (p : Nat), Issues 0x13 16 pk s ∧ p = fld (pk.getD 0 0) 0 4 ∧ (s.part p).state =
    1 ∧ fld (pk.getD 0 0) 8 3 ≠ 1) ∧ (∃ (s : State) (pk : List Word) (p : Nat), Issues 0x13 16 pk s ∧ p = fld
    (pk.getD 0 0) 0 4 ∧ (s.part p).state = 1 ∧ fld (pk.getD 0 0) 8 3 = 1 ∧ pointFree s) ∧ (∃ (s : State) (pk : List
    Word), Issues 0x13 16 pk s ∧ (s.part (fld (pk.getD 0 0) 0 4)).state ≠ 1) :=
  ⟨⟨(sent 16 (packet 0x13 0x180000003 [0xFF]) { rig with ldg := { rig.ldg with ctx := rig.ldg.ctx.set 2 0x300 } }),
    (packet 0x13 0x180000003 [0xFF]), 3, by decide +kernel⟩,
   ⟨(sent 16 (packet 0x13 0x180000103 []) rig), (packet 0x13 0x180000103 []), 3, by decide +kernel⟩,
   ⟨(sent 16 (packet 0x13 0x180000004 []) rig), (packet 0x13 0x180000004 []), by decide +kernel⟩⟩

theorem meets_BundleKeys :
    (∃ (s : State) (w : Nat) (pk : List Word), Issues 0x82 w pk s ∧ (s.ilk.testState = true ∨ s.ilk.identity =
    none)) ∧ (∃ (s : State) (w : Nat) (pk : List Word), Issues 0x82 w pk s ∧ s.ilk.testState = false ∧
    s.ilk.identity.isSome = true ∧ bit (pk.getD 0 0) 3 = false ∧ bit (pk.getD 0 0) 4 = false ∧ keySlot s (fld
    (pk.getD 0 0) 0 3) = none ∧ keyComing s (fld (pk.getD 0 0) 0 3) = false ∧ w < s.dsp.wins.length) ∧ (∃ (s :
    State) (w : Nat) (pk : List Word) (x : KeySlot), Issues 0x82 w pk s ∧ s.ilk.testState = false ∧
    s.ilk.identity.isSome = true ∧ bit (pk.getD 0 0) 3 = true ∧ s.shaped = true ∧ s.dsp.heldQ = [] ∧
    s.ilk.keys.length = 8 ∧ keySlot s (fld (pk.getD 0 0) 0 3) = some x ∧ (w = 16 ∨ x.owner = w) ∧ bundleInUse s
    x.bundle = false) :=
  ⟨⟨(sent 3 (packet 0x82 0x100000000 [4096]) rig), 3, (packet 0x82 0x100000000 [4096]), by decide +kernel⟩,
   ⟨(sent 3 (packet 0x82 0x100000007 [4096]) (identified rig)), 3, (packet 0x82 0x100000007 [4096]),
    by decide +kernel⟩,
   ⟨(sent 3 (packet 0x82 0x10000000F []) (keyed 7 77 3 (identified rig))), 3, (packet 0x82 0x10000000F []),
    { bundle := 77, key := List.replicate 16 0, owner := 3 }, by decide +kernel⟩⟩

theorem meets_EntropySource :
    (∃ (s : State) (raw : BitVec 1024), s.core = true ∧ s.ilk.trng = 1 ∧ s.mtr.state ≠ 2 ∧ s.exp.opens = [] ∧
    (healthTest s.ilk.rctRun raw).1 = false ∧ (healthTest s.ilk.rctRun raw).2.1 = false) ∧ (∃ (s : State) (raw :
    BitVec 1024), s.core = true ∧ s.ilk.trng = 1 ∧ s.exp.opens = [] ∧ (healthTest s.ilk.rctRun raw).1 = true ∨
    (healthTest s.ilk.rctRun raw).2.1 = true) :=
  ⟨⟨rig, noise, by decide +kernel⟩,
   ⟨rig, 0, by decide +kernel⟩⟩

theorem meets_InterruptWords :
    (∃ (s : State), s.core = true) ∧ (∃ (s : State), s.core = true) :=
  ⟨⟨(rig.modPart 3 fun x => { x with pint := 5 }), by decide +kernel⟩,
   ⟨{ rig with ilk := { rig.ilk with rint := 5 } }, by decide +kernel⟩⟩

theorem meets_EdgeCounts :
    ∃ (s : State) (n stamp : Nat) (inp : StnInputs), countsAt s n stamp ∧ stnCountEn (s.station n) = true ∧
    stnTraceEn (s.station n) = false ∧ inp.tag = none ∧ inp.snoop = none ∧ inp.acc = none ∧ canonical 0 (s.station
    n).active.deltas = true :=
  ⟨rig, 63, 50000000, { ev := BitVec.ofNat 448 (2 ^ 447 + 5), occ := [], snoop := none, tag := none, acc := none },
    by decide +kernel⟩

theorem meets_TagSwitchesContext :
    (∃ (s : State) (n stamp : Nat) (tag : BitVec 16), countsAt s n stamp ∧ stnTraceEn (s.station n) = false ∧
    stnCountEn (s.station n) = false ∧ (s.station n).vacated.length < 7 ∧ (s.station n).active.since ≤ (s.station
    n).lastStamp ∧ tagCtx (s.station n) tag.toNat ≠ (s.station n).curCtx) ∧ (∃ (s : State) (n stamp : Nat) (tag :
    BitVec 16), countsAt s n stamp ∧ stnTraceEn (s.station n) = false ∧ stnCountEn (s.station n) = false ∧
    (s.station n).active.deltas = [] ∧ (s.station n).lastStamp < (s.station n).active.since ∧ tagCtx (s.station n)
    tag.toNat ≠ (s.station n).curCtx) ∧ (∃ (s : State) (n stamp : Nat) (tag : BitVec 16), countsAt s n stamp ∧
    stnTraceEn (s.station n) = false ∧ stnCountEn (s.station n) = false ∧ 7 ≤ (s.station n).vacated.length ∧
    (s.station n).active.since ≤ (s.station n).lastStamp ∧ tagCtx (s.station n) tag.toNat ≠ (s.station n).curCtx) :=
  ⟨⟨((stnWith 2 (fun x => { x with cfg := 0, tagmap := x.tagmap.set 4 0x800700000022#64 }) rig)), 2, 50000000, 0x22,
    by decide +kernel⟩,
   ⟨((stnWith 2 (fun x => { x with cfg := 0, tagmap := x.tagmap.set 4 0x8007FFFF0022#64, lastStamp := 40000005, active := { x.active with since := 40000006 } }) rig)),
    2, 50000000, 0x22, by decide +kernel⟩,
   ⟨((stnWith 2 (fun x => { x with cfg := 0, tagmap := x.tagmap.set 4 0x8007FFFF0022#64, vacated := List.replicate 7 Bank.reset }) rig)),
    2, 50000000, 0x22, by decide +kernel⟩⟩

theorem meets_DeltaBanks :
    (∃ (s : State) (n : Nat), s.stationsRun = true ∧ s.ttb.anyBoundary = true ∧ n < s.stn.length ∧ (s.station
    n).addressed = true ∧ (s.station n).vacated.length < 7 ∧ (s.station n).active.since + 8000 ≤ s.ttb.time ∧
    (s.station n).curCtx ∈ (s.station n).used) ∧ (∃ (s : State) (n : Nat) (b : Bank) (r : List Bank), s.stationsRun
    = true ∧ n < s.stn.length ∧ (s.station n).vacated = b :: r ∧ (s.station n).lateCtx = none) :=
  ⟨⟨((stnWith 2 (fun x => { x with active := { x.active with since := 49992000, deltas := [(5, 3)] } }) rig)), 2,
    by decide +kernel⟩,
   ⟨((stnWith 2 (fun x => { x with vacated := [{ ctx := 1, epoch := 4, since := 0, deltas := [(5, 3)], mark := true, lost := lostDeltas 1 4 [7] }] }) rig)),
    2, { ctx := 1, epoch := 4, since := 0, deltas := [(5, 3)], mark := true, lost := lostDeltas 1 4 [7] }, [],
    by decide +kernel⟩⟩

theorem meets_DelayMeasured :
    ∃ (s : State) (n : Nat), s.core = true ∧ n < s.stn.length ∧ (s.station n).addressed = true ∧ (s.station
    n).measuring = some (0, 0) :=
  ⟨(stnWith 2 (fun x => { x with measuring := some (0, 0) }) rig), 2, by decide +kernel⟩

theorem meets_StationHandsOver :
    (∃ (s : State) (n : Nat) (r : Rec) (q : List Rec), s.core = true ∧ n < s.stn.length ∧ handsOver s n = true ∧
    (s.jct.stnIn.getD n []).length < 16 ∧ (s.station n).trace = r :: q) ∧ (∃ (s : State) (n : Nat), s.core = true ∧
    n < s.stn.length ∧ handsOver s n = true ∧ (s.station n).trace = [] ∧ (s.station n).drops = none ∧ (s.station
    n).dropTrace = false ∧ (s.station n).dropOp = false ∧ (s.station n).measuring = none ∧ (s.station n).lastHand +
    fld (s.station n).cfg 36 8 * 100 ≤ s.ttb.time) :=
  ⟨⟨(stnWith 2 (fun x => { x with trace := [aRec 1 49999000 2 7] }) rig), 2, (aRec 1 49999000 2 7), [],
    by decide +kernel⟩,
   ⟨(stnWith 2 (fun x => { x with lastHand := 49984000, lastStamp := 49999999 }) rig), 2, by decide +kernel⟩⟩

theorem meets_Parking :
    (∃ (s : State) (n : Nat), s.core = true ∧ n < s.stn.length ∧ (s.station n).addressed = true ∧ (s.station n).st
    = .running ∧ (s.station n).inReset = false ∧ (s.station n).lastEdge + 2000 ≤ s.ttb.time) ∧ (∃ (s : State) (n
    stamp : Nat), s.core = true ∧ n < s.stn.length ∧ (s.station n).st = .parked ∧ (s.station n).vioOff = false ∧
    (s.station n).inReset = false ∧ stampFits s { s.station n with lastStamp := 0 } stamp = true ∧ s.ttb.upper =
    stamp / 2 ^ 33) ∧ (∃ (s : State) (n stamp : Nat) (inp : StnInputs), s.core = true ∧ n < s.stn.length ∧
    (s.station n).addressed = true ∧ (s.station n).vioOff = false ∧ (s.station n).st = .parked ∧ (s.station
    n).inReset = false ∧ (s.station n).measuring = none ∧ stampFits s (s.station n) stamp = true ∧
    s.ttb.anyBoundary = true ∧ stnCountEn (s.station n) = true ∧ inp.tag = none) :=
  ⟨⟨(stnWith 2 (fun x => { x with lastEdge := 49998000 }) rig), 2, by decide +kernel⟩,
   ⟨(stnWith 2 (fun x => { x with st := .parked }) rig), 2, 50000001, by decide +kernel⟩,
   ⟨(stnWith 2 (fun x => { x with st := .parked }) rig), 2, 50000000,
    { ev := BitVec.ofNat 448 (2 ^ 447 + 5), occ := [], snoop := none, tag := none, acc := none }, by decide +kernel⟩⟩

theorem meets_StationFails :
    ∃ (s : State) (n : Nat), s.core = true ∧ n < s.stn.length ∧ handsOver s n = true ∧ (s.station n).st = .running
    ∧ s.jct.stnIn.getD n [] = [] ∧ max (s.station n).lastHand (s.station n).clearAt + 16 * (fld (s.station n).cfg
    36 8 * 100) ≤ s.ttb.time ∧ s.ttb.time < (s.station n).lastEdge + 2000 :=
  ⟨(stnWith 2 (fun x => { x with lastEdge := 49999999 }) rig), 2, by decide +kernel⟩

theorem meets_StationResetAndRail :
    (∃ (s : State) (n : Nat), n < s.stn.length ∧ (s.station n).inReset = false) ∧ (∃ (s : State) (n : Nat), n <
    s.stn.length ∧ (s.station n).inReset = true ∧ (s.station n).addressed = true) ∧ (∃ (s : State) (n : Nat), n <
    s.stn.length) ∧ (∃ (s : State) (n : Nat), n < s.stn.length ∧ (s.station n).vioOff = true ∧ (s.station
    n).addressed = true) ∧ (∃ (s : State) (n : Nat), s.stationsRun = true ∧ n < s.stn.length ∧ (s.station
    n).addressed = true ∧ (s.station n).inReset = true ∧ (s.station n).quiet < 1024 ∧ (s.station n).active.deltas ≠
    [] ∧ (s.station n).vacated = []) :=
  ⟨⟨rig, 63, by decide +kernel⟩,
   ⟨(stnWith 2 (fun x => { x with inReset := true }) rig), 2, by decide +kernel⟩,
   ⟨rig, 63, by decide +kernel⟩,
   ⟨(stnWith 2 (fun x => { x with vioOff := true }) rig), 2, by decide +kernel⟩,
   ⟨(stnWith 2 (fun x => { x with inReset := true, quiet := 1000, active := { x.active with deltas := [(5, 3)] } }) rig),
    2, by decide +kernel⟩⟩

theorem meets_StationCommands :
    (∃ (s : State) (pk : List Word) (n : Nat), Issues 0x20 16 pk s ∧ n = fld (pk.getD 0 0) 0 6 ∧ n <
    s.dsp.enumCount) ∧ (∃ (s : State) (a b : Word) (n k : Nat), Issues 0x21 16 [a, b] s ∧ n = fld a 0 6 ∧ n <
    s.dsp.enumCount ∧ k = fld a 8 5) ∧ (∃ (s : State) (a b : Word) (n k : Nat), Issues 0x22 16 [a, b] s ∧ n = fld a
    0 6 ∧ n < s.dsp.enumCount ∧ k = fld a 8 4) ∧ (∃ (s : State) (pk : List Word) (n o : Nat), Issues 0x23 16 pk s ∧
    n = fld (pk.getD 0 0) 0 6 ∧ n < s.dsp.enumCount ∧ o = 0x1C0 + 0x40 * fld (pk.getD 0 0) 8 3) ∧ (∃ (s : State)
    (pk : List Word), Issues 0x20 16 pk s ∧ s.dsp.enumCount ≤ fld (pk.getD 0 0) 0 6) :=
  ⟨⟨(sent 16 (packet 0x20 0x10000003F [0xFFFFFFFFFFFFFFFF, 1, 2, 3]) rig),
    (packet 0x20 0x10000003F [0xFFFFFFFFFFFFFFFF, 1, 2, 3]), 63, by decide +kernel⟩,
   ⟨(sent 16 (packet 0x21 0x100001F05 [0xFFFFFFFFFFFFFFFF]) rig),
    ((packet 0x21 0x100001F05 []).getD 0 0 + 0x1000000000), 0xFFFFFFFFFFFFFFFF, 5, 31, by decide +kernel⟩,
   ⟨(sent 16 (packet 0x22 0x100000F05 [0xFFFFFFFFFFFFFFFF]) rig),
    ((packet 0x22 0x100000F05 []).getD 0 0 + 0x1000000000), 0xFFFFFFFFFFFFFFFF, 5, 15, by decide +kernel⟩,
   ⟨(sent 16 (packet 0x23 0x100000705 [0xFFFFFFFFFFFFFFFF, 1, 2]) rig),
    (packet 0x23 0x100000705 [0xFFFFFFFFFFFFFFFF, 1, 2]), 5, 0x380, by decide +kernel⟩,
   ⟨(sent 16 (packet 0x20 0x10000003F []) { rig with dsp := { rig.dsp with enumCount := 63 } }),
    (packet 0x20 0x10000003F []), by decide +kernel⟩⟩

theorem meets_OperandBeats :
    (∃ (s : State) (n : Nat) (it : OpItem) (r : List OpItem), s.core = true ∧ handsOver s n = true ∧ (s.station
    n).op = it :: r ∧ accepted s it = true) ∧ (∃ (s : State) (n stamp ctx w o p : Nat) (a : BitVec 48) (at8 :
    BitVec 8) (d : BitVec 512) (r : List OpItem), s.core = true ∧ handsOver s n = true ∧ (s.station n).op = .snoop
    stamp ctx w a o p at8 d false true false :: r) ∧ (∃ (s : State) (n : Nat) (it : OpItem) (r : List OpItem),
    (s.station n).op = it :: r ∧ accepted s it = false) :=
  ⟨⟨(stnWith 2 (fun x => { x with op := [.snoop 49999000 0 1 0 0 40 0 0 true true false] }) rig), 2,
    (.snoop 49999000 0 1 0 0 40 0 0 true true false), [], by decide +kernel⟩,
   ⟨(stnWith 2 (fun x => { x with op := [.snoop 49999000 0 1 0 7 40 0 0 false true false] }) rig), 2, 49999000, 0, 1,
    7, 40, 0, 0, 0, [], by decide +kernel⟩,
   ⟨{ stnWith 2 (fun x => { x with op := [.acc 49999000 0 1 [] 0] }) rig with trk := List.replicate 4 Track.reset },
    2, (.acc 49999000 0 1 [] 0), [], by decide +kernel⟩⟩

theorem meets_MergeOrder :
    (∃ (s : State) (i : Nat) (k : Nat × Nat) (r : Rec), s.core = true ∧ s.myd.inq = [] ∧ boundaryDue s = false ∧
    (i, k, some r) ∈ sources s ∧ (∀ x ∈ sources s, x ≠ (i, k, some r) → keyLt k x.2.1 = true)) ∧ (∃ (s : State),
    s.core = true ∧ s.ilk.changes = [] ∧ (s.myd.inq ≠ [] ∨ boundaryDue s = true ∨ ∀ x ∈ sources s, x.2.2.isSome =
    true → ∃ y ∈ sources s, keyLt y.2.1 x.2.1 = true)) :=
  ⟨⟨(stnInput 2 [aRec 1 49000000 2 7] (clearTo 49999999 rig)), 2, ((49000000, 2)), (aRec 1 49000000 2 7),
    by decide +kernel⟩,
   ⟨(stnInput 2 [aRec 1 49000000 2 7] rig), by decide +kernel⟩⟩

theorem meets_InternalRecordOverdue :
    ∃ (s : State) (k : Nat) (o : Owed) (r : List Owed), s.core = true ∧ s.jct.owed = o :: r ∧ o.src = srcOfInput k
    ∧ o.counted = false ∧ heldPast s o = true :=
  ⟨(owing { src := 127, due := 49999999, key := 1, counted := false } rig), 5,
    { src := 127, due := 49999999, key := 1, counted := false }, [], by decide +kernel⟩

theorem meets_RecordDelivered :
    (∃ (s : State) (r : Rec) (q : List Rec) (d : Dest) (k : Nat), s.core = true ∧ s.myd.inq = r :: q ∧ r.dests =
    [d] ∧ d.siding = some k ∧ d.exp = false ∧ (s.siding k).state = 1 ∧ (s.siding k).prodq = [] ∧ r.type ≠ 5) ∧ (∃
    (s : State) (r : Rec) (q : List Rec) (d : Dest), s.myd.inq = r :: q ∧ d ∈ r.dests ∧ destReady s d = false) :=
  ⟨⟨(inYard [{ aRec 1 49000000 2 7 with dests := [aDest 9] }] (mkSiding 9 aSiding rig)),
    { aRec 1 49000000 2 7 with dests := [aDest 9] }, [], (aDest 9), 9, by decide +kernel⟩,
   ⟨(inYard [{ aRec 1 49000000 2 7 with dests := [aDest 9] }] (mkSiding 9 { aSiding with prodq := [{ kind := .record, src := 0, seq := 0, words := [1, 2] }] } rig)),
    { aRec 1 49000000 2 7 with dests := [aDest 9] }, [], (aDest 9), by decide +kernel⟩⟩

theorem meets_FaultRecordStreams :
    (∃ (r : Rec) (c n e cls slot : Nat), c < 32 ∧ n < 64 ∧ e < 512 ∧ cls < 4 ∧ slot < 32 ∧ r.type = 8 ∧ r.injected
    = false ∧ r.specific = causeBits cls 4 2 ((e / 2 + n) % 64) slot false ∧ r.body = [BitVec.ofNat 64
    (counterIndex c n e)]) ∧ (∃ (s : State) (r : Rec) (a b n cls slot : Nat), a < 32 ∧ b < 32 ∧ n < 64 ∧ cls < 4 ∧
    slot < 32 ∧ r.type = 8 ∧ r.injected = false ∧ r.specific = causeBits cls 1 4 n slot false ∧ r.body =
    [BitVec.ofNat 64 (a * 2 ^ 8 + b)] ∧ s.ctxOwner a < 16 ∧ s.ctxOwner b < 16) ∧ (∃ (r : Rec) (sid cause cls slot :
    Nat), sid < 256 ∧ 1 ≤ cause ∧ cause ≤ 3 ∧ cls < 4 ∧ slot < 32 ∧ r.type = 8 ∧ r.injected = false ∧ r.specific =
    causeBits cls 6 cause sid slot false) :=
  ⟨⟨{ aRec 8 49000000 68 7 with specific := causeBits 2 4 2 ((511 / 2 + 63) % 64) 31 false, body := [BitVec.ofNat 64 (counterIndex 31 63 511)] },
    31, 63, 511, 2, 31, by decide +kernel⟩,
   ⟨{ rig with ldg := { rig.ldg with ctx := (rig.ldg.ctx.set 3 0x300#64).set 31 0x500#64 } },
    { aRec 8 49000000 68 7 with specific := causeBits 1 1 4 63 0 false, body := [BitVec.ofNat 64 (3 * 2 ^ 8 + 31)] },
    3, 31, 63, 1, 0, by decide +kernel⟩,
   ⟨{ aRec 8 49000000 68 7 with specific := causeBits 2 6 2 9 0 false }, 9, 2, 2, 0, by decide +kernel⟩⟩

theorem meets_PayloadCloses :
    ∃ (s : State) (i : Nat) (p : Payload), s.core = true ∧ (s.myd.streams.getD i Stream.reset).payload = some p ∧
    p.openAt + 100000 ≤ s.ttb.time ∧ (s.session (sessionOf i)).isOpen = true ∧ (s.siding (s.session (sessionOf
    i)).siding).state = 1 :=
  ⟨(mkSiding 9 aSiding (withSession 3 (aSession 9) (openPayload 3 rig))), 3, aPayload, by decide +kernel⟩

theorem meets_CounterPlacement :
    (∃ i : Nat, i < 1048576) ∧ (∃ c n e : Nat, c < 32 ∧ n < 64 ∧ e < 512) ∧
    (∃ i j : Nat, i < 1048576 ∧ j < 1048576 ∧ ixBank i = ixBank j ∧ ixWord i = ixWord j) ∧
    (∃ i : Nat, i < 1048576 ∧ i % 2 = 0) :=
  ⟨⟨1048575, by omega⟩, ⟨31, 63, 511, by omega⟩, ⟨1048575, 1048575, by omega, by omega, rfl, rfl⟩,
   ⟨1048574, by omega⟩⟩

theorem meets_DeltaCounted :
    ∃ (s : State) (n : Nat) (d : Delta) (r : List Delta), s.core = true ∧ n < 64 ∧ n < s.ldg.inq.length ∧
    s.ldg.inq.getD n [] = d :: r ∧ d.mark = false ∧ d.lost = false ∧ s.ldg.sweep = none ∧ d.ctx < 32 ∧ d.ev < 512 ∧
    canonical LWord.zero s.ldg.words = true ∧ chainedIn s.ldg.eff.chain (counterIndex d.ctx n d.ev) = false :=
  ⟨(arrived 63 (delta 31 511 9 5 false) (wordIs 1048575 { LWord.zero with count := 0xFFFFFFFFFFFF } rig)), 63,
    (delta 31 511 9 5 false), [], by decide +kernel⟩

theorem meets_ChainedPairCounts :
    (∃ (s : State) (n e : Nat) (d : Delta) (r : List Delta), s.core = true ∧ n < 64 ∧ n < s.ldg.inq.length ∧
    s.ldg.inq.getD n [] = d :: r ∧ d.mark = false ∧ d.lost = false ∧ s.ldg.sweep = none ∧ d.ctx < 32 ∧ d.ev = 2 * e
    ∧ e < 256 ∧ d.count < 2 ^ 16 ∧ canonical LWord.zero s.ldg.words = true ∧ chainedIn s.ldg.eff.chain
    (counterIndex d.ctx n d.ev) = true) ∧ (∃ (s : State) (n : Nat) (d : Delta) (r : List Delta), s.core = true ∧ n
    < 64 ∧ n < s.ldg.inq.length ∧ s.ldg.inq.getD n [] = d :: r ∧ d.mark = false ∧ d.lost = false ∧ s.ldg.sweep =
    none ∧ d.ctx < 32 ∧ d.ev < 512 ∧ d.ev % 2 = 1 ∧ chainedIn s.ldg.eff.chain (counterIndex d.ctx n d.ev) = true) :=
  ⟨⟨(arrived 3 (delta 0 0 9 5 false) (chain 3 (wordIs (counterIndex 0 3 0) { LWord.zero with count := 0xFFFFFFFFFFFF } rig))),
    3, 0, (delta 0 0 9 5 false), [], by decide +kernel⟩,
   ⟨(arrived 3 (delta 0 1 9 5 false) (chain 3 rig)), 3, (delta 0 1 9 5 false), [], by decide +kernel⟩⟩

theorem meets_LostAndLateDeltas :
    (∃ (s : State) (n : Nat) (d : Delta) (r : List Delta), s.core = true ∧ n < 64 ∧ n < s.ldg.inq.length ∧
    s.ldg.inq.getD n [] = d :: r ∧ d.mark = false ∧ d.lost = true ∧ s.ldg.sweep = none ∧ d.ctx < 32 ∧ d.ev < 512 ∧
    canonical LWord.zero s.ldg.words = true) ∧ (∃ (s : State) (n : Nat) (d : Delta) (r : List Delta) (w : Sweep),
    s.core = true ∧ n < 64 ∧ n < s.ldg.inq.length ∧ s.ldg.inq.getD n [] = d :: r ∧ d.mark = false ∧ d.lost = false
    ∧ s.ldg.sweep = some w ∧ d.ctx < 32 ∧ d.ev < 512 ∧ canonical LWord.zero s.ldg.words = true ∧ oldLabel w d.epoch
    = true ∧ isSwept w (counterIndex d.ctx n d.ev) = true ∧ chainedIn w.oldChain (counterIndex d.ctx n d.ev) =
    false) :=
  ⟨⟨(arrived 3 (delta 0 5 0 5 true) rig), 3, (delta 0 5 0 5 true), [], by decide +kernel⟩,
   ⟨(arrived 3 (delta 0 5 4 5 false) (sweeping (aSweep 1000000 true) rig)), 3, (delta 0 5 4 5 false), [],
    (aSweep 1000000 true), by decide +kernel⟩⟩

theorem meets_Patrol :
    (∃ (i : Nat), i < 1048576) ∧ (∃ (s : State) (i : Nat), s.core = true ∧ i < 1048576) ∧ (∃ (s : State) (i : Nat),
    s.core = true ∧ i < 1048576 ∧ chainedIn s.ldg.eff.chain i = false ∧ canonical LWord.zero s.ldg.words = true) :=
  ⟨⟨1048575, by decide +kernel⟩,
   ⟨rig, 1048575, by decide +kernel⟩,
   ⟨(wordIs 7 { LWord.zero with count := 5 } rig), 7, by decide +kernel⟩⟩

theorem meets_SweepTraverse :
    (∃ (s : State) (w : Sweep), s.core = true ∧ s.ldg.sweep = some w ∧ w.started = false ∧ (marksIn s s.ldg.marks =
    true ∨ w.t + 16000 ≤ s.ttb.time)) ∧ (∃ (s : State) (w : Sweep), s.core = true ∧ s.ldg.sweep = some w ∧
    w.started = true ∧ w.pos < 1048575 ∧ w.taken = [] ∧ s.ldg.snaps = [] ∧ canonical LWord.zero s.ldg.words = true) :=
  ⟨⟨(sweeping (aSweep 0 false) rig), (aSweep 0 false), by decide +kernel⟩,
   ⟨(sweeping { aSweep 7 true with clear := 1 } (wordIs 7 { LWord.zero with count := 5 } rig)),
    { aSweep 7 true with clear := 1 }, by decide +kernel⟩⟩

theorem meets_SnapshotTimeout :
    ∃ (s : State) (x : Snap), s.core = true ∧ s.ldg.snaps = [x] ∧ x.done = false ∧ x.withdrawn = false ∧ x.slot <
    16 ∧ x.t + 1000000 ≤ s.ttb.time :=
  ⟨{ rig with ldg := { rig.ldg with snaps := [aSnap 15] } }, (aSnap 15), by decide +kernel⟩

theorem meets_CounterReads :
    (∃ (s : State) (w i : Nat) (pk : List Word), Issues 0x30 w pk s ∧ i = fld (pk.getD 0 0) 0 20 ∧ mayRead s w i =
    true) ∧ (∃ (s : State) (w i : Nat) (pk : List Word), Issues 0x31 w pk s ∧ i = fld (pk.getD 0 0) 0 20 / 2 * 2 ∧
    mayRead s w i = true) ∧ (∃ (s : State) (w : Nat) (pk : List Word), Issues 0x30 w pk s ∧ mayRead s w (fld
    (pk.getD 0 0) 0 20) = false) :=
  ⟨⟨(sent 3 (packet 0x30 0x100018003 []) (ctxWord 3 0x300 (wordIs 0x18003 { LWord.zero with count := 5, ovf := true } rig))),
    3, 0x18003, (packet 0x30 0x100018003 []), by decide +kernel⟩,
   ⟨(sent 3 (packet 0x31 0x100018003 []) (ctxWord 3 0x300 (wordIs 0x18003 { LWord.zero with count := 0x50000, ovf := true } rig))),
    3, 0x18002, (packet 0x31 0x100018003 []), by decide +kernel⟩,
   ⟨(sent 3 (packet 0x30 0x100018003 []) rig), 3, (packet 0x30 0x100018003 []), by decide +kernel⟩⟩

theorem meets_CounterConfiguration :
    (∃ (s : State) (pk : List Word) (n k : Nat), Issues 0x32 16 pk s ∧ n = fld (pk.getD 0 0) 16 6 ∧ n <
    s.dsp.enumCount ∧ k = fld (pk.getD 0 0) 8 8 ∧ k < 64 ∧ fld (pk.getD 0 0) 0 8 = 0) ∧ (∃ (s : State) (w : Nat)
    (pk : List Word), Issues 0x33 w pk s ∧ w < 16) ∧ (∃ (s : State) (w : Nat) (pk : List Word), Issues 0x34 w pk s
    ∧ w < 16) :=
  ⟨⟨(sent 16 (packet 0x32 0x1803F3F00 []) rig), (packet 0x32 0x1803F3F00 []), 63, 63, by decide +kernel⟩,
   ⟨(sent 3 (packet 0x33 0x180000000 [0xFFFFFFFFFFFF, 0xFFFFFFFF]) (ctxWord 3 0x300 rig)), 3,
    (packet 0x33 0x180000000 [0xFFFFFFFFFFFF, 0xFFFFFFFF]), by decide +kernel⟩,
   ⟨(sent 3 (packet 0x34 0x1FFFFFFFF []) (ctxWord 3 0x300 rig)), 3, (packet 0x34 0x1FFFFFFFF []), by decide +kernel⟩⟩

theorem meets_UserReads :
    (∃ (s : State) (p i : Nat), s.core = true ∧ i = fld (s.ldg.userSel.getD p 0) 0 20) ∧ (∃ (s : State) (p i :
    Nat), s.core = true ∧ i = fld (s.ldg.userSel.getD p 0) 0 20 / 2 * 2 ∧ userMayRead s p i = true ∧ bit
    (s.ldg.userSel.getD p 0) 20 = false) ∧ (∃ (s : State) (p i : Nat), s.core = true ∧ i = fld (s.ldg.userSel.getD
    p 0) 0 20 / 2 * 2 ∧ userMayRead s p i = false ∧ bit (s.ldg.userSel.getD p 0) 20 = true) :=
  ⟨⟨(userSel 3 0x1FFFFF rig), 3, 0xFFFFF, by decide +kernel⟩,
   ⟨(userSel 3 0x18003 (ctxWord 3 0x10300 (wordIs 0x18003 { LWord.zero with count := 5 } rig))), 3, 0x18002,
    by decide +kernel⟩,
   ⟨(userSel 3 0x11FFFF rig), 3, 0x1FFFE, by decide +kernel⟩⟩

theorem meets_TallyAdds :
    ∃ (s : State) (n : Nat) (d : Delta) (r : List Delta), s.core = true ∧ n < s.stn.length ∧ n < s.ldg.inq.length ∧
    (s.station n).link = d :: r ∧ d.mark = false ∧ d.lost = false ∧ s.ttb.running = true ∧ labelBefore d.epoch
    s.ttb.startEpoch = false ∧ s.mtr.latchDue = none ∧ s.mtr.latchT = 0 ∧ s.mtr.tally.length = 256 ∧ d.ctx < 32 ∧
    d.ev < 512 :=
  ⟨(mapTally 7 3 0 5 (stnWith 3 (fun x => { x with link := [delta 0 5 4 5 false] }) rig)), 3, (delta 0 5 4 5 false),
    [], by decide +kernel⟩

theorem meets_TallyLatched :
    ∃ (s : State) (t0 e : Nat), s.pins.porstN = true ∧ s.mtr.latchDue = some (t0, e) ∧ (marksIn s s.mtr.marks =
    true ∨ t0 + 16000 ≤ s.ttb.time) :=
  ⟨{ rig with mtr := { rig.mtr with latchDue := some (49984000, 6) } }, 49984000, 6, by decide +kernel⟩

theorem meets_Seal :
    (∃ (s : State), meterRuns s = true ∧ s.mtr.sealOpen = false) ∧ (∃ (s : State), meterRuns s = true ∧
    s.mtr.sealOpen = true ∧ s.mtr.state = 1 ∧ s.core = true ∧ s.ilk.trng = 1 ∧ 48 ≤ s.ilk.entropy.length) ∧ (∃ (s :
    State), meterRuns s = true ∧ s.mtr.sealOpen = true ∧ s.mtr.state = 1 ∧ s.core = true ∧ s.ilk.trng ≠ 1) ∧ (∃ (s
    : State), meterRuns s = true ∧ s.mtr.state = 2 ∧ s.mtr.tryAt + 10000000 ≤ s.ttb.time ∧ s.core = true ∧
    s.ilk.trng = 1 ∧ 48 ≤ s.ilk.entropy.length) :=
  ⟨⟨(metered 3 false rig), by decide +kernel⟩,
   ⟨(entropy 48 (metered 1 true rig)), by decide +kernel⟩,
   ⟨(metered 1 true { rig with ilk := { rig.ilk with trng := 2 } }), by decide +kernel⟩,
   ⟨(entropy 48 (metered 2 true rig)), by decide +kernel⟩⟩

theorem meets_MeterCore :
    (∃ (s : State), s.pins.porstN = true ∧ s.mtr.ready = false ∧ s.mtr.inReset = false) ∧ (∃ (s : State),
    s.pins.porstN = true ∧ s.mtr.inReset = true ∧ s.mtr.ready = true ∧ s.mtr.imgValid = false ∧ s.mtr.sealOpen =
    false ∧ s.mtr.state ≠ 1) ∧ (∃ (s : State), meterRuns s = true ∧ s.core = true) :=
  ⟨⟨rig, by decide +kernel⟩,
   ⟨(meterReset (metered 3 false rig)), by decide +kernel⟩,
   ⟨(metered 3 false rig), by decide +kernel⟩⟩

theorem meets_MeterConfiguration :
    (∃ (s : State) (pk : List Word) (k : Nat), Issues 0xA2 16 pk s ∧ meterOpen s = true ∧ k = fld (pk.getD 0 0) 0 8
    ∧ s.mtr.map.length = 256 ∧ s.mtr.tally.length = 256 ∧ clampMap (pk.getD 1 0) ≠ s.mtr.map.getD k 0) ∧ (∃ (s :
    State) (pk : List Word), Issues 0xA3 16 pk s ∧ meterOpen s = true ∧ clampTtbCfg (pk.getD 1 0) ≠ s.ttb.cfg) ∧ (∃
    (s : State) (k : Nat) (x : BitVec 64), s.core = true ∧ meterOpen s = true ∧ k < 256 ∧ clampMap x ≠
    s.mtr.map.getD k 0) ∧ (∃ (s : State) (x : BitVec 64), s.core = true ∧ meterOpen s = true ∧ clampTtbCfg x ≠
    s.ttb.cfg) ∧ (∃ (s : State) (k : Nat), s.core = true ∧ meterOpen s = false ∧ k < 256) ∧ (∃ (s : State) (pk :
    List Word), Issues 0xA2 16 pk s ∧ meterOpen s = false) :=
  ⟨⟨(sent 16 (packet 0xA2 0x1000000FF [0x8000000000000001]) (metered 1 true rig)),
    (packet 0xA2 0x1000000FF [0x8000000000000001]), 255, by decide +kernel⟩,
   ⟨(sent 16 (packet 0xA3 0x100000000 [0x8000000000000001]) (metered 1 true rig)),
    (packet 0xA3 0x100000000 [0x8000000000000001]), by decide +kernel⟩,
   ⟨(metered 1 true rig), 255, 0x8000000000000001, by decide +kernel⟩,
   ⟨(metered 1 true rig), 5, by decide +kernel⟩,
   ⟨(metered 3 false rig), 255, by decide +kernel⟩,
   ⟨(sent 16 (packet 0xA2 0x1000000FF [5]) (metered 3 false rig)), (packet 0xA2 0x1000000FF [5]), by decide +kernel⟩⟩

theorem meets_MeterImage :
    (∃ (s : State) (x : BitVec 64), s.core = true ∧ meterOpen s = true ∧ bit x 0 = true) ∧ (∃ (s : State), s.core =
    true ∧ meterOpen s = true ∧ s.mtr.img.length + 8 < 128) :=
  ⟨⟨(metered 1 true rig), 1, by decide +kernel⟩,
   ⟨(metered 1 true rig), by decide +kernel⟩⟩

theorem meets_MeterCommands :
    (∃ (s : State) (pk : List Word) (k : Nat), Issues 0xA0 16 pk s ∧ k = fld (pk.getD 0 0) 0 8) ∧ (∃ (s : State)
    (pk : List Word) (k : Nat), Issues 0xA0 16 pk s ∧ k = fld (pk.getD 0 0) 0 8) ∧ (∃ (s : State) (pk : List Word)
    (d x y : Nat), Issues 0xA1 16 pk s ∧ s.mtr.inReset = false ∧ s.mtr.key = some (d, x, y) ∧ s.mtr.state = 3) ∧ (∃
    (s : State) (pk : List Word), Issues 0xA1 16 pk s ∧ s.mtr.inReset = true) ∧ (∃ (s : State) (pk : List Word),
    Issues 0xA1 16 pk s ∧ s.mtr.inReset = false ∧ s.mtr.state ≠ 3) :=
  ⟨⟨(sent 16 (packet 0xA0 0x100000005 []) (metered 1 true rig)), (packet 0xA0 0x100000005 []), 5, by decide +kernel⟩,
   ⟨(sent 16 (packet 0xA0 0x100000005 []) (metered 1 true rig)), (packet 0xA0 0x100000005 []), 5, by decide +kernel⟩,
   ⟨(sent 16 (packet 0xA1 0x100000000 [4096]) (withKey (metered 3 false rig))), (packet 0xA1 0x100000000 [4096]), 5,
    1, 2, by decide +kernel⟩,
   ⟨(meterReset (sent 16 (packet 0xA1 0x100000000 [4096]) (metered 1 true rig))), (packet 0xA1 0x100000000 [4096]),
    by decide +kernel⟩,
   ⟨(sent 16 (packet 0xA1 0x100000000 [4096]) (metered 1 true rig)), (packet 0xA1 0x100000000 [4096]),
    by decide +kernel⟩⟩

theorem meets_SidingProducer :
    (∃ (s : State) (sid : Nat) (it : ProdItem) (r : List ProdItem), s.core = true ∧ (s.siding sid).prodq = it :: r
    ∧ (s.siding sid).state = 1 ∧ (s.siding sid).abandoned = false ∧ (s.siding sid).itemOpen = false ∧ 1 ≤ (s.siding
    sid).free) ∧ (∃ (s : State) (sid : Nat) (it : ProdItem) (r : List ProdItem), s.core = true ∧ (s.siding
    sid).prodq = it :: r ∧ (s.siding sid).state = 1 ∧ (s.siding sid).abandoned = false ∧ (s.siding sid).itemOpen =
    true ∧ (s.siding sid).stored < it.words.length ∧ 1 ≤ (s.siding sid).free) ∧ (∃ (s : State) (sid : Nat),
    (s.siding sid).abandoned = false ∧ (s.siding sid).free = 0) ∧ (∃ (s : State) (sid : Nat) (it : ProdItem) (r :
    List ProdItem), s.core = true ∧ (s.siding sid).prodq = it :: r ∧ (s.siding sid).state = 1 ∧ (s.siding
    sid).abandoned = false ∧ (s.siding sid).itemOpen = true ∧ (s.siding sid).stored = it.words.length) ∧ (∃ (s :
    State) (sid : Nat) (it : ProdItem) (r : List ProdItem), s.core = true ∧ (s.siding sid).prodq = it :: r ∧
    (s.siding sid).state = 1 ∧ (s.siding sid).abandoned = true ∧ (s.siding sid).stored = it.words.length) :=
  ⟨⟨(mkSiding 9 { aSiding with prodq := [anItem] } rig), 9, anItem, [], by decide +kernel⟩,
   ⟨(mkSiding 9 { aSiding with prodq := [anItem], itemOpen := true, wr := 1 } rig), 9, anItem, [], by decide +kernel⟩,
   ⟨(mkSiding 9 { aSiding with wr := 512 } rig), 9, by decide +kernel⟩,
   ⟨(mkSiding 9 { aSiding with prodq := [anItem], itemOpen := true, wr := 3, stored := 2 } rig), 9, anItem, [],
    by decide +kernel⟩,
   ⟨(mkSiding 9 { aSiding with prodq := [anItem], itemOpen := false, wr := 2, stored := 2, abandoned := true } rig),
    9, anItem, [], by decide +kernel⟩⟩

theorem meets_SidingPop :
    (∃ (s : State) (page slot i : Nat), s.core = true ∧ slotSiding s page slot = some i ∧ (s.siding i).consumer = 0
    ∧ (s.siding i).replay = [] ∧ (s.siding i).avail = 0) ∧ (∃ (s : State) (page slot i : Nat), s.core = true ∧
    slotSiding s page slot = some i ∧ (s.siding i).consumer = 0 ∧ (s.siding i).replay = [] ∧ (s.siding i).avail ≠ 0
    ∧ rdLeft s (s.siding i) ≠ 0 ∧ (s.siding i).autoRel = false) ∧ (∃ (s : State) (page slot i : Nat), s.core = true
    ∧ slotSiding s page slot = some i ∧ (s.siding i).consumer = 0 ∧ (s.siding i).replay = [] ∧ (s.siding i).avail ≠
    0 ∧ rdLeft s (s.siding i) = 0 ∧ (s.siding i).autoRel = false) ∧ (∃ (s : State) (page slot : Nat), (∀ i,
    slotSiding s page slot = some i → (s.siding i).consumer ≠ 0)) ∧ (∃ (s : State) (page slot i : Nat), s.core =
    true ∧ slotSiding s page slot = some i ∧ i < s.sdg.desc.length ∧ (s.siding i).consumer = 0 ∧ (s.siding
    i).replay = [] ∧ (s.siding i).avail ≠ 0 ∧ rdLeft s (s.siding i) ≠ 0 ∧ (s.siding i).autoRel = false) ∧ (∃ (s :
    State) (page slot i k : Nat), s.core = true ∧ slotSiding s page slot = some i ∧ i < s.sdg.desc.length ∧
    (s.siding i).consumer = 0 ∧ (s.siding i).replay = [] ∧ (s.siding i).avail ≠ 0 ∧ rdLeft s (s.siding i) = 0 ∧
    (s.siding i).autoRel = false ∧ 1 ≤ k ∧ k < (itemAt s (s.siding i)).length) :=
  ⟨⟨(mkSiding 9 aSiding rig), 3, 0, 9, by decide +kernel⟩,
   ⟨(filled 9 { aSiding with rd := 1, autoRel := false } [lengthWord 2, 0x11, 0x22] rig), 3, 0, 9, by decide +kernel⟩,
   ⟨(filled 9 { aSiding with rd := 0, autoRel := false } [lengthWord 2, 0x11, 0x22] rig), 3, 0, 9, by decide +kernel⟩,
   ⟨rig, 5, 0, by decide +kernel⟩,
   ⟨(filled 9 { aSiding with rd := 1, autoRel := false } [lengthWord 2, 0x11, 0x22] rig), 3, 0, 9, by decide +kernel⟩,
   ⟨(filled 9 { aSiding with rd := 0, autoRel := false } [lengthWord 2, 0x11, 0x22] rig), 3, 0, 9, 1,
    by decide +kernel⟩⟩

theorem meets_SidingMark :
    ∃ (s : State) (w sid : Nat) (pk : List Word), Issues 0x41 w pk s ∧ fld (pk.getD 0 0) 0 8 = sid ∧ mayName w sid
    s ∧ (s.siding sid).consumer = 0 :=
  ⟨(sent 3 (packet 0x41 0x100000009 []) (filled 9 { aSiding with rd := 1 } [lengthWord 2, 0x11, 0x22] rig)), 3, 9,
    (packet 0x41 0x100000009 []), by decide +kernel⟩

theorem meets_SidingRewind :
    (∃ (s : State) (w sid : Nat) (pk : List Word), Issues 0x42 w pk s ∧ fld (pk.getD 0 0) 0 8 = sid ∧ mayName w sid
    s ∧ (s.siding sid).consumer = 0 ∧ (s.siding sid).markValid = true) ∧ (∃ (s : State) (w sid : Nat) (pk : List
    Word), Issues 0x42 w pk s ∧ fld (pk.getD 0 0) 0 8 = sid ∧ mayName w sid s ∧ (s.siding sid).consumer = 0 ∧
    (s.siding sid).markValid = false) :=
  ⟨⟨(sent 3 (packet 0x42 0x100000009 []) (filled 9 { aSiding with rd := 2, mark := 1, markValid := true } [lengthWord 2, 0x11, 0x22] rig)),
    3, 9, (packet 0x42 0x100000009 []), by decide +kernel⟩,
   ⟨(sent 3 (packet 0x42 0x100000009 []) (mkSiding 9 { aSiding with markLost := true } rig)), 3, 9,
    (packet 0x42 0x100000009 []), by decide +kernel⟩⟩

theorem meets_SidingRelease :
    (∃ (s : State) (w sid target : Nat) (pk : List Word), Issues 0x43 w pk s ∧ fld (pk.getD 0 0) 0 8 = sid ∧
    mayName w sid s ∧ (s.siding sid).consumer = 0 ∧ target = (if bit (pk.getD 0 0) 31 then (s.siding sid).rd else
    fld (pk.getD 0 0) 8 20) ∧ target < (s.siding sid).ptrMod ∧ (s.siding sid).dist (s.siding sid).rel target ≤
    (s.siding sid).dist (s.siding sid).rel (s.siding sid).rd) ∧ (∃ (s : State) (w sid target : Nat) (pk : List
    Word), Issues 0x43 w pk s ∧ fld (pk.getD 0 0) 0 8 = sid ∧ mayName w sid s ∧ (s.siding sid).consumer = 1 ∧ bit
    (pk.getD 0 0) 31 = false ∧ fld (pk.getD 0 0) 8 20 = 0 ∧ target = fld (pk.getD 1 0) 0 32 ∧ (target + 2 ^ 32 -
    (s.siding sid).memRd % 2 ^ 32) % 2 ^ 32 ≤ ((s.siding sid).memWr + 2 ^ 32 - (s.siding sid).memRd % 2 ^ 32) % 2 ^
    32) :=
  ⟨⟨(sent 3 (packet 0x43 0x180000009 []) (filled 9 { aSiding with rd := 2 } [lengthWord 2, 0x11, 0x22] rig)), 3, 9,
    2, (packet 0x43 0x180000009 []), by decide +kernel⟩,
   ⟨(sent 3 (packet 0x43 0x100000009 [5]) (mkSiding 9 { aSiding with consumer := 1, memWr := 5, memRd := 0xFFFFFFFF } rig)),
    3, 9, 5, (packet 0x43 0x100000009 [5]), by decide +kernel⟩⟩

theorem meets_SidingFlush :
    (∃ (s : State) (w sid : Nat) (pk : List Word), Issues 0x44 w pk s ∧ fld (pk.getD 0 0) 0 8 = sid ∧ mayName w sid
    s ∧ (s.siding sid).flushes = [] ∧ (s.siding sid).itemOpen = false ∧ bit (pk.getD 0 0) 8 = true) ∧ (∃ (s :
    State) (w sid : Nat) (pk : List Word), Issues 0x44 w pk s ∧ fld (pk.getD 0 0) 0 8 = sid ∧ mayName w sid s ∧
    (s.siding sid).flushes = [] ∧ (s.siding sid).itemOpen = false ∧ bit (pk.getD 0 0) 8 = false) ∧ (∃ (s : State)
    (sid : Nat) (f : Flush) (r : List Flush), s.core = true ∧ (s.siding sid).flushes = f :: r ∧ f.applied = true ∧
    f.left ≠ 0) ∧ (∃ (s : State) (sid : Nat) (f : Flush), s.core = true ∧ (s.siding sid).flushes = [f] ∧ f.applied
    = true ∧ f.left = 0 ∧ (s.siding sid).abandoned = false) :=
  ⟨⟨(sent 3 (packet 0x44 0x100000109 []) (filled 9 { aSiding with rd := 2 } [lengthWord 2, 0x11, 0x22] rig)), 3, 9,
    (packet 0x44 0x100000109 []), by decide +kernel⟩,
   ⟨(sent 3 (packet 0x44 0x100000009 []) (filled 9 { aSiding with rd := 2 } [lengthWord 2, 0x11, 0x22] rig)), 3, 9,
    (packet 0x44 0x100000009 []), by decide +kernel⟩,
   ⟨(mkSiding 9 { aSiding with flushes := [aFlush 2 false] } rig), 9, (aFlush 2 false), [], by decide +kernel⟩,
   ⟨(mkSiding 9 { aSiding with flushes := [aFlush 0 false] } rig), 9, (aFlush 0 false), by decide +kernel⟩⟩

theorem meets_SidingLevels :
    (∃ (s : State) (w sid : Nat) (pk : List Word), Issues 0x45 w pk s ∧ fld (pk.getD 0 0) 0 8 = sid ∧ mayName w sid
    s) ∧ (∃ (s : State) (w sid : Nat) (pk : List Word), Issues 0x46 w pk s ∧ fld (pk.getD 0 0) 0 8 = sid ∧ mayName
    w sid s ∧ sid < 4) ∧ (∃ (s : State) (w : Nat) (pk : List Word), Issues 0x46 w pk s ∧ 4 ≤ fld (pk.getD 0 0) 0 8) :=
  ⟨⟨(sent 3 (packet 0x45 0x1FFFFFF09 []) (mkSiding 9 aSiding rig)), 3, 9, (packet 0x45 0x1FFFFFF09 []),
    by decide +kernel⟩,
   ⟨(sent 16 (packet 0x46 0x1FFFFFF03 []) (mkSiding 3 { aSiding with owner := 16 } rig)), 16, 3,
    (packet 0x46 0x1FFFFFF03 []), by decide +kernel⟩,
   ⟨(sent 16 (packet 0x46 0x1FFFFFF04 []) rig), 16, (packet 0x46 0x1FFFFFF04 []), by decide +kernel⟩⟩

theorem meets_SidingCreate :
    (∃ (s : State) (w sid base : Nat) (pk : List Word), Issues 0x40 w pk s ∧ w < 16 ∧ barredPart s w = false ∧ fld
    (pk.getD 0 0) 24 8 = sid ∧ sid ≠ 255 ∧ sid < s.sdg.desc.length ∧ 4 ≤ sid ∧ (s.siding sid).state = 0 ∧ bit
    (pk.getD 0 0) 4 = false ∧ bit (pk.getD 0 0) 16 = false ∧ ownedSidings s w < 16 ∧ placeSiding s sid (createSize
    pk) = some base) ∧ (∃ (s : State) (w sid : Nat) (pk : List Word), Issues 0x40 w pk s ∧ w ≤ 16 ∧ fld (pk.getD 0
    0) 24 8 = sid ∧ sid ≠ 255 ∧ sid ≠ (s.win w).compl ∧ (s.siding sid).state = 1 ∧ (s.siding sid).owner = w ∧
    barredPart s w = false ∧ (s.siding sid).producer ≠ 2 ∧ sidingIdle (s.siding sid) = true ∧ bit (pk.getD 0 0) 4 =
    true) ∧ (∃ (s : State) (w sid : Nat) (pk : List Word), Issues 0x40 w pk s ∧ fld (pk.getD 0 0) 24 8 = sid ∧ sid
    ≠ 255 ∧ mayName w sid s ∧ (s.siding sid).state = 1 ∧ sidingIdle (s.siding sid) = false) ∧ (∃ (s : State) (w sid
    : Nat) (pk : List Word), Issues 0x40 w pk s ∧ w < 16 ∧ fld (pk.getD 0 0) 24 8 = sid ∧ sid ≠ 255 ∧ (sid < 4 ∧
    (s.siding sid).state = 0) ∨ ((s.siding sid).state ≠ 0 ∧ (s.siding sid).owner ≠ w)) :=
  ⟨⟨(sent 3 (packet 0x40 0x1FE000000 []) rig), 3, 254, ((placeSiding rig 254 0).getD 0),
    (packet 0x40 0x1FE000000 []), by decide +kernel⟩,
   ⟨(sent 3 (packet 0x40 0x109000010 []) (mkSiding 9 aSiding rig)), 3, 9, (packet 0x40 0x109000010 []),
    by decide +kernel⟩,
   ⟨(sent 3 (packet 0x40 0x109000000 []) (filled 9 aSiding [lengthWord 2, 0x11, 0x22] rig)), 3, 9,
    (packet 0x40 0x109000000 []), by decide +kernel⟩,
   ⟨(sent 3 (packet 0x40 0x103000000 []) rig), 3, 3, (packet 0x40 0x103000000 []), by decide +kernel⟩⟩

theorem meets_NoPointerPasses :
    ∃ (s t : State) (c : Instr) (sid w page slot : Nat), c ∈ [.sidingWordWrite sid, .sidingItemClose sid, .sdgPop
    page slot [] [], .sdgMark w, .sdgRewind w, .sdgRelease w, .sdgFlush w, .sdgFlushComplete sid, .sdgLevel w,
    .sdgWatermark w] ∧ (∀ i, inOrder (s.siding i)) ∧ exec c s = .next t :=
  ⟨(filled 9 aSiding [lengthWord 2, 0x11, 0x22] rig),
    (after (.sdgPop 3 0 [] []) (filled 9 aSiding [lengthWord 2, 0x11, 0x22] rig)), (.sdgPop 3 0 [] []), 9, 3, 3, 0,
    by refine ⟨?_, sidings_all _ ?_ ?_, rfl⟩ <;> decide +kernel⟩

theorem meets_MemoryDrain :
    (∃ (s : State) (sid : Nat), s.core = true ∧ (s.siding sid).state = 1 ∧ barredPart s (s.siding sid).owner =
    false ∧ (s.siding sid).consumer = 1 ∧ (s.siding sid).inFlight = false ∧ (s.siding sid).avail ≠ 0 ∧
    (let d := s.siding sid; let words := itemAt s d; let n := words.length; n ≤ ringWords d - d.memWr % ringWords d
    ∧ n ≤ ringFree d)) ∧ (∃ (s : State) (sid : Nat), s.core = true ∧
    (let d := s.siding sid; let n := (itemAt s d).length; n ≤ ringWords d - d.memWr % ringWords d ∧ ringFree d <
    n)) :=
  ⟨⟨(filled 9 { aSiding with consumer := 1, memBase := 4096 } [lengthWord 2, 0x11, 0x22] rig), 9, by decide +kernel⟩,
   ⟨(filled 9 { aSiding with consumer := 1, memBase := 4096, memWr := 600, memRd := 90 } [lengthWord 2, 0x11, 0x22] rig),
    9, by decide +kernel⟩⟩

theorem meets_MemoryCommand :
    ∃ (s : State) (id tid : Nat) (j : Job), s.core = true ∧ s.drives = true ∧ s.mem.jobs.find? (fun x => x.id ==
    id) = some j ∧ j.issued < j.len ∧ j.err = 0 ∧ j.unchecked = false ∧ (j.owner < 16 → (s.part j.owner).state = 1)
    ∧ (∀ x ∈ s.mem.jobs, x.ended = false) ∧ sweepWaits s j = false ∧
    (let a := j.addr + j.issued; let len := min (j.len - j.issued) (2048 - a % 2048); let base := a / 128 * 128; let n := (a % 128 + len + 127) / 128;
    windowAllows s j.owner base (128 * n) j.write = true ∧ overlapsWrite s base n = false ∧ (s.mem.txns.filter fun
    t => t.cls == j.cls).length < (if j.cls = 3 then 32 else 64) ∧ firstFree 256 (s.mem.txns.map (·.id)) = some
    tid) :=
  ⟨(jobs [aJob 100 false (.drain 9)] [] (windowed rig)), 1, 0, (aJob 100 false (.drain 9)), by decide +kernel⟩

theorem meets_MemoryRefused :
    ∃ (s : State) (id : Nat) (j : Job), s.core = true ∧ s.drives = true ∧ s.mem.jobs.find? (fun x => x.id == id) =
    some j ∧ j.issued < j.len ∧ j.err = 0 ∧ j.unchecked = false ∧ j.scrubs = false ∧ 0 < j.open_ ∧ j.owner ≤ 16 ∧
    (j.owner < 16 → (s.part j.owner).state = 1) ∧ (∀ x ∈ s.mem.jobs, x.ended = false) ∧ sweepWaits s j = false ∧ (∀
    x ∈ s.mem.jobs, x.id = id → x = j) ∧
    (let a := j.addr + j.issued; let len := min (j.len - j.issued) (2048 - a % 2048); let base := a / 128 * 128;
    windowAllows s j.owner base (128 * ((a % 128 + len + 127) / 128)) j.write = false) :=
  ⟨(jobs [{ aJob 100 false (.chunk 0 9 false 0 false) with open_ := 1 }] [] rig), 1,
    { aJob 100 false (.chunk 0 9 false 0 false) with open_ := 1 }, by decide +kernel⟩

theorem meets_MemoryBeats :
    (∃ (s : State) (b : WBeat) (r : List WBeat), s.core = true ∧ s.drives = true ∧ s.mem.wbeats = b :: r) ∧ (∃ (s :
    State) (id : BitVec 8) (t : Txn), s.core = true ∧ s.drives = true ∧ s.mem.txns.find? (fun t => t.id == id.toNat
    && !t.write) = some t ∧ t.dead = false ∧ (∀ j ∈ s.mem.jobs, j.ended = false)) ∧ (∃ (s : State) (id : BitVec 8)
    (t : Txn), s.core = true ∧ s.drives = true ∧ s.mem.txns.find? (fun t => t.id == id.toNat && !t.write) = some t
    ∧ t.dead = false ∧ t.bad = false ∧ t.got + 1 = t.beats) ∧ (∃ (s : State) (id : BitVec 8) (t : Txn), s.core =
    true ∧ s.drives = true ∧ s.mem.txns.find? (fun t => t.id == id.toNat && t.write) = some t ∧ t.dead = false) ∧
    (∃ (s : State) (id : BitVec 8), s.core = true ∧ s.drives = true ∧ s.mem.txns.find? (fun t => t.id == id.toNat
    && !t.write) = none ∧ (∀ j ∈ s.mem.jobs, j.ended = false)) ∧ (∃ (s : State) (id : BitVec 8), s.core = true ∧
    s.drives = true ∧ s.mem.txns.find? (fun t => t.id == id.toNat && t.write) = none ∧ (∀ j ∈ s.mem.jobs, j.ended =
    false)) ∧ (∃ (s : State), (∀ j ∈ s.mem.jobs, j.ended = false)) :=
  ⟨⟨{ rig with mem := { rig.mem with wbeats := [{ data := 5, strb := 1, last := true }] } },
    { data := 5, strb := 1, last := true }, [], by decide +kernel⟩,
   ⟨(jobs [{ aJob 100 false (.chunk 0 9 false 0 false) with open_ := 1, issued := 100 }] [aTxn false] rig), 5,
    (aTxn false), by decide +kernel⟩,
   ⟨(jobs [{ aJob 100 false (.chunk 0 9 false 0 false) with open_ := 2, issued := 100 }] [{ aTxn false with got := 1 }] rig),
    5, { aTxn false with got := 1 }, by decide +kernel⟩,
   ⟨(jobs [{ aJob 100 true (.snap 3 5) with open_ := 2, issued := 100 }] [aTxn true] rig), 5, (aTxn true),
    by decide +kernel⟩,
   ⟨rig, 5, by decide +kernel⟩,
   ⟨rig, 5, by decide +kernel⟩,
   ⟨rig, by decide +kernel⟩⟩

theorem meets_PortFaults :
    (∃ (s : State) (id : BitVec 8) (x : Txn), s.core = true ∧ s.mem.txns.find? (fun t => t.id == id.toNat &&
    !t.dead) = some x ∧ x.at_ + 1000000 ≤ s.ttb.time ∧ (∀ j ∈ s.mem.jobs, j.id = x.job → 1 < j.open_) ∧ (∀ j ∈
    s.mem.jobs, j.ended = false) ∧ (∀ j ∈ s.mem.jobs, j.scrubs = false)) ∧ (∃ (s : State) (id : BitVec 8) (x :
    Txn), s.mem.txns.find? (fun t => t.id == id.toNat && !t.dead) = some x ∧ s.ttb.time < x.at_ + 1000000 ∧ (∀ j ∈
    s.mem.jobs, j.ended = false)) ∧ (∃ (s : State) (p : Nat), s.core = true ∧ portHoldsWork s p = true ∧ p ≠ 1) ∧
    (∃ (s : State), s.core = true ∧ portHoldsWork s 1 = true ∧ s.exp.stallAt = none) :=
  ⟨⟨(jobs [{ aJob 100 true (.snap 3 5) with open_ := 2, issued := 100 }] [aTxn true] rig), 5, (aTxn true),
    by decide +kernel⟩,
   ⟨(jobs [{ aJob 100 true (.snap 3 5) with open_ := 2, issued := 100 }] [{ aTxn true with at_ := 49000001 }] rig),
    5, { aTxn true with at_ := 49000001 }, by decide +kernel⟩,
   ⟨(jobs [] [aTxn true] rig), 0, by decide +kernel⟩,
   ⟨(laneWith 1 (some (aFrame 3 9 false false)) false false rig), by decide +kernel⟩⟩

theorem meets_FrameTaken :
    ∃ (s : State) (l o : Nat), s.core = true ∧ s.drives = true ∧ l < 2 ∧ l < s.exp.lanes.length ∧ o <
    s.exp.sess.length ∧ laneFree (s.exp.lanes.getD l Lane.reset) = true ∧ (s.exp.lanes.getD l Lane.reset).cur =
    none ∧ ((List.range 17).map fun k => (s.exp.rr + k) % 17).find? (fun o => hasFrame s o && laneFor s (s.session
    o) == l) = some o ∧ (s.session o).seq < 2 ^ 64 - 1 ∧ (s.siding (s.session o).siding).avail ≠ 0 ∧ (s.session
    o).closing = none ∧ (s.session o).enc = true ∧ (s.siding (s.session o).siding).state = 1 :=
  ⟨(filled 9 aSiding [lengthWord 2, 0x11, 0x22] (withSession 3 { aSession 9 with enc := true, lanes := 2, key := List.replicate 16 0, salt := [1, 2, 3, 4] } rig)),
    1, 3, by decide +kernel⟩

theorem meets_LastFrame :
    ∃ (s : State) (l o : Nat), s.core = true ∧ s.drives = true ∧ l < 2 ∧ l < s.exp.lanes.length ∧ o <
    s.exp.sess.length ∧ laneFree (s.exp.lanes.getD l Lane.reset) = true ∧ (s.exp.lanes.getD l Lane.reset).cur =
    none ∧ ((List.range 17).map fun k => (s.exp.rr + k) % 17).find? (fun o => hasFrame s o && laneFor s (s.session
    o) == l) = some o ∧ (s.session o).seq < 2 ^ 64 - 1 ∧ (s.siding (s.session o).siding).avail = 0 :=
  ⟨(mkSiding 9 aSiding (withSession 3 { aSession 9 with lanes := 1, closing := some (aTicket 3 0x81) } rig)), 0, 3,
    by decide +kernel⟩

theorem meets_FrameBeats :
    (∃ (s : State) (l : Nat) (f : Frame), s.core = true ∧ s.drives = true ∧ (s.exp.lanes.getD l Lane.reset).cur =
    some f ∧ (s.exp.lanes.getD l Lane.reset).abort = false ∧ 8 < f.bytes.length) ∧ (∃ (s : State) (l : Nat) (f :
    Frame), s.core = true ∧ s.drives = true ∧ (s.exp.lanes.getD l Lane.reset).cur = some f ∧ (s.exp.lanes.getD l
    Lane.reset).abort = false ∧ f.bytes.length ≤ 8 ∧ f.hasItem = false ∧ f.last = false) ∧ (∃ (s : State) (l :
    Nat), s.drives = true ∧ (s.exp.lanes.getD l Lane.reset).abort = true ∧ (s.exp.lanes.getD l Lane.reset).resets =
    false) ∧ (∃ (s : State) (l : Nat), s.drives = true ∧ (s.exp.lanes.getD l Lane.reset).abort = true ∧
    (s.exp.lanes.getD l Lane.reset).resets = true) :=
  ⟨⟨(laneWith 1 (some (aFrame 3 9 false false)) false false rig), 1, (aFrame 3 9 false false), by decide +kernel⟩,
   ⟨(laneWith 1 (some (aFrame 3 8 false false)) false false rig), 1, (aFrame 3 8 false false), by decide +kernel⟩,
   ⟨(laneWith 1 none true false rig), 1, by decide +kernel⟩,
   ⟨(laneWith 1 none true true rig), 1, by decide +kernel⟩⟩

theorem meets_ExportReleases :
    ∃ (s : State) (l : Nat) (f : Frame), s.core = true ∧ s.drives = true ∧ (s.exp.lanes.getD l Lane.reset).cur =
    some f ∧ (s.exp.lanes.getD l Lane.reset).abort = false ∧ f.bytes.length ≤ 8 ∧ f.hasItem = true ∧ f.last = false
    ∧ (s.siding f.sid).state = 1 ∧ (s.siding f.sid).markValid = false ∧ s.exp.flight = [(f.sid, f.itemEnd, false)]
    ∧ (s.siding f.sid).dist (s.siding f.sid).rel f.itemEnd ≤ (s.siding f.sid).dist (s.siding f.sid).rel (s.siding
    f.sid).rd :=
  ⟨(flying (filled 9 { aSiding with consumer := 2, rd := 3 } [lengthWord 2, 0x11, 0x22] (laneWith 1 (some (aFrame 3 8 true false)) false false rig))),
    1, (aFrame 3 8 true false), by decide +kernel⟩

theorem meets_SessionCloses :
    (∃ (s : State) (w : Nat) (pk : List Word), Issues 0x81 w pk s ∧ w < s.exp.sess.length ∧ (s.session w).isOpen =
    true ∧ (s.session w).closing = none ∧ (∀ i ∈ bitsOf 33 (s.session w).mask.toNat, (s.myd.streams.getD i
    Stream.reset).payload = none)) ∧ (∃ (s : State) (w : Nat) (pk : List Word), Issues 0x81 w pk s ∧ ((s.session
    w).isOpen = false ∨ (s.session w).closing ≠ none)) ∧ (∃ (s : State) (l : Nat) (f : Frame) (k : Ticket), s.core
    = true ∧ s.drives = true ∧ (s.exp.lanes.getD l Lane.reset).cur = some f ∧ (s.exp.lanes.getD l Lane.reset).abort
    = false ∧ f.bytes.length ≤ 8 ∧ f.hasItem = false ∧ f.last = true ∧ f.owner < s.exp.sess.length ∧ (s.session
    f.owner).closing = some k ∧ k.tkl = false) :=
  ⟨⟨(sent 3 (packet 0x81 0x100000000 []) (mkSiding 9 aSiding (withSession 3 (aSession 9) rig))), 3,
    (packet 0x81 0x100000000 []), by decide +kernel⟩,
   ⟨(sent 3 (packet 0x81 0x100000000 []) rig), 3, (packet 0x81 0x100000000 []), by decide +kernel⟩,
   ⟨(laneWith 1 (some (aFrame 3 8 false true)) false false (mkSiding 9 aSiding (withSession 3 { aSession 9 with closing := some (aTicket 3 0x81) } rig))),
    1, (aFrame 3 8 false true), (aTicket 3 0x81), by decide +kernel⟩⟩

theorem meets_SessionOpens :
    (∃ (s : State) (w sid id d : Nat) (pk : List Word) (rest : List Byte) (who : Identity), Issues 0x80 w pk s ∧ w
    < s.exp.sess.length ∧ s.ilk.testState = false ∧ s.ilk.identity = some who ∧ (s.session w).isOpen = false ∧
    (s.session w).opening = false ∧ sessionSiding s w = some sid ∧ p256On (receiverKey pk) = true ∧ s.ilk.trng = 1
    ∧ s.exp.opens = [] ∧ drawSession w s.ilk.entropy = some (id, d, rest)) ∧ (∃ (s : State) (w : Nat) (pk : List
    Word), Issues 0x80 w pk s ∧ (s.ilk.testState = true ∨ s.ilk.identity = none)) ∧ (∃ (s : State) (w : Nat) (pk :
    List Word), Issues 0x80 w pk s ∧ s.ilk.testState = false ∧ s.ilk.identity ≠ none ∧ ((s.session w).isOpen = true
    ∨ (s.session w).opening = true ∨ sessionSiding s w = none)) ∧ (∃ (s : State) (id : BitVec 8) (x : Txn) (j :
    Job) (k : Ticket), s.core = true ∧ s.drives = true ∧ s.mem.txns.find? (fun t => t.id == id.toNat && t.write) =
    some x ∧ x.dead = false ∧ s.mem.jobs = [j] ∧ j.id = x.job ∧ j.purpose = .session k ∧ j.issued = j.len ∧ j.open_
    = 1 ∧ j.err = 0 ∧ k.w < s.exp.sess.length ∧ (s.session k.w).opening = true ∧ (s.session k.w).siding <
    s.sdg.desc.length) :=
  ⟨⟨(sent 3 (packet 0x80 0x100000000 (4096 :: generator)) (mkSiding 9 { aSiding with consumer := 2, producer := 0 } (entropy 64 (identified rig)))),
    3, 9, (((drawSession 3 (List.replicate 64 1)).getD (0, 0, [])).1),
    (((drawSession 3 (List.replicate 64 1)).getD (0, 0, [])).2.1), (packet 0x80 0x100000000 (4096 :: generator)),
    (((drawSession 3 (List.replicate 64 1)).getD (0, 0, [])).2.2), { d := 5, qx := 1, qy := 2, deviceId := [] },
    by decide +kernel⟩,
   ⟨(sent 3 (packet 0x80 0x100000000 (4096 :: generator)) rig), 3, (packet 0x80 0x100000000 (4096 :: generator)),
    by decide +kernel⟩,
   ⟨(sent 3 (packet 0x80 0x100000000 (4096 :: generator)) (identified rig)), 3,
    (packet 0x80 0x100000000 (4096 :: generator)), by decide +kernel⟩,
   ⟨(jobs [{ aJob 100 true (.session (aTicket 3 0x80)) with open_ := 1, issued := 100 }] [aTxn true] (withSession 3 { aSession 9 with isOpen := false, opening := true } rig)),
    5, (aTxn true), { aJob 100 true (.session (aTicket 3 0x80)) with open_ := 1, issued := 100 }, (aTicket 3 0x80),
    by decide +kernel⟩⟩

theorem meets_SessionEndsOnStall :
    (∃ (s : State) (o t0 : Nat), s.core = true ∧ s.exp.stallAt = some t0 ∧ t0 + 10000000 ≤ s.ttb.time ∧ o < 17 ∧ o
    < s.exp.sess.length ∧ (s.session o).isOpen = true) ∧ (∃ (s : State), s.exp.stallAt = none) :=
  ⟨⟨(stalled 40000000 (mkSiding 9 aSiding (withSession 3 (aSession 9) rig))), 3, 40000000, by decide +kernel⟩,
   ⟨rig, by decide +kernel⟩⟩

theorem meets_FrameWindowOpens :
    (∃ (s : State) (k : Nat) (w : FrameWin), s.core = true ∧ s.wtp.windows.find? (fun x => x.slot == k &&
    !x.opened) = some w ∧ w.openAt ≤ s.ttb.time ∧ s.ttb.announced = none) ∧ (∃ (s : State) (k : Nat) (w : FrameWin)
    (b : Boundary), s.core = true ∧ s.wtp.windows.find? (fun x => x.slot == k && !x.opened) = some w ∧
    s.ttb.announced = some b ∧ b.t ≤ w.openAt) ∧ (∃ (s : State) (k : Nat) (w : FrameWin), s.wtp.windows.find? (fun
    x => x.slot == k && !x.opened) = some w ∧ s.ttb.time < w.openAt) :=
  ⟨⟨(windowsAre [aWin false none] rig), 15, (aWin false none), by decide +kernel⟩,
   ⟨(announced 50000000 (windowsAre [aWin false none] rig)), 15, (aWin false none), (boundaryAtT 50000000 false),
    by decide +kernel⟩,
   ⟨(windowsAre [aWin false none] (at_ 49999999 rig)), 15, (aWin false none), by decide +kernel⟩⟩

theorem meets_FrameWindowCloses :
    (∃ (s : State) (k c : Nat) (w : FrameWin), s.core = true ∧ s.wtp.windows.find? (fun x => x.slot == k &&
    x.opened && !x.closed) = some w ∧ w.closeAt = some c ∧ c ≤ s.ttb.time ∧ operandsBefore s c = false) ∧ (∃ (s :
    State) (k c : Nat) (w : FrameWin), s.wtp.windows.find? (fun x => x.slot == k && x.opened && !x.closed) = some w
    ∧ w.closeAt = some c ∧ (s.ttb.time < c ∨ operandsBefore s c = true)) :=
  ⟨⟨(windowsAre [aWin true (some 50000000)] rig), 15, 50000000, (aWin true (some 50000000)), by decide +kernel⟩,
   ⟨(windowsAre [aWin true (some 50000000)] (at_ 49999999 rig)), 15, 50000000, (aWin true (some 50000000)),
    by decide +kernel⟩⟩

theorem meets_WorkItemStarts :
    (∃ (s : State) (t : Nat) (it : WorkItem), s.core = true ∧ (s.track t).state = 1 ∧ (s.track t).running = none ∧
    nextItem s t = some it ∧ nothingToRun it = true) ∧ (∃ (s : State) (t : Nat) (it : WorkItem), s.core = true ∧
    (s.track t).state = 1 ∧ (s.track t).running = none ∧ nextItem s t = some it ∧ nothingToRun it = false ∧
    itemChunks it.layer ≠ [] ∧ it.asked = false ∧ (∀ j ∈ s.wtp.items, j.track = it.track → j.slot = it.slot →
    j.layerIx = it.layerIx → j.id ≠ it.id → j.chunks = [])) ∧ (∃ (s : State) (t : Nat) (it : WorkItem), s.core =
    true ∧ (s.track t).state = 1 ∧ (s.track t).running = none ∧ nextItem s t = some it ∧ nothingToRun it = false ∧
    it.asked = true) :=
  ⟨⟨(items [workItem (aLayer 4 0) [aSample 0 1] 1 0] rig), 2, (workItem (aLayer 4 0) [aSample 0 1] 1 0),
    by decide +kernel⟩,
   ⟨(items [{ ewItem 1 0 with asked := false, chunks := [] }] rig), 2,
    { ewItem 1 0 with asked := false, chunks := [] }, by decide +kernel⟩,
   ⟨(items [ewItem 1 0] rig), 2, (ewItem 1 0), by decide +kernel⟩⟩

theorem meets_WorkItemOrder :
    ∃ (s : State) (t : Nat) (it : WorkItem), nextItem s t = some it :=
  ⟨(items [ewItem 1 0, { padItem 1 0 with id := 2, due := some 59000000 }] rig), 2,
    { padItem 1 0 with id := 2, due := some 59000000 }, by decide +kernel⟩

theorem meets_ChunkDecrypted :
    (∃ (s : State) (t id ix : Nat) (it : WorkItem) (b plain : List Byte) (r : List (Nat × List Byte)), s.core =
    true ∧ (s.track t).state = 1 ∧ (s.track t).running = some id ∧ itemById s id = some it ∧ it.raw = (ix, b) :: r
    ∧ it.track = t ∧ openChunk s b = some plain) ∧ (∃ (s : State) (t id ix : Nat) (it : WorkItem) (b : List Byte)
    (r : List (Nat × List Byte)), s.core = true ∧ t < s.trk.length ∧ (s.track t).state = 1 ∧ (s.track t).running =
    some id ∧ itemById s id = some it ∧ it.raw = (ix, b) :: r ∧ openChunk s b = none ∧ it.track = t ∧ it.due ≠ none
    ∧ (∀ c ∈ it.chunks, c.1 ≠ ix) ∧ (s.wtp.items.map fun i => i.id).Nodup ∧ s.wbr.owedSts = [] ∧ s.wtp.old = []) :=
  ⟨⟨(keyed 7 77 3 (runs { ewItem 2 0 with raw := [(1, aChunk)] })), 2, 1, 1,
    { ewItem 2 0 with raw := [(1, aChunk)] }, aChunk, [], [], by decide +kernel⟩,
   ⟨(runs { ewItem 2 0 with raw := [(1, [0, 0, 1])], chunks := [] }), 2, 1, 1,
    { ewItem 2 0 with raw := [(1, [0, 0, 1])], chunks := [] }, [0, 0, 1], [], by decide +kernel⟩⟩

theorem meets_TrackPasses :
    (∃ (s : State) (t id : Nat) (it : WorkItem), s.core = true ∧ t < s.trk.length ∧ (s.track t).state = 1 ∧
    (s.track t).katDue = false ∧ (s.track t).running = some id ∧ itemById s id = some it ∧ it.phase = 3 ∧ it.passes
    < passTotal it (passSets it) ∧ (s.track t).left = 0 ∧ (s.track t).retrying = none ∧
    (let cost := passSteps it.layer + loadCost it (passSets it); cost ≤ (s.track t).tokens)) ∧ (∃ (s : State) (t id
    : Nat) (it : WorkItem), s.core = true ∧ t < s.trk.length ∧ (s.track t).state = 1 ∧ (s.track t).katDue = false ∧
    (s.track t).running = some id ∧ itemById s id = some it ∧ it.phase = 3 ∧ it.passes < passTotal it (passSets it)
    ∧ (s.track t).left = 0 ∧ (s.track t).retrying = none ∧
    (let cost := passSteps it.layer + loadCost it (passSets it); (s.track t).tokens < cost)) ∧ (∃ (s : State) (t id
    : Nat) (it : WorkItem), s.core = true ∧ t < s.trk.length ∧ (s.track t).state = 1 ∧ (s.track t).katDue = false ∧
    (s.track t).running = some id ∧ itemById s id = some it ∧ it.phase = 3 ∧ it.passes < passTotal it (passSets it)
    ∧ (s.track t).left = 0 ∧ (s.track t).retrying = none ∧
    (let cost := passSteps it.layer + loadCost it (passSets it); cost ≤ (s.track t).tokens)) ∧ (∃ (s : State) (t id
    : Nat) (it : WorkItem), s.core = true ∧ t < s.trk.length ∧ (s.track t).state = 1 ∧ (s.track t).katDue = false ∧
    (s.track t).running = some id ∧ itemById s id = some it ∧ it.phase = 3 ∧ it.passes < passTotal it (passSets it)
    ∧ (s.track t).left = 0 ∧ (s.track t).retrying = some .residue ∧ passSteps it.layer ≤ (s.track t).tokens) ∧ (∃
    (s : State) (t id : Nat) (it : WorkItem) (check : PassCheck), s.core = true ∧ t < 4 ∧ s.trk.length = 4 ∧
    (s.track t).state = 1 ∧ (s.track t).katDue = false ∧ (s.track t).running = some id ∧ itemById s id = some it ∧
    it.phase = 3 ∧ it.passes < passTotal it (passSets it) ∧ (s.track t).left = 0 ∧ (s.track t).retrying ≠ none ∧
    passSteps it.layer ≤ (s.track t).tokens ∧ (check = .residue ∨ check = .parity)) ∧ (∃ (s : State) (t : Nat),
    (s.track t).katDue = true) :=
  ⟨⟨(runs (padItem 3 0)), 2, 1, (padItem 3 0), by decide +kernel⟩,
   ⟨(trackIs 2 (fun x => { x with tokens := 384 }) (runs (padItem 3 0))), 2, 1, (padItem 3 0), by decide +kernel⟩,
   ⟨(runs (ewItem 3 0)), 2, 1, (ewItem 3 0), by decide +kernel⟩,
   ⟨(trackIs 2 (fun x => { x with retrying := some .residue }) (runs (ewItem 3 0))), 2, 1, (ewItem 3 0),
    by decide +kernel⟩,
   ⟨(trackIs 2 (fun x => { x with retrying := some .parity }) (runs (ewItem 3 0))), 2, 1, (ewItem 3 0), .residue,
    by decide +kernel⟩,
   ⟨(trackIs 2 (fun x => { x with katDue := true }) rig), 2, by decide +kernel⟩⟩

theorem meets_KnownAnswer :
    (∃ (s : State) (t : Nat), s.core = true ∧ t < s.trk.length ∧ (s.track t).state = 1 ∧ (s.track t).katDue = true
    ∧ (s.track t).katLeft ≤ (s.track t).tokens) ∧ (∃ (s : State) (t : Nat), s.core = true ∧ t < s.trk.length ∧
    (s.track t).state = 1 ∧ (s.track t).katDue = true ∧ (s.track t).tokens < (s.track t).katLeft) ∧ (∃ (s : State)
    (t : Nat), s.core = true ∧ t < s.trk.length ∧ (s.track t).state = 1 ∧ (s.track t).katDue = true ∧ (s.track
    t).katLeft ≤ (s.track t).tokens) :=
  ⟨⟨(trackIs 2 (fun x => { x with katDue := true, katLeft := 512 }) rig), 2, by decide +kernel⟩,
   ⟨(trackIs 2 (fun x => { x with katDue := true, katLeft := 512, tokens := 511 }) rig), 2, by decide +kernel⟩,
   ⟨(trackIs 2 (fun x => { x with katDue := true, katLeft := 1 }) rig), 2, by decide +kernel⟩⟩

theorem meets_TrackWithdrawn :
    (∃ (s : State) (t : Nat), s.core = true ∧ t < 4 ∧ s.trk.length = 4 ∧ (s.track t).state = 1 ∧ stepReady s t =
    true ∧ 0 < (s.track t).tokens ∧ (s.track t).progress + 100000 ≤ s.ttb.time) ∧ (∃ (s : State) (t : Nat),
    s.ttb.time < (s.track t).progress + 100000) :=
  ⟨⟨(runs (padItem 3 0)), 2, by decide +kernel⟩,
   ⟨(at_ 49999999 (runs (padItem 3 0))), 2, by decide +kernel⟩⟩

theorem meets_SampleSetCommits :
    (∃ (s : State) (t id due : Nat) (it : WorkItem) (x : Sample), s.core = true ∧ (s.track t).running = some id ∧
    itemById s id = some it ∧ it.samples.find? (fun z => !z.done) = some x ∧ ((∃ y ∈ it.samples, y.done = false ∧
    y.num ≠ x.num) ∨ (s.wbr.owedSts = [] ∧ s.wtp.old = [])) ∧ sampleFinished it x = true ∧ heldVrd s < 4096 ∧
    it.due = some due ∧ s.ttb.time ≤ due ∧ 1 < s.jct.intIn.length ∧ (resultNow s it x).mism = 0 ∧ wholeCompared it
    (resultNow s it x) = true) ∧ (∃ (s : State) (t id due : Nat) (it : WorkItem) (x : Sample), s.core = true ∧
    (s.track t).running = some id ∧ itemById s id = some it ∧ it.samples.find? (fun z => !z.done) = some x ∧ ((∃ y
    ∈ it.samples, y.done = false ∧ y.num ≠ x.num) ∨ (s.wbr.owedSts = [] ∧ s.wtp.old = [])) ∧ sampleFinished it x =
    true ∧ heldVrd s < 4096 ∧ it.due = some due ∧ s.ttb.time ≤ due) ∧ (∃ (s : State) (t id : Nat) (it : WorkItem)
    (x : Sample), (s.track t).running = some id ∧ itemById s id = some it ∧ it.samples.find? (fun z => !z.done) =
    some x ∧ sampleFinished it x = false) :=
  ⟨⟨(runs (ewItem 3 1)), 2, 1, 60000000, (ewItem 3 1), (aSample 0 0), by decide +kernel⟩,
   ⟨(runs (ewItem 3 1)), 2, 1, 60000000, (ewItem 3 1), (aSample 0 0), by decide +kernel⟩,
   ⟨(runs (ewItem 3 0)), 2, 1, (ewItem 3 0), (aSample 0 0), by decide +kernel⟩⟩

theorem meets_DeadlineCommitsLate :
    (∃ (s : State) (it : WorkItem), s.core = true ∧ overdueItem s = some it ∧ s.wbr.owedSts = [] ∧ s.wtp.old = [] ∧
    s.wtp.lateCnt < 2 ^ 32) ∧ (∃ (s : State), (∀ i ∈ s.wtp.items, ∀ d, i.due = some d → s.ttb.time < d)) :=
  ⟨⟨(at_ 60000000 (runs (ewItem 3 0))), (ewItem 3 0), by decide +kernel⟩,
   ⟨(at_ 59999999 (runs (ewItem 3 0))), by decide +kernel⟩⟩

theorem meets_PlanLoads :
    (∃ (s : State) (w k : Nat) (pk : List Word), Issues 0x50 w pk s ∧ bit (pk.getD 0 0) 27 = false ∧ fld (pk.getD 0
    0) 0 4 = k ∧ mayNamePlan s w k = true ∧ planBusy s k = false ∧ bit (pk.getD 0 0) 26 = false ∧ k <
    s.wtp.slots.length ∧ (∀ h ∈ s.dsp.heldQ, h.unit ≠ unitPlan k)) ∧ (∃ (s : State) (w k : Nat) (pk : List Word),
    Issues 0x50 w pk s ∧ bit (pk.getD 0 0) 27 = false ∧ fld (pk.getD 0 0) 0 4 = k ∧ mayNamePlan s w k = true ∧
    planBusy s k = false ∧ bit (pk.getD 0 0) 26 = true) ∧ (∃ (s : State) (w k : Nat) (pk : List Word), Issues 0x50
    w pk s ∧ bit (pk.getD 0 0) 27 = false ∧ fld (pk.getD 0 0) 0 4 = k ∧ mayNamePlan s w k = true ∧ planBusy s k =
    true) ∧ (∃ (s : State) (w k : Nat) (pk : List Word), Issues 0x50 w pk s ∧ bit (pk.getD 0 0) 27 = false ∧ fld
    (pk.getD 0 0) 0 4 = k ∧ mayNamePlan s w k = false) ∧ (∃ (s : State) (w : Nat) (pk : List Word), Issues 0x50 w
    pk s ∧ bit (pk.getD 0 0) 27 = true ∧ (∀ k < 16, planFree s k = false)) ∧ (∃ (s : State) (b : List Byte) (p :
    Plan) (k : Nat) (t : Ticket), k < s.wtp.slots.length ∧ parsePlan b = (0, some p) ∧ planFits s k p.totalLen =
    true ∧ senderGone t s = false) ∧ (∃ (s : State) (b : List Byte) (t : Ticket), (parsePlan b).2 = none ∨
    senderGone t s = true) :=
  ⟨⟨(sent 3 (packet 0x50 0x10000000F [4096]) rig), 3, 15, (packet 0x50 0x10000000F [4096]), by decide +kernel⟩,
   ⟨(sent 3 (packet 0x50 0x10400000F [4096]) rig), 3, 15, (packet 0x50 0x10400000F [4096]), by decide +kernel⟩,
   ⟨(sent 3 (packet 0x50 0x10000000F [4096]) (planIn 15 2 (aPlan 77) rig)), 3, 15, (packet 0x50 0x10000000F [4096]),
    by decide +kernel⟩,
   ⟨(sent 3 (packet 0x50 0x10000000F [4096]) (planOf4 rig)), 3, 15, (packet 0x50 0x10000000F [4096]),
    by decide +kernel⟩,
   ⟨(sent 3 (packet 0x50 0x108000000 [4096]) (allPlans rig)), 3, (packet 0x50 0x108000000 [4096]), by decide +kernel⟩,
   ⟨rig, planImage, (((parsePlan planImage).2.getD (aPlan 0))), 15, (aTicket 3 0x50), by decide +kernel⟩,
   ⟨rig, [0x4C, 0x50], (aTicket 3 0x50), by decide +kernel⟩⟩

theorem meets_PlanArms :
    (∃ (s : State) (w k : Nat) (pk : List Word) (p : Plan), Issues 0x51 w pk s ∧ fld (pk.getD 0 0) 0 4 = k ∧
    settledPlan s k = some p ∧ mayNamePlan s w k = true ∧ holdsKey s p.bundle = true ∧ planClash s k p = false) ∧
    (∃ (s : State) (w k : Nat) (pk : List Word) (p : Plan), Issues 0x51 w pk s ∧ fld (pk.getD 0 0) 0 4 = k ∧
    settledPlan s k = some p ∧ mayNamePlan s w k = true ∧ (holdsKey s p.bundle = false ∨ planClash s k p = true)) ∧
    (∃ (s : State) (w k : Nat) (pk : List Word) (p : Plan), Issues 0x52 w pk s ∧ fld (pk.getD 0 0) 0 4 = k ∧
    settledPlan s k = some p ∧ mayNamePlan s w k = true) ∧ (∃ (s : State) (w k : Nat) (pk : List Word), Issues 0x51
    w pk s ∧ fld (pk.getD 0 0) 0 4 = k ∧ settledPlan s k = none) ∧ (∃ (s : State) (w k : Nat) (pk : List Word),
    Issues 0x52 w pk s ∧ fld (pk.getD 0 0) 0 4 = k ∧ settledPlan s k = none) :=
  ⟨⟨(sent 3 (packet 0x51 0x10000000F []) (keyed 7 77 3 (planIn 15 1 (aPlan 77) rig))), 3, 15,
    (packet 0x51 0x10000000F []), (aPlan 77), by decide +kernel⟩,
   ⟨(sent 3 (packet 0x51 0x10000000F []) (keyed 7 78 3 (planIn 15 1 (aPlan 77) rig))), 3, 15,
    (packet 0x51 0x10000000F []), (aPlan 77), by decide +kernel⟩,
   ⟨(sent 3 (packet 0x52 0x10000000F []) (planIn 15 2 (aPlan 77) rig)), 3, 15, (packet 0x52 0x10000000F []),
    (aPlan 77), by decide +kernel⟩,
   ⟨(sent 3 (packet 0x51 0x10000000F []) rig), 3, 15, (packet 0x51 0x10000000F []), by decide +kernel⟩,
   ⟨(sent 3 (packet 0x52 0x10000000F []) rig), 3, 15, (packet 0x52 0x10000000F []), by decide +kernel⟩⟩

theorem meets_CoverSet :
    ∃ (s : State) (pk : List Word), Issues 0x53 16 pk s :=
  ⟨(sent 16 (packet 0x53 0x100000000 [0xFFFFFFFFFFFFFFFF]) rig), (packet 0x53 0x100000000 [0xFFFFFFFFFFFFFFFF]),
    by decide +kernel⟩

theorem meets_PilotReady :
    (∃ (s : State) (i : Nat) (f : PFrame), s.core = true ∧ s.plt.frames.find? (fun x => x.stream == i &&
    x.track.isSome && !x.judged && !x.ready) = some f ∧ f.tr ≤ s.ttb.time ∧ opsBefore s (pStation f.word) f.tr =
    false ∧ f.gone = false ∧ (∀ o ∈ frameBeats s f, ∃ b ∈ f.beats, b.1 = o)) ∧ (∃ (s : State) (i : Nat) (f :
    PFrame), s.core = true ∧ s.plt.frames.find? (fun x => x.stream == i && x.track.isSome && !x.judged && !x.ready)
    = some f ∧ f.tr ≤ s.ttb.time ∧ opsBefore s (pStation f.word) f.tr = false ∧ f.gone = true ∧ 3 <
    s.jct.intIn.length) ∧ (∃ (s : State) (i : Nat) (f : PFrame), s.plt.frames.find? (fun x => x.stream == i &&
    x.track.isSome && !x.judged && !x.ready) = some f ∧ s.ttb.time < f.tr) :=
  ⟨⟨(pframes [aPFrame id] rig), 4, (aPFrame id), by decide +kernel⟩,
   ⟨(pframes [aPFrame fun f => { f with gone := true }] rig), 4, (aPFrame fun f => { f with gone := true }),
    by decide +kernel⟩,
   ⟨(pframes [aPFrame id] (at_ 49999999 rig)), 4, (aPFrame id), by decide +kernel⟩⟩

theorem meets_PilotStarts :
    (∃ (s : State) (t : Nat) (f : PFrame) (m : PModel), s.core = true ∧ t < s.trk.length ∧ firstFrame s t = some f
    ∧ f.model = some m ∧ (s.track t).state = 1 ∧ checkReady s t = false ∧ (s.track t).pilot = none ∧ f.ready = true
    ∧ (s.track t).katDue = false) ∧ (∃ (s : State) (t : Nat), checkReady s t = true) :=
  ⟨⟨(pframes [aPFrame fun f => { f with ready := true, model := some aModel }] rig), 2,
    (aPFrame fun f => { f with ready := true, model := some aModel }), aModel, by decide +kernel⟩,
   ⟨(items [ewItem 1 0] (pframes [aPFrame fun f => { f with ready := true, model := some aModel }] rig)), 2,
    by decide +kernel⟩⟩

theorem meets_PilotJudged :
    (∃ (s : State) (i : Nat) (f : PFrame) (m : PModel), s.core = true ∧ s.plt.frames.find? (fun x => x.stream == i
    && x.finished && !x.judged) = some f ∧ f.model = some m ∧ inMerge s (pResStation f.word) = false ∧ 3 <
    s.jct.intIn.length) ∧ (∃ (s : State) (i : Nat) (f : PFrame) (m : PModel), s.plt.frames.find? (fun x => x.stream
    == i && x.finished && !x.judged) = some f ∧ f.model = some m ∧ inMerge s (pResStation f.word) = true ∧
    lineClearTo s (pResStation f.word) (f.td - 100000) = false) :=
  ⟨⟨(pframes [aPFrame fun f => { f with finished := true, model := some aModel }] (stnWith 60 (fun x => { x with st := .failed }) rig)),
    4, (aPFrame fun f => { f with finished := true, model := some aModel }), aModel, by decide +kernel⟩,
   ⟨(pframes [aPFrame fun f => { f with finished := true, model := some aModel }] rig), 4,
    (aPFrame fun f => { f with finished := true, model := some aModel }), aModel, by decide +kernel⟩⟩

theorem meets_PilotOverruns :
    ∃ (s : State) (i k : Nat) (f : PFrame), s.core = true ∧ s.plt.frames.find? (fun x => x.stream == i &&
    x.track.isSome && !x.finished && !x.judged && decide (lastMoment x ≤ s.ttb.time)) = some f ∧ f.track = some k ∧
    k < s.trk.length ∧ (s.track k).pilot = some f.id ∧ 3 < s.jct.intIn.length :=
  ⟨(at_ 59900000 (pframes [aPFrame id] (trackIs 2 (fun x => { x with pilot := some 1 }) rig))), 4, 2, (aPFrame id),
    by decide +kernel⟩

theorem meets_StatisticsClose :
    (∃ (s : State) (c : StatsEnd) (r : List StatsEnd), s.core = true ∧ s.wbr.toClose = c :: r ∧ c.closeAt ≤
    s.ttb.time) ∧ (∃ (s : State) (c : StatsEnd) (r : List StatsEnd), s.wbr.toClose = c :: r ∧ s.ttb.time <
    c.closeAt) :=
  ⟨⟨(closing (aStats 50000000) rig), (aStats 50000000), [], by decide +kernel⟩,
   ⟨(closing (aStats 50000001) rig), (aStats 50000001), [], by decide +kernel⟩⟩

theorem meets_PilotLoads :
    (∃ (s : State) (w k : Nat) (pk : List Word), Issues 0x60 w pk s ∧ fld (pk.getD 0 0) 0 2 = k ∧ mayNameModel s w
    k = true ∧ modelBusy s k = false ∧ bit (pk.getD 0 0) 26 = false ∧ k < s.plt.models.length ∧ (∀ h ∈ s.dsp.heldQ,
    h.unit ≠ unitModel k)) ∧ (∃ (s : State) (w k : Nat) (pk : List Word), Issues 0x60 w pk s ∧ fld (pk.getD 0 0) 0
    2 = k ∧ mayNameModel s w k = false) ∧ (∃ (s : State) (w i : Nat) (pk : List Word), Issues 0x61 w pk s ∧ fld
    (pk.getD 0 0) 0 4 = i ∧ mayNameStream s w i = true) ∧ (∃ (s : State) (w i : Nat) (pk : List Word), Issues 0x61
    w pk s ∧ fld (pk.getD 0 0) 0 4 = i ∧ mayNameStream s w i = false) :=
  ⟨⟨(sent 3 (packet 0x60 0x100000003 [4096]) rig), 3, 3, (packet 0x60 0x100000003 [4096]), by decide +kernel⟩,
   ⟨(sent 3 (packet 0x60 0x100000003 [4096]) (modelOf4 rig)), 3, 3, (packet 0x60 0x100000003 [4096]),
    by decide +kernel⟩,
   ⟨(sent 3 (packet 0x61 0x10000000F [4096]) rig), 3, 15, (packet 0x61 0x10000000F [4096]), by decide +kernel⟩,
   ⟨(sent 3 (packet 0x61 0x10000000F [4096]) (streamOf4 rig)), 3, 15, (packet 0x61 0x10000000F [4096]),
    by decide +kernel⟩⟩

theorem meets_PilotArms :
    (∃ (s : State) (w i : Nat) (pk : List Word), Issues 0x62 w pk s ∧ w < 16 ∧ fld (pk.getD 0 0) 0 4 = i ∧
    (let word := clampStream (fld (pk.getD 0 0) 31 1) (pk.getD 1 0); mayNameStream s w i = true ∧ mayNameModel s w
    (fld word 61 2) = true ∧ (modelSlot s (fld word 61 2)).model ≠ none)) ∧ (∃ (s : State) (i : Nat) (pk : List
    Word), Issues 0x62 16 pk s ∧ fld (pk.getD 0 0) 0 4 = i ∧
    (let word := clampStream (fld (pk.getD 0 0) 31 1) (pk.getD 1 0); (modelSlot s (fld word 61 2)).model ≠ none)) ∧
    (∃ (s : State) (w : Nat) (pk : List Word), Issues 0x62 w pk s ∧
    (let word := clampStream (fld (pk.getD 0 0) 31 1) (pk.getD 1 0); mayNameStream s w (fld (pk.getD 0 0) 0 4) =
    true ∧ mayNameModel s w (fld word 61 2) = true ∧ (modelSlot s (fld word 61 2)).model = none)) ∧ (∃ (s : State)
    (w : Nat) (pk : List Word), Issues 0x62 w pk s ∧
    (let word := clampStream (fld (pk.getD 0 0) 31 1) (pk.getD 1 0); (mayNameStream s w (fld (pk.getD 0 0) 0 4) =
    false ∨ mayNameModel s w (fld word 61 2) = false))) :=
  ⟨⟨(sent 3 (packet 0x62 0x18000000F [0x6000000000000000]) (modelIn 3 rig)), 3, 15,
    (packet 0x62 0x18000000F [0x6000000000000000]), by decide +kernel⟩,
   ⟨(sent 16 (packet 0x62 0x18000000F [0x6000000000000000]) (modelIn 3 rig)), 15,
    (packet 0x62 0x18000000F [0x6000000000000000]), by decide +kernel⟩,
   ⟨(sent 3 (packet 0x62 0x18000000F [0x6000000000000000]) rig), 3, (packet 0x62 0x18000000F [0x6000000000000000]),
    by decide +kernel⟩,
   ⟨(sent 3 (packet 0x62 0x10000000F [0x6000000000000000]) (modelOf4 rig)), 3,
    (packet 0x62 0x10000000F [0x6000000000000000]), by decide +kernel⟩⟩

theorem meets_WeighbridgeConfig :
    (∃ (s : State) (w i : Nat) (pk : List Word), Issues 0x70 w pk s ∧ bit (pk.getD 0 0) 6 = false ∧ fld (pk.getD 0
    0) 0 6 = i ∧ mayNameEntry s w i = true ∧ (w < 16 → s.ctxOwner (fld (pk.getD 1 0) 49 5) = w) ∧ w ≤ 16 ∧
    (let sel := clampSel (bit (pk.getD 0 0) 31) w (pk.getD 1 0); (bit (pk.getD 0 0) 31 = false ∨ entryClash s i sel
    = false))) ∧ (∃ (s : State) (w i : Nat) (pk : List Word), Issues 0x70 w pk s ∧ bit (pk.getD 0 0) 6 = false ∧
    fld (pk.getD 0 0) 0 6 = i ∧ bit (pk.getD 0 0) 31 = true ∧ mayNameEntry s w i = true ∧ (w < 16 → s.ctxOwner (fld
    (pk.getD 1 0) 49 5) = w) ∧ w ≤ 16 ∧ entryClash s i (clampSel true w (pk.getD 1 0)) = true) ∧ (∃ (s : State) (w
    i : Nat) (pk : List Word), Issues 0x70 w pk s ∧ bit (pk.getD 0 0) 6 = false ∧ fld (pk.getD 0 0) 0 6 = i ∧
    mayNameEntry s w i = false) ∧ (∃ (s : State) (w i : Nat) (pk : List Word), Issues 0x70 w pk s ∧ w < 16 ∧ bit
    (pk.getD 0 0) 6 = false ∧ fld (pk.getD 0 0) 0 6 = i ∧ mayNameEntry s w i = true ∧ s.ctxOwner (fld (pk.getD 1 0)
    49 5) ≠ w) :=
  ⟨⟨(sent 3 (packet 0x70 0x18000003F [0x0006000000000000, 5]) (ctxWord 3 0x300 rig)), 3, 63,
    (packet 0x70 0x18000003F [0x0006000000000000, 5]), by decide +kernel⟩,
   ⟨(sent 16 (packet 0x70 0x18000003E [0, 5]) (entryOf4 rig)), 16, 62, (packet 0x70 0x18000003E [0, 5]),
    by decide +kernel⟩,
   ⟨(sent 3 (packet 0x70 0x18000003F [0, 5]) (entryOf4 rig)), 3, 63, (packet 0x70 0x18000003F [0, 5]),
    by decide +kernel⟩,
   ⟨(sent 3 (packet 0x70 0x18000003F [0, 5]) rig), 3, 63, (packet 0x70 0x18000003F [0, 5]), by decide +kernel⟩⟩

theorem meets_CorrectedCounted :
    ∃ (s : State) (o : Occurrence) (r : List Occurrence), s.core = true ∧ s.sbx.inbox = o :: r ∧ faultSource 1 o ∧
    s.dsp.boot.state ≠ 2 :=
  ⟨(inbox (anOcc 4 1) rig), (anOcc 4 1), [], by decide +kernel⟩

theorem meets_FaultRecorded :
    (∃ (s : State) (o : Occurrence) (r : List Occurrence) (k : Nat), s.core = true ∧ s.sbx.inbox = o :: r ∧
    faultSource 2 o ∧ s.dsp.boot.state ≠ 2 ∧ (reactionOf s o).cls = 2 ∧ s.sbx.escTimes.length < escCount s ∧
    s.sbx.recs.length = 32 ∧ (∀ j < 32, (s.frec j).valid = true → (s.frec j).sub = o.sub → (s.frec j).engine =
    o.engine → (s.frec j).cause = o.cause → (s.frec j).inForce = false) ∧ (∀ j < 32, (s.frec j).valid = true →
    ((s.frec j).sub, (s.frec j).engine) = (o.sub, o.engine) ∨ some ((s.frec j).sub, (s.frec j).engine) = o.arises →
    (s.frec j).handling < o.time) ∧ (List.range 32).find? (fun j => !(s.frec j).valid) = some k) ∧ (∃ (s : State)
    (o : Occurrence) (r : List Occurrence) (k : Nat), s.core = true ∧ s.sbx.inbox = o :: r ∧ faultSource 2 o ∧
    s.dsp.boot.state ≠ 2 ∧ (reactionOf s o).cls = 2 ∧ s.sbx.escTimes.length < escCount s ∧ s.sbx.recs.length = 32 ∧
    (List.range 32).find? (fun j => (s.frec j).valid && (s.frec j).inForce && (s.frec j).sub == o.sub && (s.frec
    j).cause == o.cause && (s.frec j).engine == o.engine) = some k) ∧ (∃ (s : State) (o : Occurrence) (r : List
    Occurrence) (k : Nat), s.core = true ∧ s.sbx.inbox = o :: r ∧ faultSource 2 o ∧ s.dsp.boot.state ≠ 2 ∧
    (reactionOf s o).cls = 2 ∧ s.sbx.escTimes.length < escCount s ∧ s.sbx.recs.length = 32 ∧ (∀ j < 32, (s.frec
    j).valid = true → (s.frec j).sub = o.sub → (s.frec j).engine = o.engine → (s.frec j).cause = o.cause → (s.frec
    j).inForce = false) ∧ (List.range 32).find? (fun j => (s.frec j).valid && decide (o.time ≤ (s.frec j).handling)
    && (((s.frec j).sub, (s.frec j).engine) == (o.sub, o.engine) || some ((s.frec j).sub, (s.frec j).engine) ==
    o.arises)) = some k) :=
  ⟨⟨(inbox (anOcc 4 2) rig), (anOcc 4 2), [], 0,
    by refine ⟨?_, ?_, ?_, ?_, ?_, ?_, ?_, ?_, ?_, ?_⟩ <;> decide +kernel⟩,
   ⟨(recIs 31 aFRec (inbox (anOcc 4 2) rig)), (anOcc 4 2), [], 31, by decide +kernel⟩,
   ⟨(recIs 31 { aFRec with cause := 4, handling := 49000000 } (inbox (anOcc 4 2) rig)), (anOcc 4 2), [], 31,
    by decide +kernel⟩⟩

theorem meets_FatalState :
    (∃ (s : State) (o : Occurrence) (r : List Occurrence), s.core = true ∧ s.sbx.inbox = o :: r ∧ faultSource 3 o ∧
    s.dsp.boot.state ≠ 2 ∧ s.sbx.state ≠ 3) ∧ (∃ (s : State) (o : Occurrence) (r : List Occurrence) (t0 : Nat),
    s.core = true ∧ s.sbx.inbox = o :: r ∧ faultSource 2 o ∧ s.dsp.boot.state ≠ 2 ∧ (reactionOf s o).cls = 2 ∧
    s.sbx.escTimes[escCount s - 1]? = some t0 ∧ o.time ≤ t0 + escWindow s ∧ s.sbx.state ≠ 3) ∧ (∃ (s : State) (o :
    Occurrence) (r : List Occurrence), s.core = true ∧ s.sbx.inbox = o :: r ∧ faultSource 3 o ∧ s.dsp.boot.state ≠
    2 ∧ s.ttb.running = true) ∧ (∃ (s : State), s.core = true ∧ s.dsp.boot.state ≠ 2) :=
  ⟨⟨(inbox (anOcc 12 1) rig), (anOcc 12 1), [], by decide +kernel⟩,
   ⟨{ inbox (anOcc 4 2) rig with sbx := { (inbox (anOcc 4 2) rig).sbx with escTimes := [48000000, 47000000, 46000000, 45000000, 44000000, 43000000] } },
    (anOcc 4 2), [], 45000000, by decide +kernel⟩,
   ⟨(inbox (anOcc 12 1) { rig with sbx := { rig.sbx with state := 3 } }), (anOcc 12 1), [], by decide +kernel⟩,
   ⟨rig, by decide +kernel⟩⟩

theorem meets_OutputsStayRight :
    ∃ (s t : State) (c : Instr) (slot w : Nat), c ∈ [.sbxOccurrenceReceive, .sbxSelfCheckMiscompare,
    .quietPeriodExpire slot, .cQuietExpire, .faultClassIntermediateEnd, .heartbeatToggle, .sbxClear w, .sbxConfig
    w, .sbxReadrec w, .reactSet w, .inject w] ∧ outputsFollow s ∧ exec c s = .next t :=
  ⟨(inbox (anOcc 4 2) rig), (after .sbxOccurrenceReceive (inbox (anOcc 4 2) rig)), .sbxOccurrenceReceive, 0, 16,
    by refine ⟨?_, ?_, rfl⟩ <;> decide +kernel⟩

theorem meets_OneBitAtATime :
    ∃ (s t : State) (c : Instr) (slot w : Nat), c ∈ [.sbxOccurrenceReceive, .sbxSelfCheckMiscompare,
    .quietPeriodExpire slot, .cQuietExpire, .faultClassIntermediateEnd, .heartbeatToggle, .sbxClear w, .sbxConfig
    w, .sbxReadrec w, .reactSet w, .inject w] ∧ s.sbx.faultClass < 4 ∧ s.sbx.fcTarget < 4 ∧ exec c s = .next t :=
  ⟨(inbox (anOcc 4 2) rig), (after .sbxOccurrenceReceive (inbox (anOcc 4 2) rig)), .sbxOccurrenceReceive, 0, 16,
    by refine ⟨?_, ?_, ?_, rfl⟩ <;> decide +kernel⟩

theorem meets_OutputTimers :
    (∃ (s : State), s.core = true ∧ s.sbx.fcMid = true ∧ bothBits s.sbx.faultClass s.sbx.fcTarget = false ∧ (∀ a,
    s.sbx.fcAt = some a → a + 50 ≤ s.ttb.time) ∧ s.sbx.faultClass ≠ s.sbx.fcTarget) ∧ (∃ (s : State) (a : Nat),
    s.sbx.fcAt = some a ∧ s.ttb.time < a + 50) ∧ (∃ (s : State), s.core = true ∧ s.sbx.taken = true ∧ s.sbx.state =
    1 ∧ s.sbx.hbLast / hbPeriodNs s.sbx.cfg < s.ttb.time / hbPeriodNs s.sbx.cfg) ∧ (∃ (s : State), (s.ttb.time /
    hbPeriodNs s.sbx.cfg ≤ s.sbx.hbLast / hbPeriodNs s.sbx.cfg ∨ s.sbx.state ≠ 1)) ∧ (∃ (s : State) (k : Nat),
    s.core = true ∧ (s.frec k).valid = true ∧ (s.frec k).inForce = true ∧ (s.frec k).cls = 2 ∧ (s.frec k).latched =
    false ∧ (s.frec k).forced = false ∧ k < s.sbx.recs.length ∧ (s.frec k).lastTime + fld s.sbx.cfg 24 12 * 1000000
    ≤ s.ttb.time) ∧ (∃ (s : State) (k : Nat), ((s.frec k).cls ≠ 2 ∨ (s.frec k).latched = true ∨ (s.frec k).forced =
    true ∨ s.ttb.time < (s.frec k).lastTime + fld s.sbx.cfg 24 12 * 1000000)) ∧ (∃ (s : State) (t0 : Nat), s.core =
    true ∧ s.sbx.cAt = some t0 ∧ t0 + fld s.sbx.cfg 24 12 * 1000000 ≤ s.ttb.time) :=
  ⟨⟨(classIs 2 3 true rig), by decide +kernel⟩,
   ⟨{ rig with sbx := { rig.sbx with fcAt := some 49999951 } }, 49999951, by decide +kernel⟩,
   ⟨rig, by decide +kernel⟩,
   ⟨(at_ 10 rig), by decide +kernel⟩,
   ⟨(at_ 5000000000 (recIs 31 aFRec rig)), 31, by decide +kernel⟩,
   ⟨(recIs 31 aFRec rig), 31, by decide +kernel⟩,
   ⟨(at_ 5000000000 { rig with sbx := { rig.sbx with cAt := some 1000000 } }), 1000000, by decide +kernel⟩⟩

theorem meets_ConductorFaults :
    (∃ (s : State) (p : Nat), s.core = true ∧ s.dsp.coresRun = true ∧ s.dsp.halted = false ∧ p < 2 ∧
    s.dsp.kickAt.getD p 0 + 4000000 ≤ s.ttb.time) ∧ (∃ (s : State) (p : Nat), s.ttb.time < s.dsp.kickAt.getD p 0 +
    4000000) ∧ (∃ (s : State) (p : Nat), s.core = true ∧ s.dsp.coresRun = true ∧ s.dsp.halted = false ∧ p < 2) ∧ (∃
    (s : State), s.dsp.halted = true) :=
  ⟨⟨rig, 1, by decide +kernel⟩,
   ⟨(at_ 3999999 rig), 1, by decide +kernel⟩,
   ⟨rig, 1, by decide +kernel⟩,
   ⟨{ rig with dsp := { rig.dsp with halted := true } }, by decide +kernel⟩⟩

theorem meets_SignalBoxCommands :
    (∃ (s : State) (pk : List Word), Issues 0x90 16 pk s ∧ fld (clampSbxCfg (pk.getD 1 0)) 16 6 = fld s.sbx.cfg 16
    6) ∧ (∃ (s : State) (pk : List Word), Issues 0x90 16 pk s ∧ fld (clampSbxCfg (pk.getD 1 0)) 16 6 ≠ fld
    s.sbx.cfg 16 6) ∧ (∃ (s : State) (pk : List Word) (row : Nat), Issues 0x93 16 pk s ∧ fld (pk.getD 0 0) 0 8 =
    row ∧ row < 0x8F) ∧ (∃ (s : State) (pk : List Word), Issues 0x93 16 pk s ∧ 0x8F ≤ fld (pk.getD 0 0) 0 8) ∧ (∃
    (s : State) (pk : List Word) (k : Nat), Issues 0x91 16 pk s ∧ fld (pk.getD 0 0) 0 5 = k ∧ fld (pk.getD 1 0) 0
    48 = 0) ∧ (∃ (s : State) (pk : List Word) (k : Nat), Issues 0x91 16 pk s ∧ fld (pk.getD 0 0) 0 5 = k ∧ fld
    (pk.getD 1 0) 0 48 ≠ 0) :=
  ⟨⟨(sent 16 (packet 0x90 0x100000000 [0xFFFF00000004FFFF]) rig), (packet 0x90 0x100000000 [0xFFFF00000004FFFF]),
    by decide +kernel⟩,
   ⟨(sent 16 (packet 0x90 0x100000000 [0xFFFF000000FFFFFF]) rig), (packet 0x90 0x100000000 [0xFFFF000000FFFFFF]),
    by decide +kernel⟩,
   ⟨(sent 16 (packet 0x93 0x10000008E [0xFFFFFFFFFFFFFFFF]) rig), (packet 0x93 0x10000008E [0xFFFFFFFFFFFFFFFF]),
    0x8E, by decide +kernel⟩,
   ⟨(sent 16 (packet 0x93 0x10000008F [0xFFFFFFFFFFFFFFFF]) rig), (packet 0x93 0x10000008F [0xFFFFFFFFFFFFFFFF]),
    by decide +kernel⟩,
   ⟨(sent 16 (packet 0x91 0x10000001F [0]) (recIs 31 aFRec rig)), (packet 0x91 0x10000001F [0]), 31,
    by decide +kernel⟩,
   ⟨(sent 16 (packet 0x91 0x10000001F [4096]) (recIs 31 aFRec rig)), (packet 0x91 0x10000001F [4096]), 31,
    by decide +kernel⟩⟩

theorem meets_RecordsCleared :
    ∃ (s : State) (pk : List Word), Issues 0x92 16 pk s ∧ s.sbx.recs.length = 32 :=
  ⟨(sent 16 (packet 0x92 0x10000001F []) (recIs 31 aFRec rig)), (packet 0x92 0x10000001F []), by decide +kernel⟩

theorem meets_Injection :
    (∃ (s : State) (pk : List Word), Issues 0xB0 16 pk s ∧ s.dsp.boot.state ≠ 2) ∧ (∃ (s : State) (pk : List Word),
    Issues 0xB0 16 pk s ∧ s.dsp.boot.state ≠ 2 ∧ causeClass (fld (pk.getD 0 0) 24 6) (fld (pk.getD 0 0) 16 8) =
    some 1 ∧ fld (pk.getD 0 0) 30 2 ≤ 1) ∧ (∃ (sub cause : Nat), causeClass sub cause = none) ∧ (∃ (sub cause :
    Nat), causeClass sub cause ≠ none) :=
  ⟨⟨(sent 16 (packet 0xB0 0x184020000 []) rig), (packet 0xB0 0x184020000 []), by decide +kernel⟩,
   ⟨(sent 16 (packet 0xB0 0x144010000 []) rig), (packet 0xB0 0x144010000 []), by decide +kernel⟩,
   ⟨12, 9, by decide +kernel⟩,
   ⟨12, 8, by decide +kernel⟩⟩

theorem meets_SelftestRuns :
    (∃ (s : State) (pk : List Word), Issues 0xB1 16 pk s) ∧ (∃ (s : State) (k : Ticket) (r : List (Ticket × Nat)),
    s.core = true ∧ s.dsp.selftests = (k, 1) :: r) ∧ (∃ (s : State), s.dsp.selftests = []) :=
  ⟨⟨(sent 16 (packet 0xB1 0x100000007 []) rig), (packet 0xB1 0x100000007 []), by decide +kernel⟩,
   ⟨{ rig with dsp := { rig.dsp with selftests := [(aTicket 16 0xB1, 1)] } }, (aTicket 16 0xB1), [],
    by decide +kernel⟩,
   ⟨rig, by decide +kernel⟩⟩

theorem meets_HeldWriteApplies :
    (∃ (s : State) (k : Nat) (h : HeldQ) (r : List HeldQ), s.core = true ∧ k < 256 ∧ takeFirst (fun h : HeldQ =>
    h.unit == k) s.dsp.heldQ = some (h, r) ∧ sidingIdle (s.siding k) = true ∧ (s.siding k).producer ≠ 2 ∧ bit
    (h.words.getD 0 0) 4 = true ∧ k ≠ (s.win h.ticket.w).compl ∧ h.ticket.later = true) ∧ (∃ (s : State) (k : Nat)
    (h : HeldQ) (r : List HeldQ), takeFirst (fun h : HeldQ => h.unit == k) s.dsp.heldQ = some (h, r) ∧ unitIdle s k
    = false) ∧ (∃ (s : State) (k : Nat), (∀ h ∈ s.dsp.heldQ, h.unit ≠ k)) :=
  ⟨⟨{ mkSiding 9 aSiding rig with dsp := { rig.dsp with heldQ := [{ ticket := { aTicket 3 0x40 with later := true }, words := packet 0x40 0x109000010 [], unit := 9 }] } },
    9, { ticket := { aTicket 3 0x40 with later := true }, words := packet 0x40 0x109000010 [], unit := 9 }, [],
    by decide +kernel⟩,
   ⟨{ filled 9 aSiding [lengthWord 1, 2] rig with dsp := { rig.dsp with heldQ := [{ ticket := { aTicket 3 0x40 with later := true }, words := packet 0x40 0x109000010 [], unit := 9 }] } },
    9, { ticket := { aTicket 3 0x40 with later := true }, words := packet 0x40 0x109000010 [], unit := 9 }, [],
    by decide +kernel⟩,
   ⟨rig, 9, by decide +kernel⟩⟩

theorem meets_FramesForwarded :
    (∃ (s : State) (f : TklFrame), tklUp s = true ∧ crcOk f = false) ∧ (∃ (s : State) (f : TklFrame), tklUp s =
    true ∧ crcOk f = true ∧ verOk s f = false) ∧ (∃ (s : State) (f : TklFrame), tklUp s = true ∧ crcOk f = true ∧
    verOk s f = true ∧ toUs s f = false ∧ f.bcast = false) ∧ (∃ (s : State) (f : TklFrame) (op : Nat), addressed op
    f s ∧ op ∉ tklOps) :=
  ⟨⟨(lined rig), (frameOf 2 0 0 0 false), by decide +kernel⟩,
   ⟨(lined rig), (frame1 0 0), by decide +kernel⟩,
   ⟨rig, (frame 0 0 0 false), by decide +kernel⟩,
   ⟨(lined rig), (frame 6 0 0 false), 6, by decide +kernel⟩⟩

theorem meets_TokenLineAddressing :
    (∃ (s : State) (f : TklFrame), tklUp s = true ∧ f.op.toNat = 1 ∧ crcOk f = true ∧ verOk s f = true ∧ f.bcast =
    false ∧ s.tkl.addrValid = false) ∧ (∃ (s : State) (f : TklFrame) (token : Bool), tklUp s = true ∧ f.op.toNat =
    1 ∧ crcOk f = true ∧ verOk s f = true ∧ (s.tkl.addrValid = true ∨ token = false)) ∧ (∃ (s : State) (f :
    TklFrame), addressed 0xE f s) ∧ (∃ (s : State) (f : TklFrame), accepts s f = true ∧ f.op.toNat = 0xE ∧ f.bcast
    = true) ∧ (∃ (s : State) (f : TklFrame), addressed 0 f s) :=
  ⟨⟨rig, (frame 1 31 0 false), by decide +kernel⟩,
   ⟨rig, (frame 1 31 0 false), false, by decide +kernel⟩,
   ⟨(lined rig), (frame 0xE 1 0 false), by decide +kernel⟩,
   ⟨(lined rig), (frame 0xE 3 0 true), by decide +kernel⟩,
   ⟨(lined rig), (frame 0 0 0 false), by decide +kernel⟩⟩

theorem meets_TokenLineObserves :
    (∃ (s : State) (f : TklFrame), addressed 2 f s ∧ s.core = true) ∧ (∃ (s : State) (f : TklFrame) (i : Nat),
    addressed 4 f s ∧ s.core = true ∧ i = f.arg.toNat % 2 ^ 20 ∧ i % 2 = 0) ∧ (∃ (s : State) (f : TklFrame) (i :
    Nat), addressed 4 f s ∧ s.core = true ∧ i = f.arg.toNat % 2 ^ 20 ∧ i % 2 = 1) ∧ (∃ (s : State) (f : TklFrame),
    addressed 5 f s ∧ f.ver ≠ 1#3) ∧ (∃ (s : State) (f : TklFrame), addressed 5 f s ∧ f.ver = 1#3) :=
  ⟨⟨(lined rig), (frame 2 0x1900 0 false), by decide +kernel⟩,
   ⟨(lined rig), (frame 4 0xFFFFE 0 false), 0xFFFFE, by decide +kernel⟩,
   ⟨(lined rig), (frame 4 0xFFFFF 0 false), 0xFFFFF, by decide +kernel⟩,
   ⟨(lined (lineSet (fun x => { x with oddWord := 77 }) rig)), (frame 5 0 0 false), by decide +kernel⟩,
   ⟨(lined (lineSet (fun x => { x with verOp := 1 }) rig)), (frame1 5 0), by decide +kernel⟩⟩

theorem meets_TakeOver :
    (∃ (s : State) (f : TklFrame), addressed 8 f s ∧ s.core = true ∧ s.dsp.commitHeld = none) ∧ (∃ (s : State) (f :
    TklFrame) (k : Ticket), addressed 8 f s ∧ s.core = true ∧ s.dsp.commitHeld = some k ∧ s.dsp.takeover = false) ∧
    (∃ (s : State) (f : TklFrame), addressed 9 f s ∧ s.dsp.takeover = true ∧ s.tkl.auto = false) ∧ (∃ (s : State)
    (f : TklFrame), addressed 9 f s ∧ (s.dsp.takeover = false ∨ s.tkl.auto = true)) ∧ (∃ (s : State), s.core = true
    ∧ s.dsp.takeover = true ∧ s.tkl.auto = false ∧ fld s.tkl.cfg 0 16 ≠ 0 ∧ s.tkl.lastAt + fld s.tkl.cfg 0 16 *
    1000000 ≤ s.ttb.time) ∧ (∃ (s : State), (s.dsp.takeover = false ∨ s.tkl.auto = true ∨ fld s.tkl.cfg 0 16 = 0 ∨
    s.ttb.time < s.tkl.lastAt + fld s.tkl.cfg 0 16 * 1000000)) ∧ (∃ (s : State) (f : TklFrame) (b : Bool) (q :
    Nat), accepts s f = true ∧ f.op.toNat = 3 ∧ f.bcast = false ∧ s.tkl.busy = some (b, q) ∧ writeKind s (tklAddr
    f) f.wdata = .reg) :=
  ⟨⟨(lined rig), (frame 8 0 0 false), by decide +kernel⟩,
   ⟨(lined (heldCommit rig)), (frame 8 0 0 false), (aTicket 16 3), by decide +kernel⟩,
   ⟨(lined (takenOver rig)), (frame 9 0 0 false), by decide +kernel⟩,
   ⟨(lined rig), (frame 9 0 0 false), by decide +kernel⟩,
   ⟨(takenOver (lineSet (fun x => { x with cfg := 50, lastAt := 0 }) rig)), by decide +kernel⟩,
   ⟨(takenOver (lineSet (fun x => { x with cfg := 50, lastAt := 1 }) rig)), by decide +kernel⟩,
   ⟨(lined (lineSet (fun x => { x with busy := some (false, 3) }) rig)), (frame 3 0x300 1 false), false, 3,
    by decide +kernel⟩⟩

theorem meets_ForcedSafeState :
    (∃ (s : State) (f : TklFrame) (k : Nat), addressed 0xA f s ∧ s.core = true ∧ s.sbx.forced = false ∧ s.sbx.taken
    = true ∧ s.dsp.boot.state ≠ 2 ∧ s.sbx.recs.length = 32 ∧ (List.range 32).find? (fun j => !(s.frec j).valid) =
    some k) ∧ (∃ (s : State) (f : TklFrame) (k : Nat), accepts s f = true ∧ f.op.toNat = 0xA ∧ f.bcast = true ∧
    s.core = true ∧ s.sbx.forced = false ∧ s.sbx.taken = true ∧ s.dsp.boot.state ≠ 2 ∧ s.sbx.recs.length = 32 ∧
    (List.range 32).find? (fun j => !(s.frec j).valid) = some k) ∧ (∃ (s : State) (f : TklFrame), addressed 0xB f s
    ∧ s.sbx.forced = true ∧ s.sbx.taken = true) ∧ (∃ (s : State) (f : TklFrame), addressed 0xB f s ∧ s.sbx.forced =
    false) :=
  ⟨⟨(lined rig), (frame 0xA 0 0 false), 0, by decide +kernel⟩,
   ⟨(lined rig), (frame 0xA 0 0 true), 0, by decide +kernel⟩,
   ⟨(lined (forced (recIs 31 { aFRec with sub := 12, cause := 7, engine := 0, forced := true, safe := true } rig))),
    (frame 0xB 0 0 false), by decide +kernel⟩,
   ⟨(lined rig), (frame 0xB 0 0 false), by decide +kernel⟩⟩

theorem meets_TokenLineCommits :
    (∃ (s : State) (f : TklFrame), addressed 0xC f s ∧ s.dsp.takeover = true ∧ s.ttb.announced = none ∧
    s.dsp.commitHeld = none) ∧ (∃ (s : State) (f : TklFrame) (b : Boundary), addressed 0xC f s ∧ s.dsp.takeover =
    true ∧ s.ttb.announced = some b ∧ s.dsp.commitHeld = none) ∧ (∃ (s : State) (f : TklFrame) (k : Nat), addressed
    0xD f s ∧ s.dsp.takeover = true ∧ f.arg.getLsbD 5 = false ∧ f.arg.toNat % 32 = k ∧ s.sbx.recs.length = 32 ∧
    (s.frec k).valid = true ∧ ((s.frec k).forced = false ∨ s.sbx.forced = false)) :=
  ⟨⟨(lined (takenOver rig)), (frame 0xC 0 0 false), by decide +kernel⟩,
   ⟨(announced 50004000 (lined (takenOver rig))), (frame 0xC 0 0 false), (boundaryAtT 50004000 false),
    by decide +kernel⟩,
   ⟨(recIs 31 aFRec (lined (takenOver rig))), (frame 0xD 31 0 false), 31, by decide +kernel⟩⟩

theorem meets_WritesNeedTakeOver :
    (∃ (s : State) (f : TklFrame), addressed 3 f s ∧ s.dsp.takeover = false) ∧ (∃ (s : State) (f : TklFrame),
    addressed 0xC f s ∧ s.dsp.takeover = false) ∧ (∃ (s : State) (f : TklFrame), addressed 0xD f s ∧ s.dsp.takeover
    = false) ∧ (∃ (s : State) (f : TklFrame) (k : WriteKind), rowOfWrite f k ≠ rowOfWrite f (writeKind s (tklAddr
    f) f.wdata)) :=
  ⟨⟨(lined rig), (frame 3 0x300 1 false), by decide +kernel⟩,
   ⟨(lined rig), (frame 0xC 0 1 false), by decide +kernel⟩,
   ⟨(lined rig), (frame 0xD 0 1 false), by decide +kernel⟩,
   ⟨(lined rig), (frame 3 0x300 1 false), (.view 0), by decide +kernel⟩⟩

theorem meets_RegisterWritten :
    (∃ (s : State) (f : TklFrame) (n : Nat), addressed 3 f s ∧ s.dsp.takeover = true ∧ writeKind s (tklAddr f)
    f.wdata = .view n) ∧ (∃ (s : State) (f : TklFrame), addressed 3 f s ∧ s.dsp.takeover = true ∧ tklAddr f =
    0x300) ∧ (∃ (s : State) (f : TklFrame), addressed 3 f s ∧ s.dsp.takeover = true ∧ tklAddr f = 0x200) ∧ (∃ (s :
    State) (f : TklFrame), addressed 3 f s ∧ s.dsp.takeover = true ∧ 0x300000 ≤ tklAddr f ∧ tklAddr f < 0x310000 ∧
    meterOpen s = false) :=
  ⟨⟨(lined (takenOver rig)), (frame 3 0x2DF8 1 false), 63, by decide +kernel⟩,
   ⟨(lined (takenOver rig)), (frame 3 0x300 0xFFFFFFFFFFFFFFFF false), by decide +kernel⟩,
   ⟨(lined (takenOver rig)), (frame 3 0x200 0xFFFFFFFFFFFFFFFF false), by decide +kernel⟩,
   ⟨(lined (takenOver rig)), (frame 3 0x30FFF8 1 false), by decide +kernel⟩⟩

theorem meets_TableWritten :
    (∃ (s : State) (f : TklFrame) (p sid base : Nat), addressed 3 f s ∧ s.dsp.takeover = true ∧ s.shaped = true ∧
    writeKind s (tklAddr f) f.wdata = .partCreate p ∧ p < 16 ∧ bit f.wdata 61 = false ∧ pointFree s ∧ (List.range
    256).find? (fun i => decide (4 ≤ i) && (s.siding i).state == 0) = some sid ∧ placeSiding s sid 0 = some base) ∧
    (∃ (s : State) (f : TklFrame) (p : Nat), addressed 3 f s ∧ s.dsp.takeover = true ∧ s.shaped = true ∧ writeKind
    s (tklAddr f) f.wdata = .partDetach p ∧ p < 16 ∧ detachable s p = true ∧ pointFree s ∧ bit f.wdata 61 = (s.part
    p).mirror) ∧ (∃ (s : State) (f : TklFrame) (p : Nat), addressed 3 f s ∧ s.dsp.takeover = true ∧ s.shaped = true
    ∧ writeKind s (tklAddr f) f.wdata = .mirror p ∧ p < 16 ∧ (s.part p).state = 1 ∧ pointFree s) ∧ (∃ (s : State)
    (f : TklFrame) (o k : Nat), addressed 3 f s ∧ s.dsp.takeover = true ∧ s.shaped = true ∧ writeKind s (tklAddr f)
    f.wdata = .window o k true ∧ o < 17 ∧ barredPart s o = false ∧ k < (s.ilk.win.getD o []).length) ∧ (∃ (s :
    State) (f : TklFrame) (sid base : Nat), addressed 3 f s ∧ s.dsp.takeover = true ∧ s.shaped = true ∧ writeKind s
    (tklAddr f) f.wdata = .sdgCreate sid ∧ sid < 256 ∧ 16 ≤ fld f.wdata 48 5 ∧ placeSiding s sid (createSize
    (sdgPacket sid f.wdata (ringOf s sid) false)) = some base) ∧ (∃ (s : State) (f : TklFrame) (sid : Nat),
    addressed 3 f s ∧ s.dsp.takeover = true ∧ writeKind s (tklAddr f) f.wdata = .sdgFree sid ∧ sidingIdle (s.siding
    sid) = true ∧ (s.siding sid).producer ≠ 2) :=
  ⟨⟨(lined (takenOver rig)), (frame 3 0x19F0 0x4000000000000001 false), 15, 4, ((placeSiding rig 4 0).getD 0),
    by decide +kernel⟩,
   ⟨(lined (takenOver rig)), (frame 3 0x1930 0x8000000000000000 false), 3, by decide +kernel⟩,
   ⟨(lined (takenOver rig)), (frame 3 0x1930 0x6000000000000000 false), 3, by decide +kernel⟩,
   ⟨(lined (takenOver rig)), (frame 3 0x1E38 0xFFFFFFFFFFFFFFFF false), 16, 3, by decide +kernel⟩,
   ⟨(lined (takenOver rig)), (frame 3 0x8240 0x401F000000000000 false), 9, ((placeSiding rig 9 0).getD 0),
    by decide +kernel⟩,
   ⟨(lined (takenOver (mkSiding 9 aSiding rig))), (frame 3 0x8240 0 false), 9, by decide +kernel⟩⟩

end Sys2Proof.Tests
end

section
/-! PROOFS. The first valid TIME_NS sets block time (R74): the Pilot's decisions that come before a TIME_CLK edge leave
the Timetable alone, and what an edge with TIME_VALID at 1 then does to block time. -/

namespace Sys2Proof.Machine

/-! ### The Pilot leaves the Timetable alone -/

@[simp] theorem State.post_ttb (s : State) (o : Occurrence) : (s.post o).ttb = s.ttb := by
  rcases s.post_cases o with ⟨-, h⟩ | ⟨-, h⟩ <;> rw [h]

@[simp] theorem modFrame_ttb (id : Nat) (f : PFrame → PFrame) (s : State) : (modFrame id f s).ttb = s.ttb := rfl

@[simp] theorem sendPlt_ttb (f : PFrame) (r : Rec) (s : State) : (sendPlt f r s).ttb = s.ttb := rfl

@[simp] theorem pilotEvent_ttb (f : PFrame) (cause result implaus low : Nat) (rows : List Nat) (s : State) :
    (pilotEvent f cause result implaus low rows s).ttb = s.ttb :=
  s.post_ttb _

@[simp] theorem skipFrame_ttb (f : PFrame) (cause : Nat) (s : State) : (skipFrame f cause s).ttb = s.ttb := by
  simp [skipFrame]

/-- The admission of a frame plans it or skips it: the Timetable stays. -/
@[simp] theorem admitFrame_ttb (tracks : List Nat) (f : PFrame) (s : State) :
    (admitFrame tracks f s).ttb = s.ttb := by
  unfold admitFrame
  dsimp only
  split
  · exact skipFrame_ttb ..
  · split
    · exact skipFrame_ttb ..
    · split
      · exact skipFrame_ttb ..
      · split
        · rfl
        · split <;> exact skipFrame_ttb ..

@[simp] theorem decideFrame_ttb (f : PFrame) (s : State) : (decideFrame f s).ttb = s.ttb := by
  simp [decideFrame]

@[simp] theorem pilotSettle_ttb (s : State) : (pilotSettle s).ttb = s.ttb := by
  refine forEach_keeps (fun t => t.ttb = s.ttb) _ _ s rfl fun _ t ht => ?_
  cases firstUndecided t with
  | none => exact ht
  | some f => exact (decideFrame_ttb f t).trans ht

/-! ### What the parts of a TIME_CLK edge keep -/

/-- The advance of one period changes the time, its fraction and the PPS phase alone. -/
theorem advance_eq (t : Timetable) :
    ∃ time acc phase, advance t = { t with time := time, acc := acc, ppsPhase := phase } :=
  ⟨_, _, _, rfl⟩

@[simp] theorem advance_anyBoundary (t : Timetable) : (advance t).anyBoundary = t.anyBoundary := by
  obtain ⟨_, _, _, h⟩ := advance_eq t
  rw [h]

@[simp] theorem advance_everValid (t : Timetable) : (advance t).everValid = t.everValid := by
  obtain ⟨_, _, _, h⟩ := advance_eq t
  rw [h]

/-- Learning changes the frequency correction alone. -/
theorem learn_eq (free : Nat) (t : Timetable) : learn free t = { t with freqCorr := (learn free t).freqCorr } := by
  unfold learn
  split <;> rfl

@[simp] theorem shiftTimes_time (a b : Nat) (s : State) : (shiftTimes a b s).ttb.time = s.ttb.time := by
  unfold shiftTimes
  split <;> rfl

@[simp] theorem shiftTimes_state (a b : Nat) (s : State) : (shiftTimes a b s).ttb.state = s.ttb.state := by
  unfold shiftTimes
  split <;> rfl

@[simp] theorem shiftTimes_timeValid (a b : Nat) (s : State) : (shiftTimes a b s).ttb.timeValid = s.ttb.timeValid := by
  unfold shiftTimes
  split <;> rfl

@[simp] theorem shiftTimes_timeNs (a b : Nat) (s : State) : (shiftTimes a b s).ttb.timeNs = s.ttb.timeNs := by
  unfold shiftTimes
  split <;> rfl

/-! ### The edge itself -/

/-- Before the first boundary, with no valid time yet, an edge with TIME_VALID at 1 sets block time whatever the
offset is, and locks (R74). -/
theorem validEdge_first (timeNs free : Nat) {t : Timetable} (hb : t.anyBoundary = false) (hv : t.everValid = false) :
    (validEdge timeNs free t).time = timeNs ∧ (validEdge timeNs free t).state = .locked ∧
      (validEdge timeNs free t).timeValid = true ∧ (validEdge timeNs free t).timeNs = timeNs := by
  have setsTime : validEdge timeNs free t = learn free (setTime timeNs
      { t with timeValid := true, timeNs := timeNs, offset := (t.time : Int) - timeNs }) := by
    simp [validEdge, hb, hv]
  rw [setsTime, learn_eq]
  exact ⟨rfl, rfl, rfl, rfl⟩

/-- A TIME_CLK edge outside PORST_N: the Pilot decides, then time follows the edge (R73, R229). -/
theorem exec_timeAdvance {s : State} (x : BitVec 64) (valid : Bool) (hp : s.pins.porstN = true) :
    exec (.timeAdvance x valid) s = .next (timeAdvance x.toNat valid (pilotSettle s)) := by
  have runs : s.timeRuns = true := hp
  change next (when s.timeRuns _ s) = _
  rw [runs, when_true]
  rfl

/-- With TIME_VALID at 1 the Timetable follows the edge, and the times kept so far move with a setting. -/
theorem timeAdvance_valid (timeNs : Nat) (s : State) :
    timeAdvance timeNs true s =
      shiftTimes (advance s.ttb).time (validEdge timeNs s.free (advance s.ttb)).time
        { s.draw with ttb := validEdge timeNs s.free (advance s.ttb) } := by
  simp only [timeAdvance, if_true]

end Sys2Proof.Machine
end

section
open Sys2Proof Sys2Proof.Machine Sys2Proof.Claims

/-- Settles O12: the edge is a first one (`validEdge_first`), so it sets block time; learning and the shift of the
times kept so far leave the clock and its state as they were set. -/
theorem firstValidTimeSetsBlockTime : Obligations.FirstValidTimeSetsBlockTime := by
  intro s x hp hb hv
  refine ⟨_, exec_timeAdvance x true hp, ?_⟩
  have first := validEdge_first x.toNat (pilotSettle s).free (t := advance s.ttb) (by simp [hb]) (by simp [hv])
  simpa only [timeAdvance_valid, shiftTimes_time, shiftTimes_state, shiftTimes_timeValid, shiftTimes_timeNs,
    pilotSettle_ttb] using first

end

section
/-! PROOFS. The commands on a live siding: a sender that may name it reaches it (R166), and SDG_MARK there (R154). -/

namespace Sys2Proof.Machine

/-- Beyond the array a siding reads as a free one, so a siding that is not free stands in it. -/
theorem State.siding_lt_of_state_ne_zero {s : State} {i : Nat} (h : (s.siding i).state ≠ 0) :
    i < s.sdg.desc.length := by
  by_contra hi
  exact h (by simp [State.siding, Siding.reset, Nat.le_of_not_lt hi])

/-- An update that keeps the states of sidings leaves the one of every siding. -/
theorem State.state_siding_modSiding (s : State) (n m : Nat) {f : Siding → Siding}
    (hf : ∀ d, (f d).state = d.state) : ((s.modSiding n f).siding m).state = (s.siding m).state := by
  rw [State.siding_modSiding]
  split
  · exact hf _
  · rfl

/-- What SDG_MARK does to a siding (R154). -/
def Siding.marked (d : Siding) : Siding := { d with mark := d.rd, markValid := true, markLost := false }

end Sys2Proof.Machine

namespace Sys2Proof.Claims

open Sys2Proof.Machine

@[simp] theorem taken_siding (w i : Nat) (s : State) : (taken w s).siding i = s.siding i := rfl

theorem isLive_of_mayName {w sid : Nat} {s : State} (h : mayName w sid s) : isLive (s.siding sid) = true := by
  obtain ⟨hlive | hlive, -, -⟩ := h <;> simp [isLive, hlive]

theorem siding_lt_of_mayName {w sid : Nat} {s : State} (h : mayName w sid s) : sid < s.sdg.desc.length := by
  refine State.siding_lt_of_state_ne_zero ?_
  obtain ⟨hlive | hlive, -, -⟩ := h <;> simp [hlive]

/-- A siding command of a sender that may name the siding acts on it (R166, R296). -/
theorem onSiding_of_mayName {w sid : Nat} {pk : List Word} {s : State} (act : Nat → State → State)
    (hsid : fld (pk.getD 0 0) 0 8 = sid) (h : mayName w sid s) :
    onSiding pk (ticketOf w pk) act s = act sid s := by
  have names : param pk 0 8 = sid := hsid
  have live := isLive_of_mayName h
  obtain ⟨-, hw, hpart⟩ := h
  simp only [onSiding, names, hpart, ticketOf, live]
  by_cases root : w = 16
  · simp [root]
  · simp [root, hw.resolve_left root]

/-- On a port siding SDG_MARK marks rd_ptr, and tells it (R154). -/
theorem sdgMark_of_mayName {w sid : Nat} {pk : List Word} {s : State} (hsid : fld (pk.getD 0 0) 0 8 = sid)
    (h : mayName w sid s) (hport : (s.siding sid).consumer = 0) (hcompl : (s.siding (s.win w).compl).state = 1) :
    sdgMark pk (ticketOf w pk) s = told w pk 0 (s.siding sid).rd 0 (s.modSiding sid Siding.marked) := by
  have complLive : ((s.modSiding sid Siding.marked).siding (s.win w).compl).state = 1 :=
    (s.state_siding_modSiding sid _ (f := Siding.marked) fun _ => rfl).trans hcompl
  have markIsRd : ((s.modSiding sid Siding.marked).siding sid).mark = (s.siding sid).rd := by
    rw [State.siding_modSiding_self _ _ _ (siding_lt_of_mayName h)]
    rfl
  calc sdgMark pk (ticketOf w pk) s
      = (s.modSiding sid Siding.marked).complete (ticketOf w pk) statusDone
          ((s.modSiding sid Siding.marked).siding sid).mark 0 := by
        rw [sdgMark, onSiding_of_mayName _ hsid h]
        simp only [hport, bne_self_eq_false, Bool.false_eq_true, if_false]
        rfl
    _ = told w pk 0 (s.siding sid).rd 0 (s.modSiding sid Siding.marked) := by
        rw [markIsRd]
        exact complete_eq_told complLive

end Sys2Proof.Claims
end

section
open Sys2Proof Sys2Proof.Machine Sys2Proof.Claims

/-- Settles O38: the packet issues (`issue_of_issues`), its sender reaches the siding, and the mark goes there
(`sdgMark_of_mayName`); taking the packet leaves the sidings as they are. -/
theorem sidingMark : Obligations.SidingMark := by
  intro s w sid pk hissues hsid hmay hport
  have marks : exec (.sdgMark w) s = .next (sdgMark pk (ticketOf w pk) (taken w s)) :=
    congrArg next (issue_of_issues hissues)
  rw [marks, sdgMark_of_mayName hsid (s := taken w s) hmay hport (taken_compl_live hissues)]
  rfl

end

section
/-! PROOFS. SBX_CLEAR (R313): the outputs as they follow the records (R308), the slots that a clear frees, and which
slots the packet names. -/

namespace Sys2Proof.Machine

/-! ### The outputs follow the records -/

/-- FAULT_CLASS moves toward its new target; nothing but the four fields of its movement changes. -/
theorem moveClass_eq (now target : Nat) (x : SignalBox) :
    ∃ c mid changed, moveClass now target x =
      { x with fcTarget := target, faultClass := c, fcMid := mid, fcAt := changed } := by
  unfold moveClass
  dsimp only
  split
  · exact ⟨_, _, _, rfl⟩
  · exact ⟨_, _, _, rfl⟩

/-- The records in force. -/
def SignalBox.onRecs (x : SignalBox) : List FRec := x.recs.filter fun r => r.valid && r.inForce

/-- SAFE_REQ and DEGRADE_REQ as Table 16-5 drives them. -/
def SignalBox.driven (x : SignalBox) : SignalBox :=
  { x with
    safeReq := x.state == 3 || x.forced || x.onRecs.any (·.safe)
    degrade := x.onRecs.foldl (fun a r => a ||| r.degrade) 0 }

theorem refresh_eq (s : State) : refresh s =
    if !s.sbx.taken then s else { s with sbx := moveClass s.now (classInForce s.sbx) s.sbx.driven } := rfl

/-- Before the outputs have been taken over nothing changes; after it the outputs alone do (R308). -/
theorem refresh_cases (s : State) :
    (s.sbx.taken = false ∧ refresh s = s) ∨
    (s.sbx.taken = true ∧ ∃ c mid changed, refresh s = { s with sbx := { s.sbx.driven with
      fcTarget := classInForce s.sbx, faultClass := c, fcMid := mid, fcAt := changed } }) := by
  rw [refresh_eq]
  cases s.sbx.taken with
  | false => exact .inl ⟨rfl, rfl⟩
  | true =>
    obtain ⟨c, mid, changed, moved⟩ := moveClass_eq s.now (classInForce s.sbx) s.sbx.driven
    exact .inr ⟨rfl, c, mid, changed, congrArg (fun x => { s with sbx := x }) moved⟩

/-- The outputs are all that `refresh` changes. -/
theorem refresh_only (s : State) : refresh s =
    { s with sbx := { s.sbx with
      safeReq := (refresh s).sbx.safeReq, degrade := (refresh s).sbx.degrade, fcTarget := (refresh s).sbx.fcTarget,
      faultClass := (refresh s).sbx.faultClass, fcMid := (refresh s).sbx.fcMid, fcAt := (refresh s).sbx.fcAt } } := by
  rcases refresh_cases s with ⟨-, h⟩ | ⟨-, _, _, _, h⟩
  · rw [h]
  · rw [h]
    rfl

@[simp] theorem refresh_recs (s : State) : (refresh s).sbx.recs = s.sbx.recs :=
  congrArg (·.sbx.recs) (refresh_only s)

@[simp] theorem refresh_recovery (s : State) : (refresh s).sbx.recovery = s.sbx.recovery :=
  congrArg (·.sbx.recovery) (refresh_only s)

@[simp] theorem refresh_state (s : State) : (refresh s).sbx.state = s.sbx.state :=
  congrArg (·.sbx.state) (refresh_only s)

@[simp] theorem refresh_frec (s : State) (k : Nat) : (refresh s).frec k = s.frec k := by
  simp only [State.frec, refresh_recs]

/-- The class in force, with the records in force picked first. -/
theorem classInForce_eq (x : SignalBox) : classInForce x =
    if x.state = 3 then 3
    else if x.onRecs.any (fun r => r.cls == 2) then 2
    else if x.cAt.isSome then 1 else 0 := by
  simp only [classInForce, SignalBox.onRecs, List.any_filter]

theorem outputsFollow_refresh (s : State) : Claims.outputsFollow (refresh s) := by
  intro takenOver
  rcases refresh_cases s with ⟨notTaken, h⟩ | ⟨-, _, _, _, h⟩ <;> rw [h] at takenOver ⊢
  · simp [notTaken] at takenOver
  · exact ⟨rfl, rfl, classInForce_eq s.sbx⟩

/-! ### The slots that are freed -/

/-- A slot that is reset reads as free, inside the array or beyond it; every other slot reads as before. -/
theorem State.frec_setRec_reset (s : State) (k j : Nat) :
    (s.setRec k FRec.reset).frec j = if j = k then FRec.reset else s.frec j := by
  simp only [State.setRec, State.frec, List.getD_eq_getElem?_getD, List.getElem?_set]
  by_cases hjk : j = k
  · subst hjk
    by_cases hj : j < s.sbx.recs.length <;> simp [hj]
  · simp [hjk, Ne.symm hjk]

/-- The slots of a list are freed one by one. -/
def freeSlots (ks : List Nat) (s : State) : State := forEach ks (fun k t => t.setRec k FRec.reset) s

theorem freeSlots_frec (ks : List Nat) (s : State) (j : Nat) :
    (freeSlots ks s).frec j = if j ∈ ks then FRec.reset else s.frec j := by
  induction ks generalizing s with
  | nil => simp [freeSlots]
  | cons k ks ih =>
    have first : freeSlots (k :: ks) s = freeSlots ks (s.setRec k FRec.reset) := rfl
    rw [first, ih, State.frec_setRec_reset]
    by_cases hj : j ∈ ks <;> simp [hj]

/-- Freeing slots changes nothing but the record array. -/
theorem freeSlots_only (ks : List Nat) (s : State) :
    freeSlots ks s = { s with sbx := { s.sbx with recs := (freeSlots ks s).sbx.recs } } := by
  refine forEach_keeps (fun t => t = { s with sbx := { s.sbx with recs := t.sbx.recs } }) ks _ s rfl fun k t ht => ?_
  rw [ht]
  rfl

/-- A record that a clear may free: not the forced one while the forced safe state holds (R313). -/
def clearable (s : State) (k : Nat) : Bool := (s.frec k).valid && !((s.frec k).forced && s.sbx.forced)

theorem clearSlots_eq (ks : List Nat) (s : State) :
    clearSlots ks s = (refresh (freeSlots (ks.filter (clearable s)) s), (ks.filter (clearable s)).length) := rfl

/-- Outside the Signal Box a clear leaves everything. -/
theorem clearSlots_only (ks : List Nat) (s : State) :
    (clearSlots ks s).1 = { s with sbx := (clearSlots ks s).1.sbx } := by
  rw [clearSlots_eq]
  dsimp only
  rw [refresh_only, freeSlots_only]

theorem clearSlots_frec (ks : List Nat) (s : State) (j : Nat) :
    (clearSlots ks s).1.frec j = if j ∈ ks.filter (clearable s) then FRec.reset else s.frec j := by
  rw [clearSlots_eq, refresh_frec, freeSlots_frec]

/-- A record that is cleared is no recovery (R313). -/
theorem clearSlots_recovery (ks : List Nat) (s : State) : (clearSlots ks s).1.sbx.recovery = s.sbx.recovery := by
  rw [clearSlots_eq, refresh_recovery, freeSlots_only]

theorem clearSlots_state (ks : List Nat) (s : State) : (clearSlots ks s).1.sbx.state = s.sbx.state := by
  rw [clearSlots_eq, refresh_state, freeSlots_only]

/-! ### The slots that the packet names -/

/-- One slot, or all 32 when bit `all` is 1. -/
def namedSlots (pk : List Word) : List Nat := if paramBit pk 31 then List.range 32 else [param pk 0 5]

theorem sbxClear_eq (pk : List Word) (t : Ticket) (s : State) :
    sbxClear pk t s =
      (clearSlots (namedSlots pk) s).1.complete t statusDone (clearSlots (namedSlots pk) s).2 0 := rfl

/-- Of the numbers below `n`, a filter for one of them leaves that one. -/
theorem filter_range_eq_singleton {n p : Nat} (hp : p < n) : (List.range n).filter (fun k => decide (p = k)) = [p] := by
  have once : (List.range n).count p = 1 := List.count_eq_one_of_mem List.nodup_range (List.mem_range.mpr hp)
  simp only [eq_comm (a := p), List.filter_eq, once, List.replicate_one]

/-- The slots that a packet names and a test passes, read off all 32 slots. -/
theorem namedSlots_filter (pk : List Word) (q : Nat → Bool) :
    (namedSlots pk).filter q =
      (List.range 32).filter fun k => (bit (pk.getD 0 0) 31 || decide (fld (pk.getD 0 0) 0 5 = k)) && q k := by
  have slotInRange : fld (pk.getD 0 0) 0 5 < 32 := Nat.mod_lt _ (by decide)
  unfold namedSlots paramBit param pw
  cases bit (pk.getD 0 0) 31 with
  | true => simp
  | false =>
    simp only [Bool.false_eq_true, if_false, Bool.false_or]
    rw [← filter_range_eq_singleton slotInRange, List.filter_filter]
    simp only [Bool.and_comm]

end Sys2Proof.Machine
end

section
open Sys2Proof Sys2Proof.Machine Sys2Proof.Claims

/-- Settles O57: the packet issues (`issue_of_issues`) and clears the slots it names; its completion is the one of
`complete_eq_told`, as a clear leaves the sidings and windows alone (`clearSlots_only`). -/
theorem recordsCleared : Obligations.RecordsCleared := by
  intro s pk hissues _ freed
  have freedSlots : (namedSlots pk).filter (clearable (taken 16 s)) = (List.range 32).filter freed := by
    rw [namedSlots_filter]
    simp only [freed, clearable, Bool.and_assoc]
    rfl
  let u := (clearSlots (namedSlots pk) (taken 16 s)).1
  have frame : u = { taken 16 s with sbx := u.sbx } := clearSlots_only ..
  have slots : ∀ k, u.frec k = if k ∈ (List.range 32).filter freed then FRec.reset else s.frec k := by
    intro k
    rw [← freedSlots]
    exact clearSlots_frec ..
  have complLive : (u.siding (u.win 16).compl).state = 1 := by
    rw [frame]
    exact taken_compl_live hissues
  refine ⟨u, ?_, fun k hk hfreed => ?_, fun k hkept => ?_, outputsFollow_refresh _, clearSlots_recovery ..,
    clearSlots_state .., frame⟩
  · have clears : exec (.sbxClear 16) s = .next (sbxClear pk (ticketOf 16 pk) (taken 16 s)) :=
      congrArg next (issue_of_issues hissues)
    rw [clears, sbxClear_eq, ← freedSlots]
    exact congrArg _ (complete_eq_told complLive)
  · simp [slots, hk, hfreed]
  · simp [slots, hkept]

end

section
/-! PROOFS. What no command does. Each operation of the block leaves the queue and the parameters alone and keeps the
two sparse stores canonical (`Steady`); nearly each leaves the secrets and, unless the meter is open, the meter's
configuration alone as well (`Quiet`). One lemma for each operation, in the order of the model's files; a command
then is quiet by the operations that it is made of (`exec_quiet`). -/

namespace Sys2Proof.Machine

/-- `t` comes from `s` by an effect that leaves the queue and the parameters alone and keeps the two sparse stores
canonical. -/
structure Steady (s t : State) : Prop where
  pending : t.pending = s.pending
  params : t.params = s.params
  stores : s.storesCanonical = true → t.storesCanonical = true

/-- A steady effect that also leaves the secrets of the Interlocking alone, and, unless the meter is open, the tally
mappings and TTB_CFG; it does not open the meter. Every operation of the block but those of a few resets, of the fuse
read, of the wrapper and of the seal is of this kind. -/
structure Quiet (s t : State) : Prop extends Steady s t where
  sealed : meterOpen s = false → meterOpen t = false ∧ t.mtr.map = s.mtr.map ∧ t.ttb.cfg = s.ttb.cfg
  secret : t.ilk.rootKey = s.ilk.rootKey ∧ t.ilk.fuses = s.ilk.fuses ∧ t.ilk.identity = s.ilk.identity

namespace Steady

variable {s t u : State}

theorem refl (s : State) : Steady s s := ⟨rfl, rfl, id⟩

theorem trans (h : Steady s t) (g : Steady t u) : Steady s u :=
  ⟨g.pending.trans h.pending, g.params.trans h.params, g.stores ∘ h.stores⟩

end Steady

namespace Quiet

variable {s t u : State}

theorem refl (s : State) : Quiet s s := ⟨.refl s, fun h => ⟨h, rfl, rfl⟩, rfl, rfl, rfl⟩

theorem trans (h : Quiet s t) (g : Quiet t u) : Quiet s u where
  toSteady := h.toSteady.trans g.toSteady
  sealed closed := by
    obtain ⟨closedT, mapT, cfgT⟩ := h.sealed closed
    obtain ⟨closedU, mapU, cfgU⟩ := g.sealed closedT
    exact ⟨closedU, mapU.trans mapT, cfgU.trans cfgT⟩
  secret := by
    obtain ⟨keyT, fusesT, idT⟩ := h.secret
    obtain ⟨keyU, fusesU, idU⟩ := g.secret
    exact ⟨keyU.trans keyT, fusesU.trans fusesT, idU.trans idT⟩

/-- Where the meter is open its configuration may change. -/
theorem configure {ttb : Timetable} {mtr : Meter} (h : Quiet s t) (isOpen : meterOpen t = true)
    (g : Quiet { t with ttb := ttb, mtr := mtr } u) : Quiet s u :=
  have same : Steady t { t with ttb := ttb, mtr := mtr } := ⟨rfl, rfl, id⟩
  ⟨h.toSteady.trans (same.trans g.toSteady), fun closed => by simp [(h.sealed closed).1] at isOpen,
    g.secret.1.trans h.secret.1, g.secret.2.1.trans h.secret.2.1, g.secret.2.2.trans h.secret.2.2⟩

/-- A store that leaves both lists canonical. -/
theorem store {words : List (Nat × LWord)} {pool : List (Nat × Word)} {free : Nat} (h : Quiet s t)
    (hwords : canonical LWord.zero t.ldg.words = true → canonical LWord.zero words = true)
    (hpool : canonical 0 t.sdg.pool = true → canonical 0 pool = true) :
    Quiet s { t with ldg := { t.ldg with words := words }, sdg := { t.sdg with pool := pool }, free := free } := by
  refine h.trans ⟨⟨rfl, rfl, fun canon => ?_⟩, fun closed => ⟨closed, rfl, rfl⟩, rfl, rfl, rfl⟩
  simp only [State.storesCanonical, Bool.and_eq_true] at canon ⊢
  exact ⟨hwords canon.1, hpool canon.2⟩

/-- An update of the components that carries over what `Quiet` speaks of. -/
theorem upd {ttb : Timetable} {stn : List Station} {jct : Junction} {myd : Yard} {ldg : Ledger} {sdg : Sidings}
    {trk : List Track} {wtp : Checker} {plt : Pilot} {wbr : Weigh} {ilk : Interlock} {dsp : Dispatcher}
    {sbx : SignalBox} {mtr : Meter} {mem : MemPort} {exp : Export} {tkl : TokenLine} {pins : Pins} {free : Nat}
    (h : Quiet s t) (hcfg : ttb.cfg = t.ttb.cfg := by rfl) (hwords : ldg.words = t.ldg.words := by rfl)
    (hpool : sdg.pool = t.sdg.pool := by rfl)
    (hsecret : ilk.rootKey = t.ilk.rootKey ∧ ilk.fuses = t.ilk.fuses ∧ ilk.identity = t.ilk.identity := by
      exact ⟨rfl, rfl, rfl⟩)
    (hmeter : mtr.map = t.mtr.map ∧ mtr.state = t.mtr.state ∧ mtr.ready = t.mtr.ready ∧
      mtr.inReset = t.mtr.inReset := by exact ⟨rfl, rfl, rfl, rfl⟩)
    (hporst : pins.porstN = t.pins.porstN := by rfl) :
    Quiet s ⟨t.params, ttb, stn, jct, myd, ldg, sdg, trk, wtp, plt, wbr, ilk, dsp, sbx, mtr, mem, exp, tkl, pins,
        free,
      t.pending⟩ := by
  obtain ⟨hmap, hstate, hready, hreset⟩ := hmeter
  refine h.trans ⟨⟨rfl, rfl, ?_⟩, ?_, hsecret⟩
  · simp only [State.storesCanonical, hwords, hpool, imp_self]
  · intro closed
    refine ⟨?_, hmap, hcfg⟩
    simpa only [meterOpen, meterRuns, hstate, hready, hreset, hporst] using closed

theorem ite {c : Prop} [Decidable c] (h : Quiet s t) (g : Quiet s u) : Quiet s (if c then t else u) := by
  split
  · exact h
  · exact g

theorem when {c : Bool} {f : State → State} (hf : ∀ {x}, Quiet s x → Quiet s (f x)) (h : Quiet s t) :
    Quiet s (when c f t) := by
  cases c
  · exact h
  · exact hf h

theorem withSome {α : Type} {o : Option α} {f : α → State → State} (hf : ∀ {a x}, Quiet s x → Quiet s (f a x))
    (h : Quiet s t) : Quiet s (withSome o f t) := by
  cases o with
  | none => exact h
  | some a => exact hf h

theorem forEach {α : Type} {l : List α} {f : α → State → State} (hf : ∀ {a x}, Quiet s x → Quiet s (f a x))
    (h : Quiet s t) : Quiet s (forEach l f t) :=
  forEach_keeps (Quiet s) _ _ _ h fun _ _ => hf

theorem foldl {α : Type} {l : List α} {f : State → α → State} (hf : ∀ {a x}, Quiet s x → Quiet s (f x a))
    (h : Quiet s t) : Quiet s (l.foldl f t) :=
  forEach (f := fun a x => f x a) hf h

end Quiet

open Quiet
-- The lemmas below are many and small: one after the other they need few threads.
set_option Elab.async false
variable {s t u : State}

theorem State.modStation_quiet (h : Quiet s t) : Quiet s (State.modStation t a1 a2) := .upd h

theorem State.modSiding_quiet (h : Quiet s t) : Quiet s (State.modSiding t a1 a2) := .upd h

theorem State.modTrack_quiet (h : Quiet s t) : Quiet s (State.modTrack t a1 a2) := .upd h

theorem State.modPart_quiet (h : Quiet s t) : Quiet s (State.modPart t a1 a2) := .upd h

theorem State.modWin_quiet (h : Quiet s t) : Quiet s (State.modWin t a1 a2) := .upd h

theorem State.modStat_quiet (h : Quiet s t) : Quiet s (State.modStat t a1 a2) := .upd h

theorem State.markLate_quiet (h : Quiet s t) : Quiet s (State.markLate t a1) := State.modStat_quiet h

theorem State.markFault_quiet (h : Quiet s t) : Quiet s (State.markFault t a1) := .ite (State.modStat_quiet h) h

theorem State.post_quiet (h : Quiet s t) : Quiet s (State.post t a1) := .ite (.upd h) h

theorem State.raise_quiet (h : Quiet s t) : Quiet s (State.raise t a1 a2 a3 a4 a5) := State.post_quiet h

theorem State.containing_quiet (hf : ∀ {x}, Quiet s x → Quiet s (f x)) (h : Quiet s t) : Quiet s (State.containing t
    a1 a2 f) := .upd (hf (.upd h))

theorem State.countOverdue_quiet (h : Quiet s t) : Quiet s (State.countOverdue t a1) := .upd h

theorem State.emit_quiet (h : Quiet s t) : Quiet s (State.emit t a1 a2 a3) := .upd (State.countOverdue_quiet h)

theorem State.emitVrd_quiet (h : Quiet s t) : Quiet s (State.emitVrd t a1 a2) := .ite (State.emit_quiet h) (.upd h)

theorem State.refillVrd_quiet (h : Quiet s t) : Quiet s (State.refillVrd t) := by
  unfold State.refillVrd
  split
  · exact h
  · exact .ite (State.emit_quiet (.upd h)) h

theorem State.owe_quiet (h : Quiet s t) : Quiet s (State.owe t a1 a2 a3) := .upd h

theorem State.unowe_quiet (h : Quiet s t) : Quiet s (State.unowe t a1 a2) := .upd h

theorem State.pushItem_quiet (h : Quiet s t) : Quiet s (State.pushItem t a1 a2) := .ite (State.modSiding_quiet h)
    (.ite (State.modSiding_quiet h) h)

theorem State.complete_quiet (h : Quiet s t) : Quiet s (State.complete t a1 a2 a3 a4) := .ite h (.ite
    (State.pushItem_quiet h) (State.modWin_quiet h))

theorem State.completeFree_quiet (h : Quiet s t) : Quiet s (State.completeFree t a1 a2 a3 a4) := .ite
    (State.modWin_quiet h) (State.complete_quiet h)

theorem State.finish_quiet (h : Quiet s t) : Quiet s (State.finish t a1 a2 a3 a4) := .ite (State.complete_quiet h)
    (State.modWin_quiet (State.complete_quiet h))

theorem State.startLong_quiet (h : Quiet s t) : Quiet s (State.startLong t a1) := .ite h (State.modWin_quiet h)

theorem State.pendE_quiet (h : Quiet s t) : Quiet s (State.pendE t a1) := .upd h

theorem State.draw_quiet (h : Quiet s t) : Quiet s (State.draw t) := .upd h

theorem takePacket_quiet (h : Quiet s t) : Quiet s (takePacket a1 t) := .upd (State.modWin_quiet h)

theorem issue_quiet (hact : ∀ {a1 a2 x}, Quiet s x → Quiet s (act a1 a2 x)) (h : Quiet s t) : Quiet s (issue a1 a2
    act t) := by
  unfold issue
  split
  · exact h
  · exact .ite (.ite (State.complete_quiet (takePacket_quiet h)) (.ite (State.complete_quiet (takePacket_quiet h))
      (hact (takePacket_quiet h)))) h

theorem setHeld_quiet (h : Quiet s t) : Quiet s (setHeld a1 t) := .upd h

theorem abortHeld_quiet (h : Quiet s t) : Quiet s (abortHeld a1 t) := .forEach State.finish_quiet (setHeld_quiet h)

theorem dropHeld_quiet (h : Quiet s t) : Quiet s (dropHeld a1 t) := abortHeld_quiet h

theorem defer_quiet (h : Quiet s t) : Quiet s (defer a1 a2 a3 t) := setHeld_quiet (.ite (State.complete_quiet
    (dropHeld_quiet h)) (State.modWin_quiet (State.complete_quiet (dropHeld_quiet h))))

theorem State.answer_quiet (h : Quiet s t) : Quiet s (State.answer t a1 a2 a3 a4) := .ite (State.finish_quiet h)
    (State.complete_quiet h)

theorem noteRefused_quiet (h : Quiet s t) : Quiet s (noteRefused a1 a2 t) := .ite (State.modPart_quiet (.upd h))
    (.upd h)

theorem addJob_quiet (h : Quiet s t) : Quiet s (addJob a1 a2 a3 a4 a5 a6 a7 t) := .upd h

theorem modJob_quiet (h : Quiet s t) : Quiet s (modJob a1 a2 t) := .upd h

theorem noteScrubFail_quiet (h : Quiet s t) : Quiet s (noteScrubFail a1 a2 t) := by
  unfold noteScrubFail
  split
  · exact State.raise_quiet (.upd h)
  · exact h

theorem memCmdIssue_quiet (h : Quiet s t) : Quiet s (memCmdIssue a1 t) := by
  unfold memCmdIssue
  split
  · exact h
  · exact .ite h (.ite (modJob_quiet h) (.ite h (.ite (noteScrubFail_quiet (noteRefused_quiet (modJob_quiet h)))
      (.ite h (by
    split
    · exact .upd (modJob_quiet h)
    · exact h)))))

theorem memWriteBeat_quiet (h : Quiet s t) : Quiet s (memWriteBeat t) := by
  unfold memWriteBeat
  split
  · exact h
  · exact .upd h

theorem endTxn_quiet (h : Quiet s t) : Quiet s (endTxn a1 a2 t) := by
  unfold endTxn
  exact .ite (.upd h) (modJob_quiet (by
      split
      · exact .ite (noteScrubFail_quiet (.upd h)) (.upd h)
      · exact .upd h))

theorem noteProto_quiet (h : Quiet s t) : Quiet s (noteProto t) := .upd h

theorem memReadBeat_quiet (h : Quiet s t) : Quiet s (memReadBeat a1 a2 a3 a4 t) := by
  unfold memReadBeat
  split
  · exact noteProto_quiet h
  · exact .ite (endTxn_quiet (.ite (noteProto_quiet (.ite (.ite (.upd h) h) (modJob_quiet (.ite (.upd h) h)))) (.ite
      (.ite (.upd h) h) (modJob_quiet (.ite (.upd h) h))))) (.upd (.ite (.ite (.upd h) h) (modJob_quiet (.ite (.upd
      h) h))))

theorem memWriteResponse_quiet (h : Quiet s t) : Quiet s (memWriteResponse a1 a2 t) := by
  unfold memWriteResponse
  split
  · exact noteProto_quiet h
  · exact endTxn_quiet (.ite (.upd h) h)

theorem memTimeout_quiet (h : Quiet s t) : Quiet s (memTimeout a1 t) := by
  unfold memTimeout
  split
  · exact h
  · exact .ite (.upd (endTxn_quiet (State.raise_quiet (.upd h)))) h

theorem State.putPool_quiet (h : Quiet s t) : Quiet s (t.putPool a1 a2) :=
  h.store id canonical_store

theorem State.modSdg_quiet (h : Quiet s t) : Quiet s (State.modSdg t a1 a2) := State.modSiding_quiet h

theorem sidingWordWrite_quiet (h : Quiet s t) : Quiet s (sidingWordWrite a1 t) := by
  unfold sidingWordWrite
  dsimp only
  split
  · exact h
  · exact .ite h (.ite (.ite (State.modSiding_quiet h) h) (.ite (.ite h (State.modSdg_quiet h)) (.ite
      (State.modSdg_quiet (State.putPool_quiet h)) h)))

theorem sidingItemClose_quiet (h : Quiet s t) : Quiet s (sidingItemClose a1 t) := by
  unfold sidingItemClose
  dsimp only
  split
  · exact h
  · exact .ite h (.ite (State.modSiding_quiet h) (.ite (State.modSdg_quiet (State.putPool_quiet h)) h))

theorem State.modSession_quiet (h : Quiet s t) : Quiet s (State.modSession t a1 a2) := .upd h

theorem noteCorrected_quiet (h : Quiet s t) : Quiet s (noteCorrected a1 a2 t) := .forEach (fun h1 =>
    State.raise_quiet (State.modSiding_quiet h1)) h

theorem takeFraming_quiet (h : Quiet s t) : Quiet s (takeFraming a1 t).2.2 := State.raise_quiet
    (State.modSiding_quiet h)

theorem takeItem_quiet (h : Quiet s t) : Quiet s (takeItem a1 a2 t).2.2.2 := by
  unfold takeItem
  dsimp only
  split
  · exact takeFraming_quiet h
  · split
    · exact noteCorrected_quiet h
    · exact State.raise_quiet (State.modSiding_quiet (noteCorrected_quiet h))

theorem readContent_quiet (h : Quiet s t) : Quiet s (readContent a1 a2 t).2 := by
  unfold readContent
  split
  · exact State.raise_quiet (State.modSiding_quiet (State.draw_quiet h))
  · exact noteCorrected_quiet h

theorem popSiding_quiet (h : Quiet s t) : Quiet s (popSiding a1 a2 t).2 := by
  unfold popSiding
  dsimp only
  split
  · exact State.modSiding_quiet h
  · split
    · exact State.modSiding_quiet h
    · split
      · split <;> exact .ite (State.modSdg_quiet (State.modSdg_quiet (State.modSiding_quiet (takeItem_quiet h))))
          (State.modSdg_quiet (State.modSiding_quiet (takeItem_quiet h)))
      · exact .ite (State.modSdg_quiet (State.modSdg_quiet (readContent_quiet h))) (State.modSdg_quiet
          (readContent_quiet h))

theorem sdgPop_quiet (h : Quiet s t) : Quiet s (sdgPop a1 a2 a3 t) := by
  unfold sdgPop
  split
  · exact .upd h
  · exact .ite (.upd (popSiding_quiet h)) (.upd h)

theorem noteDiscarded_quiet (h : Quiet s t) : Quiet s (noteDiscarded a1 t) := .upd h

theorem clearExport_quiet (h : Quiet s t) : Quiet s (clearExport a1 t) := .upd h

theorem settleFlight_quiet (h : Quiet s t) : Quiet s (settleFlight a1 a2 t) := State.modSiding_quiet (.forEach
    State.modSdg_quiet (.upd h))

theorem discardRest_quiet (h : Quiet s t) : Quiet s (discardRest a1 a2 t) := settleFlight_quiet (.upd
    (State.modSdg_quiet h))

theorem dropSession_quiet (h : Quiet s t) : Quiet s (dropSession a1 t) := State.modSession_quiet (.withSome
    State.finish_quiet (discardRest_quiet (.upd (.upd (clearExport_quiet (noteDiscarded_quiet h))))))

theorem endSession_quiet (h : Quiet s t) : Quiet s (endSession a1 a2 t) := .ite (.ite (State.modPart_quiet
    (State.modSession_quiet (dropSession_quiet h))) (State.modSession_quiet (dropSession_quiet h))) h

theorem endSiding_quiet (h : Quiet s t) : Quiet s (endSiding a1 t) := .forEach (fun h1 => .ite
    (State.modSession_quiet (endSession_quiet h1)) h1) h

theorem applyFlush_quiet (h : Quiet s t) : Quiet s (applyFlush a1 a2 t) := State.modSdg_quiet (.ite
    (State.modSdg_quiet (State.putPool_quiet h)) h)

theorem flushComplete_quiet (h : Quiet s t) : Quiet s (flushComplete a1 t) := by
  unfold flushComplete
  dsimp only
  split
  · exact h
  · exact .ite h (.ite (by
    split
    · exact State.finish_quiet (State.modSiding_quiet h)
    · exact applyFlush_quiet (State.finish_quiet (State.modSiding_quiet h))) h)

theorem discardItem_quiet (h : Quiet s t) : Quiet s (discardItem a1 a2 t) := by
  unfold discardItem
  split
  · split
    · exact State.modWin_quiet h
    · exact h
  · exact noteDiscarded_quiet h
  · exact h

theorem unnameSiding_quiet (h : Quiet s t) : Quiet s (unnameSiding a1 t) := .upd h

theorem forgetFlight_quiet (h : Quiet s t) : Quiet s (forgetFlight a1 t) := .upd h

theorem freeSiding_quiet (h : Quiet s t) : Quiet s (freeSiding a1 t) := State.modSdg_quiet (forgetFlight_quiet
    (unnameSiding_quiet (dropHeld_quiet (.forEach discardItem_quiet (.forEach State.finish_quiet (.ite
    (endSiding_quiet h) h))))))

theorem makeSiding_quiet (h : Quiet s t) : Quiet s (makeSiding a1 a2 a3 a4 a5 a6 a7 a8 a9 t) := State.modSdg_quiet h

theorem attachStream_quiet (h : Quiet s t) : Quiet s (attachStream a1 a2 t) := .withSome State.pendE_quiet h

theorem createSiding_quiet (h : Quiet s t) : Quiet s (createSiding a1 a2 a3 a4 t) := by
  unfold createSiding
  exact .ite (State.answer_quiet h) (.ite (State.answer_quiet h) (by
      split
      · exact State.answer_quiet h
      · exact State.answer_quiet (attachStream_quiet (makeSiding_quiet h))))

theorem setOwner_quiet (h : Quiet s t) : Quiet s (setOwner a1 a2 t) := .ite h (State.modSiding_quiet h)

theorem resizeSiding_quiet (e : resizeSiding a1 a2 t = some u) (h : Quiet s t) : Quiet s u := by
  unfold resizeSiding at e
  obtain ⟨base, -, rfl⟩ := Option.map_eq_some_iff.mp e
  exact State.modSdg_quiet h

theorem changeSiding_quiet (h : Quiet s t) : Quiet s (changeSiding a1 a2 a3 a4 t) := by
  unfold changeSiding
  refine .ite (.ite (State.answer_quiet h) ?_) (.ite (State.answer_quiet (freeSiding_quiet h))
    (.ite (State.answer_quiet h) (.ite (State.answer_quiet h) ?_)))
  · split
    · exact State.answer_quiet h
    · next resized => exact State.answer_quiet (resizeSiding_quiet resized h)
  · split
    · exact State.answer_quiet h
    · next u sized =>
      have hu : Quiet s u := by
        split at sized
        · obtain rfl := Option.some.inj sized
          exact h
        · exact resizeSiding_quiet sized h
      exact State.answer_quiet (attachStream_quiet (State.modSdg_quiet (setOwner_quiet hu)))

theorem sdgCreate_quiet (h : Quiet s t) : Quiet s (sdgCreate a1 a2 t) := by
  unfold sdgCreate
  split
  · exact State.complete_quiet h
  · exact .ite (.ite (State.complete_quiet h) (.ite (State.complete_quiet h) (createSiding_quiet h))) (.ite
      (State.complete_quiet h) (.ite (State.complete_quiet h) (.ite (changeSiding_quiet (dropHeld_quiet h))
      (defer_quiet h))))

theorem onSiding_quiet (hact : ∀ {a1 x}, Quiet s x → Quiet s (act a1 x)) (h : Quiet s t) : Quiet s (onSiding a1 a2
    act t) := .ite (State.complete_quiet h) (.ite (.ite (hact h) (State.complete_quiet h)) (.ite (hact h)
    (State.complete_quiet h)))

theorem sdgMark_quiet (h : Quiet s t) : Quiet s (sdgMark a1 a2 t) := onSiding_quiet (fun h1 => .ite
    (State.complete_quiet h1) (State.complete_quiet (State.modSiding_quiet h1))) h

theorem sdgRewind_quiet (h : Quiet s t) : Quiet s (sdgRewind a1 a2 t) := onSiding_quiet (fun h1 => .ite
    (State.complete_quiet h1) (.ite (State.complete_quiet (State.modSdg_quiet h1)) (State.complete_quiet
    (State.modSdg_quiet h1)))) h

theorem sdgRelease_quiet (h : Quiet s t) : Quiet s (sdgRelease a1 a2 t) := onSiding_quiet (fun h1 => .ite
    (State.complete_quiet (State.modSdg_quiet h1)) (.ite (State.complete_quiet (State.modSiding_quiet h1))
    (State.complete_quiet h1))) h

theorem sdgFlush_quiet (h : Quiet s t) : Quiet s (sdgFlush a1 a2 t) := onSiding_quiet (fun h1 => .ite (.ite
    (flushComplete_quiet (applyFlush_quiet (State.modSiding_quiet (State.startLong_quiet h1)))) (applyFlush_quiet
    (State.modSiding_quiet (State.startLong_quiet h1)))) (State.modSiding_quiet (State.startLong_quiet h1))) h

theorem sdgLevel_quiet (h : Quiet s t) : Quiet s (sdgLevel a1 a2 t) := onSiding_quiet (fun h1 => State.complete_quiet
    (State.modSiding_quiet h1)) h

theorem sdgWatermark_quiet (h : Quiet s t) : Quiet s (sdgWatermark a1 a2 t) := .ite (State.complete_quiet h)
    (onSiding_quiet (fun h1 => State.complete_quiet (State.modSdg_quiet h1)) h)

theorem verdictCheck_quiet (h : Quiet s t) : Quiet s (verdictCheck a1 t) := .ite h (State.raise_quiet h)

theorem noteEmission_quiet (h : Quiet s t) : Quiet s (noteEmission a1 t) := by
  unfold noteEmission
  exact .upd (by
      split
      · exact .ite (verdictCheck_quiet h) h
      · exact h)

theorem closeStatus_quiet (h : Quiet s t) : Quiet s (closeStatus t) := .forEach verdictCheck_quiet (.upd h)

theorem noteSwitch_quiet (h : Quiet s t) : Quiet s (noteSwitch a1 t) := .upd (.ite (.upd h) h)

theorem popSource_quiet (h : Quiet s t) : Quiet s (popSource a1 t) := .ite (.ite (State.modStation_quiet (.upd h))
    (.upd h)) (.ite (State.refillVrd_quiet (.upd h)) (.upd h))

theorem noteFaultNamed_quiet (h : Quiet s t) : Quiet s (noteFaultNamed a1 t) := .forEach State.modPart_quiet h

theorem releaseRec_quiet (h : Quiet s t) : Quiet s (releaseRec a1 t) := .upd (.ite (noteFaultNamed_quiet (.ite
    (noteEmission_quiet (noteSwitch_quiet (popSource_quiet h))) (noteSwitch_quiet (popSource_quiet h)))) (.ite
    (noteEmission_quiet (noteSwitch_quiet (popSource_quiet h))) (noteSwitch_quiet (popSource_quiet h))))

theorem junctionRelease_quiet (h : Quiet s t) : Quiet s (junctionRelease t) := by
  unfold junctionRelease
  exact .ite h (by
      split
      · exact releaseRec_quiet h
      · exact h)

theorem recordOverdue_quiet (h : Quiet s t) : Quiet s (recordOverdue a1 t) := by
  unfold recordOverdue
  split
  · exact h
  · exact State.countOverdue_quiet (.upd h)

theorem bankHandedOver_quiet (h : Quiet s t) : Quiet s (bankHandedOver a1 a2 t) := by
  unfold bankHandedOver
  split
  · exact h
  · exact State.modStation_quiet (.forEach State.raise_quiet h)

theorem flushLost_quiet (h : Quiet s t) : Quiet s (flushLost a1 t) := State.modStation_quiet (.forEach
    State.raise_quiet h)

theorem finalFlush_quiet (h : Quiet s t) : Quiet s (finalFlush a1 t) := .ite (State.modStation_quiet h)
    (flushLost_quiet h)

theorem lossAt_quiet (h : Quiet s t) : Quiet s (lossAt a1 t) := State.modStat_quiet h

theorem formTrace_quiet (h : Quiet s t) : Quiet s (formTrace a1 a2 t) := .ite (State.modStation_quiet
    (State.modStation_quiet h)) (lossAt_quiet (State.modStation_quiet (State.modStation_quiet h)))

theorem formOp_quiet (h : Quiet s t) : Quiet s (formOp a1 a2 t) := .ite (State.modStation_quiet
    (State.modStation_quiet h)) (lossAt_quiet (State.modStation_quiet (State.modStation_quiet h)))

theorem ctxOverrunTo_quiet (h : Quiet s t) : Quiet s (ctxOverrunTo a1 a2 t) := State.modStation_quiet
    (State.raise_quiet h)

theorem changeCtx_quiet (h : Quiet s t) : Quiet s (changeCtx a1 a2 t) := .ite (State.modStation_quiet h) (.ite
    (State.modStation_quiet h) (.ite (State.modStation_quiet h) (ctxOverrunTo_quiet h)))

theorem takeTag_quiet (h : Quiet s t) : Quiet s (takeTag a1 a2 a3 t) := .ite (formTrace_quiet (changeCtx_quiet
    (State.modStation_quiet h))) (changeCtx_quiet (State.modStation_quiet h))

theorem followDefault_quiet (h : Quiet s t) : Quiet s (followDefault a1 t) := .ite (changeCtx_quiet h) h

theorem takeSnoop_quiet (h : Quiet s t) : Quiet s (takeSnoop a1 a2 a3 t) := by
  unfold takeSnoop
  exact .ite h (by
      split
      · exact h
      · exact .ite (formOp_quiet (.ite (formTrace_quiet h) h)) (.ite (formTrace_quiet h) h))

theorem takeAcc_quiet (h : Quiet s t) : Quiet s (takeAcc a1 a2 a3 t) := .ite h (.ite (formOp_quiet
    (State.modStation_quiet (State.modStation_quiet h))) (State.modStation_quiet h))

theorem resumeStation_quiet (h : Quiet s t) : Quiet s (resumeStation a1 a2 t) := by
  unfold resumeStation
  dsimp only
  split
  · exact State.modStation_quiet (State.modStation_quiet (.forEach lossAt_quiet h))
  · exact State.modStation_quiet (.forEach lossAt_quiet h)

theorem countedEdge_quiet (h : Quiet s t) : Quiet s (countedEdge a1 a2 a3 t) := State.modStation_quiet (.withSome
    takeAcc_quiet (.withSome takeSnoop_quiet (.ite (formTrace_quiet (.ite (State.modStation_quiet (.withSome
    takeTag_quiet (.ite (resumeStation_quiet h) h))) (.withSome takeTag_quiet (.ite (resumeStation_quiet h) h))))
    (.ite (State.modStation_quiet (.withSome takeTag_quiet (.ite (resumeStation_quiet h) h))) (.withSome
    takeTag_quiet (.ite (resumeStation_quiet h) h))))))

theorem stationEdge_quiet (h : Quiet s t) : Quiet s (stationEdge a1 a2 a3 t) := by
  unfold stationEdge
  exact .ite h (.ite (State.modStation_quiet h) (by
      split
      · exact State.modStation_quiet h
      · exact State.modStation_quiet h
      · exact .ite (countedEdge_quiet h) h))

theorem delayMeasured_quiet (h : Quiet s t) : Quiet s (delayMeasured a1 a2 t) := by
  unfold delayMeasured
  dsimp only
  split
  · exact .ite (State.raise_quiet (State.modStation_quiet (State.modStation_quiet h))) (State.modStation_quiet h)
  · exact h

theorem recordHandover_quiet (h : Quiet s t) : Quiet s (recordHandover a1 a2 t) := by
  unfold recordHandover
  split
  · exact h
  · exact .upd (by
    split
    · exact State.modStation_quiet h
    · exact State.raise_quiet (State.draw_quiet (State.modStation_quiet h))
    · exact State.raise_quiet (State.draw_quiet (State.modStation_quiet h)))

theorem lineClearToken_quiet (h : Quiet s t) : Quiet s (lineClearToken a1 t) := .ite h (.ite (State.modStation_quiet
    (State.modStation_quiet h)) (State.modStation_quiet h))

theorem stationPark_quiet (h : Quiet s t) : Quiet s (stationPark a1 t) := .ite h (.ite (finalFlush_quiet
    (State.modStation_quiet h)) (.ite (finalFlush_quiet h) h))

theorem stationUnpark_quiet (h : Quiet s t) : Quiet s (stationUnpark a1 a2 t) := .ite (State.modStation_quiet h) h

theorem stationFail_quiet (h : Quiet s t) : Quiet s (stationFail a1 t) := .ite (State.raise_quiet
    (State.modStation_quiet h)) h

theorem endFlush_quiet (h : Quiet s t) : Quiet s (endFlush a1 t) := .ite (finalFlush_quiet h) h

theorem boundaryAtStation_quiet (h : Quiet s t) : Quiet s (boundaryAtStation a1 a2 a3 t) := .ite h (.ite
    (State.modStation_quiet h) (ctxOverrunTo_quiet (State.modStation_quiet h)))

theorem stnConfig_quiet (h : Quiet s t) : Quiet s (stnConfig a1 a2 t) := by
  unfold stnConfig
  split
  · exact State.complete_quiet h
  · exact State.complete_quiet (State.pendE_quiet (State.modStation_quiet h))

theorem stnArray_quiet (h : Quiet s t) : Quiet s (stnArray a1 a2 a3 a4 a5 a6 t) := by
  unfold stnArray
  split
  · exact State.complete_quiet h
  · exact State.complete_quiet (.forEach State.pendE_quiet h)

theorem stnSnoopwin_quiet (h : Quiet s t) : Quiet s (stnSnoopwin a1 a2 t) := by
  unfold stnSnoopwin
  split
  · exact State.complete_quiet h
  · exact State.complete_quiet (State.pendE_quiet (State.pendE_quiet (State.pendE_quiet h)))

theorem putLWord_quiet (h : Quiet s t) : Quiet s (putLWord a1 a2 t) :=
  h.store canonical_store id

theorem modSnap_quiet (h : Quiet s t) : Quiet s (modSnap a1 a2 t) := .upd h

theorem noteFinalSnap_quiet (h : Quiet s t) : Quiet s (noteFinalSnap a1 a2 t) := .upd h

theorem withdrawSnap_quiet (h : Quiet s t) : Quiet s (withdrawSnap a1 a2 t) := by
  unfold withdrawSnap
  split
  · exact h
  · exact State.raise_quiet (State.unowe_quiet (.ite (noteFinalSnap_quiet (.upd (modSnap_quiet h))) (.upd
      (modSnap_quiet h))))

theorem sendSnaps_quiet (h : Quiet s t) : Quiet s (sendSnaps a1 t) := by
  induction a1 generalizing t with
  | nil => exact h
  | cons x r ih =>
    unfold sendSnaps
    exact .ite (ih h) (.ite (ih (modSnap_quiet (State.emit_quiet h))) h)

theorem settleSnaps_quiet (h : Quiet s t) : Quiet s (settleSnaps t) := sendSnaps_quiet (.upd (.withSome
    noteFinalSnap_quiet h))

theorem snapWritten_quiet (h : Quiet s t) : Quiet s (snapWritten a1 a2 a3 t) := .ite h (settleSnaps_quiet (.ite
    (modSnap_quiet h) (withdrawSnap_quiet (modSnap_quiet h))))

theorem takeFrozen_quiet (h : Quiet s t) : Quiet s (takeFrozen a1 t) := by
  unfold takeFrozen
  split
  · exact h
  · exact .upd (putLWord_quiet (.forEach (fun h1 => addJob_quiet (modSnap_quiet h1)) h))

theorem rewriteWord_quiet (h : Quiet s t) : Quiet s (rewriteWord a1 t) := State.raise_quiet (.upd (.ite
    (putLWord_quiet (putLWord_quiet h)) (putLWord_quiet h)))

theorem ledgerEcc_quiet (h : Quiet s t) : Quiet s (ledgerEcc a1 a2 t) := by
  unfold ledgerEcc
  split
  · exact h
  · exact State.raise_quiet (.upd h)
  · exact rewriteWord_quiet h

theorem startTraverse_quiet (h : Quiet s t) : Quiet s (startTraverse t) := .upd h

theorem sweepVisit_quiet (h : Quiet s t) : Quiet s (sweepVisit a1 t) := by
  unfold sweepVisit
  split
  · exact h
  · exact .ite h (settleSnaps_quiet (.upd (.ite (ledgerEcc_quiet h) (takeFrozen_quiet (ledgerEcc_quiet h)))))

theorem finishSweep_quiet (h : Quiet s t) : Quiet s (finishSweep a1 t) := by
  induction a1 generalizing t with
  | zero => exact h
  | succ n ih =>
    unfold finishSweep
    exact .ite h (ih (sweepVisit_quiet h))

theorem freezeFirst_quiet (h : Quiet s t) : Quiet s (freezeFirst a1 a2 t) := by
  unfold freezeFirst
  split
  · exact .ite (takeFrozen_quiet h) h
  · exact h

theorem addCount_quiet (h : Quiet s t) : Quiet s (addCount a1 a2 a3 a4 t) := .ite (putLWord_quiet (freezeFirst_quiet
    (putLWord_quiet (freezeFirst_quiet (.ite (ledgerEcc_quiet h) h))))) (putLWord_quiet (freezeFirst_quiet (.ite
    (ledgerEcc_quiet h) h)))

theorem setLost_quiet (h : Quiet s t) : Quiet s (setLost a1 a2 t) := putLWord_quiet (freezeFirst_quiet h)

theorem applyDelta_quiet (h : Quiet s t) : Quiet s (applyDelta a1 a2 a3 a4 t) := .ite (setLost_quiet (ledgerEcc_quiet
    h)) (.ite (ledgerEcc_quiet h) (.ite (State.raise_quiet (.upd (putLWord_quiet (addCount_quiet (ledgerEcc_quiet
    h))))) (addCount_quiet (ledgerEcc_quiet h))))

theorem ledgerDelta_quiet (h : Quiet s t) : Quiet s (ledgerDelta a1 a2 t) := by
  unfold ledgerDelta
  split
  · exact h
  · exact .ite (.upd (.upd h)) (applyDelta_quiet (.upd h))

theorem ledgerBoundary_quiet (h : Quiet s t) : Quiet s (ledgerBoundary a1 a2 a3 t) := .ite (.upd (.upd (.upd
    (finishSweep_quiet (startTraverse_quiet (sendSnaps_quiet (.forEach (fun h1 => .ite h1 (withdrawSnap_quiet h1))
    h))))))) (.forEach State.owe_quiet (.upd (.upd (.upd (finishSweep_quiet (startTraverse_quiet (sendSnaps_quiet
    (.forEach (fun h1 => .ite h1 (withdrawSnap_quiet h1)) h))))))))

theorem ldgRead_quiet (h : Quiet s t) : Quiet s (ldgRead a1 a2 a3 t) := .ite (State.complete_quiet (ledgerEcc_quiet
    h)) (State.complete_quiet h)

theorem ldgReadPair_quiet (h : Quiet s t) : Quiet s (ldgReadPair a1 a2 a3 t) := .ite (State.complete_quiet
    (ledgerEcc_quiet (ledgerEcc_quiet h))) (State.complete_quiet h)

theorem ldgChain_quiet (h : Quiet s t) : Quiet s (ldgChain a1 a2 t) := .ite (State.complete_quiet h)
    (State.complete_quiet (.forEach (fun h1 => .ite h1 (State.pendE_quiet h1)) h))

theorem ldgSnapcfg_quiet (h : Quiet s t) : Quiet s (ldgSnapcfg a1 a2 t) := .ite (State.complete_quiet h)
    (State.complete_quiet (State.pendE_quiet h))

theorem ldgClear_quiet (h : Quiet s t) : Quiet s (ldgClear a1 a2 t) := State.complete_quiet (State.pendE_quiet h)

theorem advanceSel_quiet (h : Quiet s t) : Quiet s (advanceSel a1 a2 t) := .ite (.upd h) h

theorem setRegData_quiet (h : Quiet s t) : Quiet s (setRegData a1 t) := .upd h

theorem ureadData_quiet (h : Quiet s t) : Quiet s (ureadData a1 a2 t) := advanceSel_quiet (.ite (setRegData_quiet
    (ledgerEcc_quiet h)) (setRegData_quiet h))

theorem ureadPairLo_quiet (h : Quiet s t) : Quiet s (ureadPairLo a1 a2 t) := advanceSel_quiet (.ite (setRegData_quiet
    (.upd (ledgerEcc_quiet (ledgerEcc_quiet h)))) (setRegData_quiet (.upd h)))

theorem emitFlt_quiet (h : Quiet s t) : Quiet s (emitFlt a1 a2 a3 a4 t) := .ite (State.emit_quiet h) h

theorem refresh_quiet (h : Quiet s t) : Quiet s (refresh t) := .ite h (.upd h)

theorem takeOverOutputs_quiet (h : Quiet s t) : Quiet s (takeOverOutputs a1 t) := .ite (refresh_quiet (.upd h)) h

theorem enterFatal_quiet (h : Quiet s t) : Quiet s (enterFatal t) := refresh_quiet (State.markFault_quiet (.ite (.upd
    (.upd h)) (.upd h)))

theorem State.setRec_quiet (h : Quiet s t) : Quiet s (State.setRec t a1 a2) := .upd h

theorem noteCoincident_quiet (h : Quiet s t) : Quiet s (noteCoincident a1 a2 a3 t) := .ite (emitFlt_quiet (.upd h)) h

theorem recur_quiet (h : Quiet s t) : Quiet s (recur a1 a2 a3 t) := noteCoincident_quiet (State.setRec_quiet h)

theorem merge_quiet (h : Quiet s t) : Quiet s (merge a1 a2 a3 a4 t) := noteCoincident_quiet (.upd (State.setRec_quiet
    h))

theorem newRecord_quiet (h : Quiet s t) : Quiet s (newRecord a1 a2 a3 t) := emitFlt_quiet (State.setRec_quiet h)

theorem placeNew_quiet (h : Quiet s t) : Quiet s (placeNew a1 a2 t).1 := by
  unfold placeNew
  dsimp only
  split
  · exact newRecord_quiet h
  · split
    · exact newRecord_quiet (.upd h)
    · exact merge_quiet h

theorem place_quiet (h : Quiet s t) : Quiet s (place a1 a2 t).1 := by
  unfold place
  split
  · exact recur_quiet h
  · split
    · exact merge_quiet h
    · exact placeNew_quiet h

theorem placeEscalation_quiet (h : Quiet s t) : Quiet s (placeEscalation a1 t) := by
  unfold placeEscalation
  split
  · exact recur_quiet h
  · exact placeNew_quiet h

theorem escalate_quiet (h : Quiet s t) : Quiet s (escalate a1 a2 t) := .ite (enterFatal_quiet (placeEscalation_quiet
    (State.markFault_quiet (.upd h)))) (.upd h)

theorem receiveC_quiet (h : Quiet s t) : Quiet s (receiveC a1 t) := refresh_quiet (.ite (emitFlt_quiet (.upd (.upd
    h))) (.upd h))

theorem receive_quiet (h : Quiet s t) : Quiet s (receive a1 t).1 := by
  unfold receive
  dsimp only
  split
  · exact h
  · split
    · exact receiveC_quiet h
    · exact refresh_quiet (.ite (escalate_quiet (.ite (enterFatal_quiet (place_quiet (State.markFault_quiet h)))
        (place_quiet (State.markFault_quiet h)))) (.ite (enterFatal_quiet (place_quiet (State.markFault_quiet h)))
        (place_quiet (State.markFault_quiet h))))

theorem watchdogExpire_quiet (h : Quiet s t) : Quiet s (watchdogExpire a1 t) := State.raise_quiet (.upd h)

theorem sbxConfig_quiet (h : Quiet s t) : Quiet s (sbxConfig a1 a2 t) := State.complete_quiet (.upd h)

theorem clearSlots_quiet (h : Quiet s t) : Quiet s (clearSlots a1 t).1 := refresh_quiet (.forEach State.setRec_quiet
    h)

theorem sbxClear_quiet (h : Quiet s t) : Quiet s (sbxClear a1 a2 t) := State.complete_quiet (clearSlots_quiet h)

theorem reactSet_quiet (h : Quiet s t) : Quiet s (reactSet a1 a2 t) := .ite (State.complete_quiet (.upd h))
    (State.complete_quiet h)

theorem shiftTimes_quiet (h : Quiet s t) : Quiet s (shiftTimes a1 a2 t) := .ite h (.upd h)

@[simp] theorem enterState_cfg (x : TimeState) (t : Timetable) : (enterState x t).cfg = t.cfg := rfl

@[simp] theorem setTime_cfg (timeNs : Nat) (t : Timetable) : (setTime timeNs t).cfg = t.cfg := rfl

@[simp] theorem compareTime_cfg (o : Int) (t : Timetable) : (compareTime o t).cfg = t.cfg := by
  simp only [compareTime]
  split <;> rw [enterState_cfg]

theorem validEdge_cfg (timeNs free : Nat) (t : Timetable) : (validEdge timeNs free t).cfg = t.cfg := by
  rw [validEdge, learn_eq]
  simp only [apply_ite Timetable.cfg, compareTime_cfg, setTime_cfg, enterState_cfg, ite_self]

theorem loseValid_cfg (t : Timetable) : (loseValid t).cfg = t.cfg := by
  unfold loseValid
  split <;> rfl

theorem timeNs_cfg (t : Timetable) (n : Nat) : { t with timeNs := n }.cfg = t.cfg := rfl

theorem advance_cfg (t : Timetable) : (advance t).cfg = t.cfg := by
  obtain ⟨_, _, _, only⟩ := advance_eq t
  rw [only]

theorem timeAdvance_quiet (h : Quiet s t) : Quiet s (timeAdvance a1 a2 t) := by
  unfold timeAdvance
  exact .ite (shiftTimes_quiet (.upd (State.draw_quiet h) (hcfg := (validEdge_cfg ..).trans (advance_cfg _))))
    (.upd h (hcfg := (loseValid_cfg _).trans ((timeNs_cfg ..).trans (advance_cfg _))))

theorem ppsEdge_quiet (h : Quiet s t) : Quiet s (ppsEdge t) := by
  unfold ppsEdge
  extract_lets p t1 t2 t3
  have hcfg : t3.cfg = t.ttb.cfg := by
    unfold t3
    split <;> rfl
  exact .ite (State.raise_quiet (.upd h (hcfg := hcfg))) (.upd h (hcfg := hcfg))

theorem modBoot_quiet (h : Quiet s t) : Quiet s (modBoot a1 t) := .upd h

theorem readSlot_quiet (h : Quiet s t) : Quiet s (readSlot a1 t) := addJob_quiet (modBoot_quiet h)

theorem startBoot_quiet (h : Quiet s t) : Quiet s (startBoot t) := readSlot_quiet (modBoot_quiet (.upd h))

theorem bootJobEnd_quiet (h : Quiet s t) : Quiet s (bootJobEnd a1 a2 a3 t) := .ite (modBoot_quiet h) (.ite
    (modBoot_quiet h) (.ite (addJob_quiet (modBoot_quiet (modBoot_quiet h))) (modBoot_quiet (modBoot_quiet h))))

theorem startFirmware_quiet (h : Quiet s t) : Quiet s (startFirmware t) := .upd (.upd (.upd h))

theorem failSlot_quiet (h : Quiet s t) : Quiet s (failSlot a1 t) := .ite (readSlot_quiet (modBoot_quiet h)) (.upd
    (modBoot_quiet h))

theorem firmwareBoot_quiet (h : Quiet s t) : Quiet s (firmwareBoot t) := .ite (startFirmware_quiet h) (failSlot_quiet
    h)

theorem useEpochCfg_cfg (t : Timetable) : (useEpochCfg t).cfg = t.cfg := by
  unfold useEpochCfg
  dsimp only
  split <;> rfl

theorem applyEpochCfg_quiet (h : Quiet s t) : Quiet s (applyEpochCfg a1 t) := by
  unfold applyEpochCfg
  refine .upd h (hcfg := ?_)
  simp only [apply_ite Timetable.cfg, useEpochCfg_cfg, ite_self]

theorem modPlanSlot_quiet (h : Quiet s t) : Quiet s (modPlanSlot a1 a2 t) := .upd h

theorem modStream_quiet (h : Quiet s t) : Quiet s (modStream a1 a2 t) := .upd h

theorem modPStream_quiet (h : Quiet s t) : Quiet s (modPStream a1 a2 t) := .upd h

theorem writeStream_quiet (h : Quiet s t) : Quiet s (writeStream a1 a2 a3 t) := .upd (modStream_quiet h)

theorem clampTables_quiet (h : Quiet s t) : Quiet s (clampTables t) := .upd h

theorem applyE_quiet (h : Quiet s t) : Quiet s (applyE a1 t) := by
  unfold applyE
  split
  · exact applyEpochCfg_quiet h
  · exact .upd h
  · exact State.modStation_quiet h
  · exact State.modStation_quiet h
  · exact .upd h
  · exact .upd h
  · exact .upd h
  · exact modPlanSlot_quiet h
  · exact modPlanSlot_quiet h
  · exact .upd h
  · exact modPStream_quiet h
  · exact modPStream_quiet h
  · exact .upd h
  · exact .upd h
  · exact .upd h
  · exact writeStream_quiet h

theorem applyAll_quiet (h : Quiet s t) : Quiet s (applyAll a1 t) := clampTables_quiet (.upd (.forEach applyE_quiet h))

theorem activate_quiet (h : Quiet s t) : Quiet s (activate a1 t) := .ite h (.upd (.upd (applyAll_quiet h)))

theorem writeMasks_quiet (h : Quiet s t) : Quiet s (writeMasks t) := .upd h

theorem fetchChunk_quiet (h : Quiet s t) : Quiet s (fetchChunk a1 a2 a3 a4 a5 a6 t) := addJob_quiet h

theorem fetchChunks_quiet (h : Quiet s t) : Quiet s (fetchChunks a1 a2 a3 a4 a5 a6 t) := .forEach fetchChunk_quiet h

theorem modFrameWin_quiet (h : Quiet s t) : Quiet s (modFrameWin a1 a2 t) := .upd h

theorem modItem_quiet (h : Quiet s t) : Quiet s (modItem a1 a2 t) := .upd h

theorem dropItem_quiet (h : Quiet s t) : Quiet s (dropItem a1 t) := .ite (State.modTrack_quiet (.upd h)) (.upd h)

theorem withdrawSample_quiet (h : Quiet s t) : Quiet s (withdrawSample a1 a2 t) := State.unowe_quiet (modItem_quiet
    (State.modStat_quiet (.upd h)))

theorem withdrawAll_quiet (h : Quiet s t) : Quiet s (withdrawAll a1 t) := .forEach withdrawSample_quiet h

theorem frameWindowAt_quiet (h : Quiet s t) : Quiet s (frameWindowAt a1 a2 t) := by
  unfold frameWindowAt
  exact .forEach (fun h1 => by
      split
      · exact h1
      · exact .ite h1 (.upd h1)) (.upd h)

theorem addItem_quiet (h : Quiet s t) : Quiet s (addItem a1 a2 a3 t) := by
  unfold addItem
  split
  · exact h
  · exact .ite h (.ite (withdrawAll_quiet (State.modStat_quiet (.upd h))) (State.modStat_quiet (.upd h)))

theorem openWindow_quiet (h : Quiet s t) : Quiet s (openWindow a1 t) := by
  unfold openWindow
  dsimp only
  split
  · exact .ite (modFrameWin_quiet h) (.forEach addItem_quiet (modFrameWin_quiet h))
  · exact modFrameWin_quiet h

theorem verdictEvent_quiet (h : Quiet s t) : Quiet s (verdictEvent a1 a2 a3 a4 a5 a6 a7 a8 a9 t) := State.post_quiet h

theorem noteCommit_quiet (h : Quiet s t) : Quiet s (noteCommit a1 a2 a3 a4 a5 a6 a7 a8 a9 a10 t) :=
    verdictEvent_quiet (.ite (State.markLate_quiet (State.modStat_quiet (.ite (.upd (.upd h)) (.upd h))))
    (State.modStat_quiet (.ite (.upd (.upd h)) (.upd h))))

theorem noteDue_quiet (h : Quiet s t) : Quiet s (noteDue a1 a2 t) := State.modStat_quiet h

theorem noteSums_quiet (h : Quiet s t) : Quiet s (noteSums a1 a2 t) := by
  unfold noteSums
  split
  · exact .upd h
  · exact h

theorem noteClips_quiet (h : Quiet s t) : Quiet s (noteClips a1 a2 a3 t) := State.modTrack_quiet h

theorem noteCovered_quiet (h : Quiet s t) : Quiet s (noteCovered a1 a2 t) := .upd h

theorem commitSample_quiet (h : Quiet s t) : Quiet s (commitSample a1 a2 a3 a4 a5 t) := noteDue_quiet
    (State.emitVrd_quiet (modItem_quiet (.ite (noteCovered_quiet (noteSums_quiet (noteClips_quiet (noteCommit_quiet
    h)))) (noteSums_quiet (noteClips_quiet (noteCommit_quiet h))))))

theorem shortfall_quiet (h : Quiet s t) : Quiet s (shortfall a1 a2 a3 a4 a5 a6 t) := State.post_quiet (.upd h)

theorem tellCoverage_quiet (h : Quiet s t) : Quiet s (tellCoverage a1 a2 t) := by
  unfold tellCoverage
  split
  · exact h
  · exact .ite (.upd h) (shortfall_quiet (.upd h))

theorem sendSts_quiet (h : Quiet s t) : Quiet s (sendSts t) := .upd (.forEach State.emit_quiet h)

theorem settleCoverage_quiet (h : Quiet s t) : Quiet s (settleCoverage t) := sendSts_quiet (.forEach (fun h1 => .ite
    h1 (.upd (.forEach tellCoverage_quiet h1))) h)

theorem askChunks_quiet (h : Quiet s t) : Quiet s (askChunks a1 t) := fetchChunks_quiet (modItem_quiet h)

theorem fetchNext_quiet (h : Quiet s t) : Quiet s (fetchNext a1 t) := by
  unfold fetchNext
  split
  · exact h
  · exact .ite (askChunks_quiet h) h

theorem fetchReady_quiet (h : Quiet s t) : Quiet s (fetchReady a1 t) := .forEach fetchNext_quiet h

theorem leaveTrack_quiet (h : Quiet s t) : Quiet s (leaveTrack a1 t) := fetchReady_quiet (dropItem_quiet h)

theorem settleItem_quiet (h : Quiet s t) : Quiet s (settleItem a1 t) := by
  unfold settleItem
  split
  · exact .ite (settleCoverage_quiet (leaveTrack_quiet h)) h
  · exact h

theorem readyItem_quiet (h : Quiet s t) : Quiet s (readyItem a1 a2 t) := by
  unfold readyItem
  split
  · exact h
  · exact fetchReady_quiet (settleItem_quiet (.forEach (fun h1 => by
    split
    · exact State.emitVrd_quiet h1
    · exact .ite h1 (State.owe_quiet h1)) (noteDue_quiet (modItem_quiet h))))

theorem readyItems'_quiet (h : Quiet s t) : Quiet s (readyItems' a1 t) := .forEach readyItem_quiet h

theorem arriveIn_quiet (h : Quiet s t) : Quiet s (arriveIn a1 a2 a3 a4 a5 a6 a7 t) := readyItems'_quiet (.forEach
    (fun h1 => .forEach modItem_quiet h1) (modFrameWin_quiet h))

theorem checkerBeat_quiet (h : Quiet s t) : Quiet s (checkerBeat a1 a2 a3 a4 a5 a6 t) := by
  unfold checkerBeat
  exact .forEach (fun h1 => by
      split
      · exact arriveIn_quiet h1
      · exact h1) h

theorem tapIn_quiet (h : Quiet s t) : Quiet s (tapIn a1 a2 a3 a4 a5 a6 a7 t) := readyItems'_quiet (.forEach (fun h1
    => .ite (modItem_quiet (modItem_quiet h1)) (modItem_quiet h1)) (modFrameWin_quiet h))

theorem tapBeat_quiet (h : Quiet s t) : Quiet s (tapBeat a1 a2 a3 a4 a5 a6 t) := by
  unfold tapBeat
  exact .forEach (fun h1 => by
      split
      · exact tapIn_quiet h1
      · exact h1) h

theorem windowRecord_quiet (h : Quiet s t) : Quiet s (windowRecord a1 a2 a3 a4 a5 a6 t) := by
  unfold windowRecord
  split
  · exact h
  · exact State.emitVrd_quiet (noteDue_quiet (noteCommit_quiet (State.modStat_quiet h)))

theorem closeWindow_quiet (h : Quiet s t) : Quiet s (closeWindow a1 a2 t) := by
  unfold closeWindow
  exact settleCoverage_quiet (by
      split
      · exact .forEach windowRecord_quiet (.forEach windowRecord_quiet (.forEach (fun h1 => readyItem_quiet
          (modItem_quiet h1)) (modFrameWin_quiet h)))
      · exact .forEach (fun h1 => readyItem_quiet (modItem_quiet h1)) (modFrameWin_quiet h))

theorem actEcc_quiet (h : Quiet s t) : Quiet s (actEcc a1 a2 t) := by
  unfold actEcc
  split
  · exact h
  · exact State.raise_quiet (State.modTrack_quiet h)
  · exact State.raise_quiet (State.modTrack_quiet h)

theorem sampleSetCommit_quiet (h : Quiet s t) : Quiet s (sampleSetCommit a1 a2 t) := by
  unfold sampleSetCommit
  split
  · exact h
  · split
    · exact h
    · exact .ite h (settleItem_quiet (.ite (State.containing_quiet withdrawSample_quiet (noteClips_quiet
        (actEcc_quiet h))) (commitSample_quiet (actEcc_quiet h))))

theorem verdictDeadline_quiet (h : Quiet s t) : Quiet s (verdictDeadline t) := by
  unfold verdictDeadline
  split
  · exact h
  · exact settleCoverage_quiet (leaveTrack_quiet (.forEach commitSample_quiet h))

theorem prepareEpoch_quiet (h : Quiet s t) : Quiet s (prepareEpoch t) := .upd h

theorem conductorRead_quiet (h : Quiet s t) : Quiet s (conductorRead t) := .upd (State.draw_quiet h)

theorem modFrame_quiet (h : Quiet s t) : Quiet s (modFrame a1 a2 t) := .upd h

theorem sendPlt_quiet (h : Quiet s t) : Quiet s (sendPlt a1 a2 t) := modPStream_quiet (modFrame_quiet
    (State.emit_quiet h))

theorem pilotEvent_quiet (h : Quiet s t) : Quiet s (pilotEvent a1 a2 a3 a4 a5 a6 t) := State.post_quiet h

theorem skipFrame_quiet (h : Quiet s t) : Quiet s (skipFrame a1 a2 t) := pilotEvent_quiet (sendPlt_quiet (.upd h))

theorem admitFrame_quiet (h : Quiet s t) : Quiet s (admitFrame a1 a2 t) := by
  unfold admitFrame
  dsimp only
  split
  · exact skipFrame_quiet h
  · exact .ite (skipFrame_quiet h) (by
    split
    · exact skipFrame_quiet h
    · split
      · exact .upd (modFrame_quiet h)
      · exact .ite (skipFrame_quiet h) (skipFrame_quiet h))

theorem pruneFrames_quiet (h : Quiet s t) : Quiet s (pruneFrames t) := .upd h

theorem cutReady_quiet (h : Quiet s t) : Quiet s (cutReady a1 a2 t) := .upd h

theorem pilotBegin_quiet (h : Quiet s t) : Quiet s (pilotBegin a1 a2 a3 t) := .ite (cutReady_quiet (pruneFrames_quiet
    h)) (State.owe_quiet (.upd (cutReady_quiet (pruneFrames_quiet h))))

theorem decideFrame_quiet (h : Quiet s t) : Quiet s (decideFrame a1 t) := admitFrame_quiet (modFrame_quiet h)

theorem pilotSettle_quiet (h : Quiet s t) : Quiet s (pilotSettle t) := .forEach (fun h1 => .withSome
    decideFrame_quiet h1) h

theorem pilotBeat_quiet (h : Quiet s t) : Quiet s (pilotBeat a1 a2 a3 a4 a5 a6 t) := .upd h

theorem pilotReadyTime_quiet (h : Quiet s t) : Quiet s (pilotReadyTime a1 t) := by
  unfold pilotReadyTime
  split
  · exact h
  · exact .ite h (.ite (modFrame_quiet h) (skipFrame_quiet h))

theorem pilotFrameStart_quiet (h : Quiet s t) : Quiet s (pilotFrameStart a1 t) := by
  unfold pilotFrameStart
  split
  · exact h
  · split
    · exact h
    · exact .ite h (fetchChunks_quiet (State.modTrack_quiet (modFrame_quiet h)))

theorem noteFrameClips_quiet (h : Quiet s t) : Quiet s (noteFrameClips a1 a2 t) := by
  unfold noteFrameClips
  split
  · exact noteClips_quiet h
  · exact h

theorem judgeFrame_quiet (h : Quiet s t) : Quiet s (judgeFrame a1 a2 a3 t) := by
  unfold judgeFrame
  split
  · exact pilotEvent_quiet (sendPlt_quiet (.upd (.upd h)))
  · exact .ite (pilotEvent_quiet (sendPlt_quiet (modPStream_quiet (.upd h)))) (pilotEvent_quiet (.upd (sendPlt_quiet
      (modPStream_quiet (.upd h)))))

theorem pilotFrameJudge_quiet (h : Quiet s t) : Quiet s (pilotFrameJudge a1 t) := by
  unfold pilotFrameJudge
  split
  · exact h
  · split
    · exact h
    · exact .ite (judgeFrame_quiet h) (.ite (judgeFrame_quiet h) h)

theorem releasePilot_quiet (h : Quiet s t) : Quiet s (releasePilot a1 t) := by
  unfold releasePilot
  split
  · exact State.modTrack_quiet h
  · exact h

theorem pilotOverrun_quiet (h : Quiet s t) : Quiet s (pilotOverrun a1 t) := by
  unfold pilotOverrun
  split
  · exact h
  · exact skipFrame_quiet (State.raise_quiet (.upd (releasePilot_quiet h)))

theorem readmitFrames_quiet (h : Quiet s t) : Quiet s (readmitFrames a1 t) := by
  unfold readmitFrames
  dsimp only
  exact .forEach (fun h1 => by
      split
      · exact admitFrame_quiet (modFrame_quiet h1)
      · exact modFrame_quiet h1) (.forEach skipFrame_quiet h)

theorem loseSample_quiet (h : Quiet s t) : Quiet s (loseSample a1 a2 a3 t) := modItem_quiet (noteCommit_quiet h)

theorem moveGathering_quiet (h : Quiet s t) : Quiet s (moveGathering a1 a2 t) := modItem_quiet (.forEach
    loseSample_quiet h)

theorem abandonItem_quiet (h : Quiet s t) : Quiet s (abandonItem a1 a2 t) := dropItem_quiet (.forEach
    commitSample_quiet h)

theorem moveReserve_quiet (h : Quiet s t) : Quiet s (moveReserve a1 a2 t) := .upd h

theorem loseTrackItems_quiet (h : Quiet s t) : Quiet s (loseTrackItems a1 t) := .upd (.forEach (fun h1 => .ite
    (moveGathering_quiet h1) (abandonItem_quiet h1)) (moveReserve_quiet h))

theorem removeTrack_quiet (h : Quiet s t) : Quiet s (removeTrack a1 a2 t) := settleCoverage_quiet
    (State.modTrack_quiet (readmitFrames_quiet (loseTrackItems_quiet (State.modTrack_quiet h))))

theorem withdrawTrack_quiet (h : Quiet s t) : Quiet s (withdrawTrack a1 a2 t) := State.containing_quiet
    removeTrack_quiet (State.raise_quiet h)

theorem governorRefill_quiet (h : Quiet s t) : Quiet s (governorRefill t) := .ite (.upd h) h

theorem makeRoom_quiet (h : Quiet s t) : Quiet s (makeRoom a1 a2 t) := .upd h

theorem startItem_quiet (h : Quiet s t) : Quiet s (startItem a1 a2 t) := .ite (modItem_quiet (State.modTrack_quiet
    h)) (modItem_quiet (.ite (State.modTrack_quiet h) (askChunks_quiet (makeRoom_quiet (State.modTrack_quiet h)))))

theorem workItemStart_quiet (h : Quiet s t) : Quiet s (workItemStart a1 t) := by
  unfold workItemStart
  exact .ite h (by
      split
      · exact startItem_quiet h
      · exact h)

theorem gotChunk_quiet (h : Quiet s t) : Quiet s (gotChunk a1 a2 a3 a4 t) := .ite (modFrame_quiet h) (modItem_quiet h)

theorem chunkBarred_quiet (h : Quiet s t) : Quiet s (chunkBarred a1 a2 t) := .ite (.withSome (fun h1 =>
    skipFrame_quiet (releasePilot_quiet h1)) h) (.withSome (fun h1 => settleItem_quiet (withdrawAll_quiet h1)) h)

theorem chunkRead_quiet (h : Quiet s t) : Quiet s (chunkRead a1 a2 a3 a4 a5 a6 t) := .ite h (.ite (chunkBarred_quiet
    h) (.ite (gotChunk_quiet h) (.ite (gotChunk_quiet h) (addJob_quiet h))))

theorem discardChunk_quiet (h : Quiet s t) : Quiet s (discardChunk a1 a2 a3 t) := State.raise_quiet
    (State.modTrack_quiet h)

theorem withdrawLayer_quiet (h : Quiet s t) : Quiet s (withdrawLayer a1 a2 t) := State.containing_quiet (fun h1 =>
    .forEach (fun h2 => settleItem_quiet (withdrawAll_quiet h2)) h1) (.upd h)

theorem wstCorrected_quiet (h : Quiet s t) : Quiet s (wstCorrected a1 t) := State.raise_quiet (State.modTrack_quiet h)

theorem wstUncorrectable_quiet (h : Quiet s t) : Quiet s (wstUncorrectable a1 a2 t) := State.modTrack_quiet h

theorem noteChunk_quiet (h : Quiet s t) : Quiet s (noteChunk a1 a2 a3 a4 a5 t) := by
  unfold noteChunk
  dsimp only
  split
  · exact State.modTrack_quiet (by
    split
    · exact h
    · exact wstCorrected_quiet h
    · exact wstUncorrectable_quiet h)
  · exact wstCorrected_quiet (State.modTrack_quiet (by
    split
    · exact h
    · exact wstCorrected_quiet h
    · exact wstUncorrectable_quiet h))
  · exact discardChunk_quiet (State.modTrack_quiet (by
    split
    · exact h
    · exact wstCorrected_quiet h
    · exact wstUncorrectable_quiet h))

theorem itemChunk_quiet (h : Quiet s t) : Quiet s (itemChunk a1 a2 a3 a4 a5 t) := by
  unfold itemChunk
  dsimp only
  split
  · exact modItem_quiet (modItem_quiet (noteChunk_quiet h))
  · exact fetchChunk_quiet (modItem_quiet (noteChunk_quiet h))
  · exact withdrawLayer_quiet (modItem_quiet (noteChunk_quiet h))

theorem frameChunk_quiet (h : Quiet s t) : Quiet s (frameChunk a1 a2 a3 a4 a5 a6 t) := by
  unfold frameChunk
  dsimp only
  split
  · exact modFrame_quiet (modFrame_quiet (noteChunk_quiet h))
  · exact fetchChunk_quiet (modFrame_quiet (noteChunk_quiet h))
  · exact skipFrame_quiet (releasePilot_quiet (modFrame_quiet (noteChunk_quiet h)))

theorem nextFrameChunk_quiet (h : Quiet s t) : Quiet s (nextFrameChunk a1 a2 t) := by
  unfold nextFrameChunk
  split
  · split
    · exact frameChunk_quiet h
    · exact h
  · exact h

theorem chunkDecrypt_quiet (h : Quiet s t) : Quiet s (chunkDecrypt a1 a2 t) := by
  unfold chunkDecrypt
  split
  · split
    · exact itemChunk_quiet h
    · exact h
  · exact nextFrameChunk_quiet h

theorem passFailed_quiet (h : Quiet s t) : Quiet s (passFailed a1 a2 a3 a4 t) := .ite (withdrawTrack_quiet h) (.ite
    (withdrawTrack_quiet h) (State.modTrack_quiet h))

theorem passAgreed_quiet (h : Quiet s t) : Quiet s (passAgreed a1 a2 t) := .ite (State.raise_quiet
    (State.modTrack_quiet h)) h

theorem spend_quiet (h : Quiet s t) : Quiet s (spend a1 a2 t).1 := State.modTrack_quiet h

theorem passDone_quiet (h : Quiet s t) : Quiet s (passDone a1 a2 a3 a4 t) := by
  unfold passDone
  split
  · exact .ite (settleItem_quiet (State.containing_quiet withdrawSample_quiet (noteClips_quiet (modItem_quiet
      (actEcc_quiet (State.modTrack_quiet (passAgreed_quiet h))))))) (modItem_quiet (actEcc_quiet
      (State.modTrack_quiet (passAgreed_quiet h))))
  · exact modItem_quiet (actEcc_quiet (State.modTrack_quiet (passAgreed_quiet h)))

theorem itemPass_quiet (h : Quiet s t) : Quiet s (itemPass a1 a2 a3 t) := .ite h (.ite (spend_quiet h) (.ite
    (passFailed_quiet (spend_quiet h)) (passDone_quiet (spend_quiet h))))

theorem frameSteps_quiet (h : Quiet s t) : Quiet s (frameSteps a1 a2 a3 t) := .ite (releasePilot_quiet
    (modFrame_quiet (noteFrameClips_quiet (modFrame_quiet (State.modTrack_quiet (passAgreed_quiet h))))))
    (modFrame_quiet (State.modTrack_quiet (passAgreed_quiet h)))

theorem frameFailed_quiet (h : Quiet s t) : Quiet s (frameFailed a1 a2 t) := passFailed_quiet (State.modTrack_quiet h)

theorem framePass_quiet (h : Quiet s t) : Quiet s (framePass a1 a2 a3 t) := .ite h (.ite h (.ite (frameFailed_quiet
    h) (.ite (skipFrame_quiet (releasePilot_quiet (actEcc_quiet h))) (frameSteps_quiet (actEcc_quiet h)))))

theorem trackPass_quiet (h : Quiet s t) : Quiet s (trackPass a1 a2 t) := by
  unfold trackPass
  exact .ite h (by
      split
      · exact itemPass_quiet h
      · exact .withSome framePass_quiet h)

theorem knownAnswer_quiet (h : Quiet s t) : Quiet s (knownAnswer a1 a2 t) := .ite h (.ite (State.modTrack_quiet h)
    (.ite (State.modTrack_quiet (State.modTrack_quiet h)) (withdrawTrack_quiet (State.modTrack_quiet h))))

theorem sequencerWatchdog_quiet (h : Quiet s t) : Quiet s (sequencerWatchdog a1 t) := .ite (withdrawTrack_quiet h) h

theorem loadFailed_quiet (h : Quiet s t) : Quiet s (loadFailed a1 a2 a3 t) := State.finish_quiet h

theorem accessFailed_quiet (h : Quiet s t) : Quiet s (accessFailed a1 a2 a3 t) := .ite (State.finish_quiet h)
    (loadFailed_quiet h)

theorem beginLong_quiet (h : Quiet s t) : Quiet s (beginLong a1 t) := .ite h (State.startLong_quiet h)

theorem forgetPlan_quiet (h : Quiet s t) : Quiet s (forgetPlan a1 t) := .upd h

theorem freePlan_quiet (h : Quiet s t) : Quiet s (freePlan a1 t) := forgetPlan_quiet (modPlanSlot_quiet h)

theorem planLoadNow_quiet (h : Quiet s t) : Quiet s (planLoadNow a1 a2 a3 t) := .ite (State.answer_quiet
    (freePlan_quiet h)) (addJob_quiet (beginLong_quiet (modPlanSlot_quiet h)))

theorem planLoad_quiet (h : Quiet s t) : Quiet s (planLoad a1 a2 t) := by
  unfold planLoad
  dsimp only
  split
  · exact State.complete_quiet h
  · exact .ite (State.complete_quiet h) (.ite (defer_quiet h) (planLoadNow_quiet (dropHeld_quiet h)))

theorem planRead_quiet (h : Quiet s t) : Quiet s (planRead a1 a2 a3 t) := by
  unfold planRead
  exact .ite (State.finish_quiet h) (by
      split
      · exact .ite (State.finish_quiet (modPlanSlot_quiet (forgetPlan_quiet h))) (State.finish_quiet h)
      · exact loadFailed_quiet h)

theorem planJobEnd_quiet (h : Quiet s t) : Quiet s (planJobEnd a1 a2 a3 a4 t) := .ite (accessFailed_quiet
    (modPlanSlot_quiet h)) (.ite (planRead_quiet (modPlanSlot_quiet h)) (.ite (loadFailed_quiet (modPlanSlot_quiet
    h)) (.ite (State.finish_quiet (modPlanSlot_quiet h)) (addJob_quiet h))))

theorem planArm_quiet (h : Quiet s t) : Quiet s (planArm a1 a2 t) := by
  unfold planArm
  dsimp only
  split
  · exact State.complete_quiet h
  · exact .ite (State.complete_quiet h) (.ite (State.complete_quiet h) (State.complete_quiet (State.pendE_quiet h)))

theorem planDisarm_quiet (h : Quiet s t) : Quiet s (planDisarm a1 a2 t) := .ite (State.complete_quiet h) (.ite
    (State.complete_quiet h) (State.complete_quiet (State.pendE_quiet h)))

theorem coverSet_quiet (h : Quiet s t) : Quiet s (coverSet a1 a2 t) := State.complete_quiet (State.pendE_quiet h)

theorem modModel_quiet (h : Quiet s t) : Quiet s (modModel a1 a2 t) := .upd h

theorem setModel_quiet (h : Quiet s t) : Quiet s (setModel a1 a2 a3 t) := clampTables_quiet (modModel_quiet h)

theorem freeModel_quiet (h : Quiet s t) : Quiet s (freeModel a1 t) := setModel_quiet h

theorem pltLoadNow_quiet (h : Quiet s t) : Quiet s (pltLoadNow a1 a2 a3 t) := .ite (State.answer_quiet
    (freeModel_quiet h)) (addJob_quiet (beginLong_quiet (modModel_quiet h)))

theorem pltLoad_quiet (h : Quiet s t) : Quiet s (pltLoad a1 a2 t) := .ite (State.complete_quiet h) (.ite (defer_quiet
    h) (pltLoadNow_quiet (dropHeld_quiet h)))

theorem modelRead_quiet (h : Quiet s t) : Quiet s (modelRead a1 a2 a3 t) := by
  unfold modelRead
  exact .ite (State.finish_quiet h) (by
      split
      · exact loadFailed_quiet h
      · split
        · exact State.finish_quiet (setModel_quiet h)
        · exact loadFailed_quiet h)

theorem modelJobEnd_quiet (h : Quiet s t) : Quiet s (modelJobEnd a1 a2 a3 a4 t) := .ite (accessFailed_quiet
    (modModel_quiet h)) (.ite (modelRead_quiet (modModel_quiet h)) (.ite (State.finish_quiet (modModel_quiet h))
    (addJob_quiet h)))

theorem pltZones_quiet (h : Quiet s t) : Quiet s (pltZones a1 a2 t) := .ite (State.complete_quiet h) (addJob_quiet
    (State.startLong_quiet h))

theorem zonesJobEnd_quiet (h : Quiet s t) : Quiet s (zonesJobEnd a1 a2 a3 t) := by
  unfold zonesJobEnd
  exact .ite (accessFailed_quiet h) (.ite (addJob_quiet h) (by
      split
      · exact .ite (State.finish_quiet h) (State.finish_quiet (State.pendE_quiet h))
      · exact loadFailed_quiet h))

theorem pltArm_quiet (h : Quiet s t) : Quiet s (pltArm a1 a2 t) := .ite (State.complete_quiet h) (.ite
    (State.complete_quiet h) (State.complete_quiet (.ite (State.pendE_quiet (State.pendE_quiet h)) (State.pendE_quiet
    h))))

theorem modMeas_quiet (h : Quiet s t) : Quiet s (modMeas a1 a2 a3 t) := .upd h

theorem lateBeat_quiet (h : Quiet s t) : Quiet s (lateBeat a1 a2 a3 a4 t) := State.raise_quiet (.upd h)

theorem wbrBeat_quiet (h : Quiet s t) : Quiet s (wbrBeat a1 a2 a3 a4 a5 a6 t) := by
  unfold wbrBeat
  dsimp only
  split
  · exact h
  · exact .ite (lateBeat_quiet h) (by
    split <;> exact modMeas_quiet h)

theorem alarmEvent_quiet (h : Quiet s t) : Quiet s (alarmEvent a1 a2 a3 a4 a5 a6 t) := .ite h (State.post_quiet (.upd
    h))

theorem setAlarms_quiet (h : Quiet s t) : Quiet s (setAlarms a1 a2 a3 a4 a5 t) := .upd h

theorem closeEntry_quiet (h : Quiet s t) : Quiet s (closeEntry a1 a2 t) := .ite (setAlarms_quiet h) (.ite
    (setAlarms_quiet h) (.ite (alarmEvent_quiet (.ite (alarmEvent_quiet (.upd (setAlarms_quiet h))) (.upd
    (setAlarms_quiet h)))) (.ite (alarmEvent_quiet (.upd (setAlarms_quiet h))) (.upd (setAlarms_quiet h)))))

theorem statisticsClose_quiet (h : Quiet s t) : Quiet s (statisticsClose t) := by
  unfold statisticsClose
  split
  · exact h
  · exact .ite h (sendSts_quiet (.upd (.forEach closeEntry_quiet h)))

theorem weighBoundary_quiet (h : Quiet s t) : Quiet s (weighBoundary a1 a2 a3 t) := .forEach State.owe_quiet (.upd h)

theorem wbrConfig_quiet (h : Quiet s t) : Quiet s (wbrConfig a1 a2 t) := by
  unfold wbrConfig
  dsimp only
  split
  · exact State.complete_quiet h
  · exact .ite (State.complete_quiet h) (.ite (State.complete_quiet h) (.ite (State.complete_quiet h)
      (State.complete_quiet (State.pendE_quiet (State.pendE_quiet h)))))

theorem closePayload_quiet (h : Quiet s t) : Quiet s (closePayload a1 t) := by
  unfold closePayload
  split
  · exact h
  · exact .ite (State.pushItem_quiet (.upd h)) (noteDiscarded_quiet (.upd h))

theorem joinPayload_quiet (h : Quiet s t) : Quiet s (joinPayload a1 a2 a3 a4 t) := .upd h

theorem exportCopy_quiet (h : Quiet s t) : Quiet s (exportCopy a1 a2 a3 t) := .ite h (.ite (closePayload_quiet
    (joinPayload_quiet (.ite (closePayload_quiet h) h))) (joinPayload_quiet (.ite (closePayload_quiet h) h)))

theorem countRecord_quiet (h : Quiet s t) : Quiet s (countRecord a1 a2 t) := .upd h

theorem feedSiding_quiet (h : Quiet s t) : Quiet s (feedSiding a1 a2 a3 t) := State.modSiding_quiet
    (State.pushItem_quiet h)

theorem deliverCopy_quiet (h : Quiet s t) : Quiet s (deliverCopy a1 a2 a3 t) := countRecord_quiet (exportCopy_quiet
    (.withSome feedSiding_quiet h))

theorem checkedRec_quiet (h : Quiet s t) : Quiet s (checkedRec a1 a2 t).2 := by
  unfold checkedRec
  split
  · exact h
  · exact State.raise_quiet h
  · exact State.raise_quiet h

theorem recordDeliver_quiet (h : Quiet s t) : Quiet s (recordDeliver a1 t) := by
  unfold recordDeliver
  split
  · exact h
  · exact .ite (.forEach deliverCopy_quiet (checkedRec_quiet (.upd h))) h

theorem routeBeat_quiet (h : Quiet s t) : Quiet s (routeBeat a1 a2 a3 a4 a5 a6 a7 a8 a9 a10 t) := .ite
    (pilotBeat_quiet (.ite (wbrBeat_quiet (.ite (checkerBeat_quiet h) h)) (.ite (checkerBeat_quiet h) h))) (.ite
    (wbrBeat_quiet (.ite (checkerBeat_quiet h) h)) (.ite (checkerBeat_quiet h) h))

theorem routeItem_quiet (h : Quiet s t) : Quiet s (routeItem a1 a2 t) := by
  unfold routeItem
  split
  · exact routeBeat_quiet h
  · exact tapBeat_quiet h
  · exact .forEach (fun h1 => .ite (tapBeat_quiet h1) (routeBeat_quiet h1)) h

theorem captureEcc_quiet (h : Quiet s t) : Quiet s (captureEcc a1 a2 t) := by
  unfold captureEcc
  split
  · exact h
  · exact State.raise_quiet (State.modStation_quiet (State.draw_quiet h))
  · exact State.raise_quiet (State.modStation_quiet (State.draw_quiet h))

theorem operandDeliver_quiet (h : Quiet s t) : Quiet s (operandDeliver a1 a2 t) := by
  unfold operandDeliver
  split
  · exact h
  · exact .ite (routeItem_quiet (captureEcc_quiet (State.modStation_quiet h))) h

theorem writeRing_quiet (h : Quiet s t) : Quiet s (writeRing a1 a2 a3 t) := addJob_quiet (State.modSiding_quiet h)

theorem drainItem_quiet (h : Quiet s t) : Quiet s (drainItem a1 a2 t) := .ite (.ite (writeRing_quiet h) h) (.ite
    (writeRing_quiet (State.modSdg_quiet (State.modSiding_quiet (takeItem_quiet h)))) h)

theorem faultSiding_quiet (h : Quiet s t) : Quiet s (faultSiding a1 a2 t) := State.raise_quiet (State.modSdg_quiet h)

theorem drainJobEnd_quiet (h : Quiet s t) : Quiet s (drainJobEnd a1 a2 t) := .ite (State.modSdg_quiet h) (.ite
    (State.modSiding_quiet h) (faultSiding_quiet h))

theorem announce_quiet (h : Quiet s t) : Quiet s (announce a1 a2 t) := prepareEpoch_quiet (.upd (.ite
    (State.emit_quiet h) h))

theorem measure_cfg (kind : EdgeKind) (stamp : Nat) (t : Timetable) : (measure kind stamp t).cfg = t.cfg := by
  cases kind <;> rfl

theorem countEdge_quiet (h : Quiet s t) : Quiet s (countEdge a1 a2 t) := by
  unfold countEdge
  extract_lets t1 t2 s1 s2
  have h1 : Quiet s s1 := .upd h (hcfg := measure_cfg ..)
  have h2 : Quiet s s2 := .ite (State.raise_quiet h1) h1
  exact .ite (announce_quiet h2) h2

theorem realMasterEdge_quiet (h : Quiet s t) : Quiet s (realMasterEdge a1 t) := .ite (.upd h) (countEdge_quiet h)

theorem streamFrameStart_quiet (h : Quiet s t) : Quiet s (streamFrameStart a1 a2 a3 t) := pilotBegin_quiet
    (frameWindowAt_quiet h)

theorem numberFrame_cfg (i stamp : Nat) (t : Timetable) : (numberFrame i stamp t).cfg = t.cfg := by
  unfold numberFrame
  split <;> rfl

theorem fsyncEdge_quiet (h : Quiet s t) : Quiet s (fsyncEdge a1 t) := by
  unfold fsyncEdge
  extract_lets number starts s1 s2
  have h1 : Quiet s s1 := .upd h (hcfg := numberFrame_cfg ..)
  have h2 : Quiet s s2 := .ite (streamFrameStart_quiet h1) h1
  exact .ite (realMasterEdge_quiet h2) h2

theorem formSession_quiet (h : Quiet s t) : Quiet s (formSession a1 a2 a3 a4 t) := addJob_quiet
    (State.modSession_quiet h)

theorem serveOpens_quiet (h : Quiet s t) : Quiet s (serveOpens a1 t) := by
  induction a1 generalizing t with
  | nil => exact h
  | cons x r ih =>
    unfold serveOpens
    dsimp only
    refine .ite (ih (State.finish_quiet (State.modSession_quiet (.upd h)))) (.ite h ?_)
    split
    · exact h
    · exact ih (formSession_quiet (.upd h))

theorem beginSession_quiet (h : Quiet s t) : Quiet s (beginSession a1 a2 a3 t) := serveOpens_quiet (.upd
    (State.modSession_quiet (State.startLong_quiet h)))

theorem sessionOpen_quiet (h : Quiet s t) : Quiet s (sessionOpen a1 a2 t) := by
  unfold sessionOpen
  exact .ite (State.complete_quiet h) (.ite (State.complete_quiet h) (by
      split
      · exact State.complete_quiet h
      · exact .ite (State.complete_quiet h) (.ite (State.complete_quiet h) (beginSession_quiet h))))

theorem joinStreams_quiet (h : Quiet s t) : Quiet s (joinStreams a1 t) := .forEach State.pendE_quiet h

theorem sessionJobEnd_quiet (h : Quiet s t) : Quiet s (sessionJobEnd a1 a2 t) := .ite (State.finish_quiet h) (.ite
    (State.finish_quiet (joinStreams_quiet (State.modSiding_quiet (State.modSession_quiet h)))) (accessFailed_quiet
    (State.modSession_quiet h)))

theorem sessionClose_quiet (h : Quiet s t) : Quiet s (sessionClose a1 a2 t) := .ite (State.complete_quiet h)
    (State.modSession_quiet (.forEach closePayload_quiet (clearExport_quiet (State.startLong_quiet h))))

theorem putFrame_quiet (h : Quiet s t) : Quiet s (putFrame a1 a2 t) := .upd h

theorem emptyFrame_quiet (h : Quiet s t) : Quiet s (emptyFrame a1 a2 t) := putFrame_quiet (State.modSession_quiet h)

theorem payloadFrame_quiet (h : Quiet s t) : Quiet s (payloadFrame a1 a2 a3 t) := putFrame_quiet (.upd
    (State.modSession_quiet (State.modSdg_quiet (takeItem_quiet h))))

theorem frameStart_quiet (h : Quiet s t) : Quiet s (frameStart a1 a2 t) := by
  unfold frameStart
  exact .ite h (by
      split
      · exact h
      · exact .ite (endSession_quiet h) (.ite (emptyFrame_quiet h) (payloadFrame_quiet h)))

theorem modLane_quiet (h : Quiet s t) : Quiet s (modLane a1 a2 t) := .upd h

theorem clockSeen_quiet (h : Quiet s t) : Quiet s (clockSeen t) := .upd h

theorem beatAccept_quiet (h : Quiet s t) : Quiet s (beatAccept a1 t) := by
  unfold beatAccept
  dsimp only
  split
  · exact .ite (clockSeen_quiet (modLane_quiet h)) h
  · exact h

theorem sessionClosed_quiet (h : Quiet s t) : Quiet s (sessionClosed a1 t) := by
  unfold sessionClosed
  dsimp only
  split
  · exact State.finish_quiet (State.modSession_quiet (State.modSiding_quiet h))
  · exact h

theorem eofAccept_quiet (h : Quiet s t) : Quiet s (eofAccept a1 t) := by
  unfold eofAccept
  dsimp only
  split
  · exact .ite (.ite (sessionClosed_quiet (.ite (settleFlight_quiet (clockSeen_quiet (modLane_quiet h)))
      (clockSeen_quiet (modLane_quiet h)))) (.ite (settleFlight_quiet (clockSeen_quiet (modLane_quiet h)))
      (clockSeen_quiet (modLane_quiet h)))) h
  · exact h

theorem abortAccept_quiet (h : Quiet s t) : Quiet s (abortAccept a1 t) := .ite (clockSeen_quiet (modLane_quiet h)) h

theorem clockEnd_quiet (h : Quiet s t) : Quiet s (clockEnd a1 t) := endSession_quiet (.upd h)

theorem modMeter_quiet {f : Meter → Meter} (h : Quiet s t)
    (hf : ∀ m, (f m).map = m.map ∧ (f m).state = m.state ∧ (f m).ready = m.ready ∧ (f m).inReset = m.inReset := by
      intro m
      exact ⟨rfl, rfl, rfl, rfl⟩) : Quiet s (modMeter f t) :=
  h.upd (hmeter := hf t.mtr)

/-- The meter takes a state that is not open. -/
theorem modMeter_closed_quiet {f : Meter → Meter} (hf : ∀ m, (f m).map = m.map ∧ (f m).state ≠ 1) (h : Quiet s t) :
    Quiet s (modMeter f t) := by
  obtain ⟨hmap, hstate⟩ := hf t.mtr
  exact h.trans ⟨⟨rfl, rfl, id⟩, fun _ => ⟨by simp [meterOpen, modMeter, hstate], hmap, rfl⟩, rfl, rfl, rfl⟩

theorem meterRaise_quiet (h : Quiet s t) : Quiet s (meterRaise a1 a2 a3 t) := .ite (State.raise_quiet h)
    (modMeter_quiet h)

theorem deliverMeter_quiet (h : Quiet s t) : Quiet s (deliverMeter t) := .ite (.upd h) h

theorem audit_quiet (h : Quiet s t) : Quiet s (audit a1 a2 t) := .ite (modMeter_quiet h) (meterRaise_quiet
    (modMeter_quiet h))

/-- A merged refusal changes the trail alone. -/
theorem mergeRefusal_eq {src : Nat} {m m' : Meter} (e : mergeRefusal src m = some m') :
    m' = { m with audit := m'.audit, chain := m'.chain } := by
  unfold mergeRefusal at e
  split at e
  · split at e
    · obtain rfl := Option.some.inj e
      rfl
    · contradiction
  · contradiction

theorem refuseWrite_quiet (h : Quiet s t) : Quiet s (refuseWrite a1 t) := by
  unfold refuseWrite
  refine meterRaise_quiet ?_
  split
  · next merged =>
    have only := mergeRefusal_eq merged
    refine .upd h (hmeter := ?_)
    rw [only]
    exact ⟨rfl, rfl, rfl, rfl⟩
  · exact audit_quiet h

theorem sealWith_quiet (h : Quiet s t) : Quiet s (sealWith a1 t) := by
  unfold sealWith
  exact modMeter_closed_quiet (fun _ => ⟨rfl, by simp⟩)
    (audit_quiet (modMeter_quiet h))

theorem serveMeter_quiet (h : Quiet s t) : Quiet s (serveMeter t) := .ite (sealWith_quiet (.upd h)) h

theorem tryClosing_quiet (h : Quiet s t) : Quiet s (tryClosing t) := .ite (serveMeter_quiet (modMeter_quiet h)) (.ite
    (modMeter_quiet h) (meterRaise_quiet (modMeter_quiet (modMeter_quiet h))))

theorem closeSeal_quiet (h : Quiet s t) : Quiet s (closeSeal t) := by
  unfold closeSeal
  exact .ite (tryClosing_quiet (modMeter_closed_quiet (fun _ => ⟨rfl, by simp⟩) h)) h

theorem sealClosed_quiet (h : Quiet s t) : Quiet s (sealClosed t) := .ite (.ite (closeSeal_quiet (modMeter_quiet h))
    (modMeter_quiet h)) h

theorem applyMap_quiet (isOpen : meterOpen t = true) (h : Quiet s t) : Quiet s (applyMap a1 a2 t) := by
  unfold applyMap
  exact .ite h (h.configure isOpen (audit_quiet (.refl _)))

theorem applyTtbCfg_quiet (isOpen : meterOpen t = true) (h : Quiet s t) : Quiet s (applyTtbCfg a1 t) := by
  unfold applyTtbCfg
  exact .ite h (h.configure isOpen (audit_quiet (.refl _)))

theorem mtrMap_quiet (h : Quiet s t) : Quiet s (mtrMap a1 a2 t) := by
  unfold mtrMap
  split
  · next isOpen => exact State.complete_quiet (applyMap_quiet isOpen h)
  · exact State.complete_quiet (refuseWrite_quiet h)

theorem ttbSet_quiet (h : Quiet s t) : Quiet s (ttbSet a1 a2 t) := by
  unfold ttbSet
  split
  · next isOpen => exact State.complete_quiet (applyTtbCfg_quiet isOpen h)
  · exact State.complete_quiet (refuseWrite_quiet h)

theorem meterWrite_quiet (hact : ∀ {x}, meterOpen x = true → Quiet s x → Quiet s (act x)) (h : Quiet s t) :
    Quiet s (meterWrite a1 act t) := by
  unfold meterWrite
  refine .ite ?_ h
  split
  · next isOpen => exact hact isOpen h
  · exact refuseWrite_quiet h

theorem emptyStore_quiet (h : Quiet s t) : Quiet s (emptyStore t) := modMeter_quiet h

theorem verifyStore_quiet (h : Quiet s t) : Quiet s (verifyStore t) := .ite h (.ite (audit_quiet (modMeter_quiet h))
    (meterRaise_quiet (modMeter_quiet h)))

theorem appendStore_quiet (h : Quiet s t) : Quiet s (appendStore a1 t) := verifyStore_quiet (modMeter_quiet h)

theorem loseTally_quiet (h : Quiet s t) : Quiet s (loseTally a1 t) := .ite h (meterRaise_quiet (modMeter_quiet h))

theorem tallyEcc_quiet (h : Quiet s t) : Quiet s (tallyEcc a1 a2 t) := by
  unfold tallyEcc
  split
  · exact h
  · exact meterRaise_quiet h
  · exact loseTally_quiet (meterRaise_quiet (modMeter_quiet (State.draw_quiet h)))

theorem auditEcc_quiet (h : Quiet s t) : Quiet s (auditEcc a1 a2 t).1 := by
  unfold auditEcc
  split
  · exact h
  · exact meterRaise_quiet h
  · exact meterRaise_quiet (State.draw_quiet h)

theorem tallyDelta_quiet (h : Quiet s t) : Quiet s (tallyDelta a1 a2 t) := by
  unfold tallyDelta
  extract_lets x1 x2 s1 s2 s3
  have h1' : Quiet s s1 := modMeter_quiet h
  have h2' : Quiet s s2 := .ite (modMeter_quiet h1') h1'
  have h3' : Quiet s s3 := loseTally_quiet h2'
  exact .ite (.ite (modMeter_quiet h3') h3') h2'

theorem tapDelta_quiet (h : Quiet s t) : Quiet s (tapDelta a1 a2 t) := by
  unfold tapDelta
  split
  · exact h
  · exact .ite (modMeter_quiet (.ite (.upd (State.modStation_quiet h)) (State.modStation_quiet h))) (.forEach
      tallyDelta_quiet (.withSome tallyEcc_quiet (.ite (.upd (State.modStation_quiet h)) (State.modStation_quiet h))))

theorem latchTallies_quiet (h : Quiet s t) : Quiet s (latchTallies a1 a2 t) := modMeter_quiet h

theorem meterBoundary_quiet (h : Quiet s t) : Quiet s (meterBoundary a1 a2 t) := by
  unfold meterBoundary
  exact modMeter_quiet (by
      split
      · exact latchTallies_quiet h
      · exact h)

theorem mtrRead_quiet (h : Quiet s t) : Quiet s (mtrRead a1 a2 a3 t) := State.complete_quiet (tallyEcc_quiet h)

theorem evidenceEcc_quiet (h : Quiet s t) : Quiet s (evidenceEcc a1 a2 t) := .ite (modMeter_quiet (tallyEcc_quiet h))
    (tallyEcc_quiet h)

theorem mtrEvidence_quiet (h : Quiet s t) : Quiet s (mtrEvidence a1 a2 a3 t) := by
  unfold mtrEvidence
  exact .ite (State.complete_quiet h) (by
      split
      · exact State.complete_quiet h
      · exact .ite (State.complete_quiet h) (addJob_quiet (modMeter_quiet (evidenceEcc_quiet (State.startLong_quiet
          h)))))

theorem evidenceJobEnd_quiet (h : Quiet s t) : Quiet s (evidenceJobEnd a1 a2 a3 a4 t) := .ite (State.finish_quiet h)
    (State.finish_quiet h)

theorem readyPacket_quiet (h : Quiet s t) : Quiet s (readyPacket a1 a2 t) := State.modWin_quiet h

theorem firstWord_quiet (h : Quiet s t) : Quiet s (firstWord a1 a2 t) := .ite (.ite (readyPacket_quiet h)
    (State.modWin_quiet h)) (State.completeFree_quiet (State.modWin_quiet h))

theorem furtherWord_quiet (h : Quiet s t) : Quiet s (furtherWord a1 a2 a3 t) := .ite (State.modWin_quiet h) (.ite
    (State.modWin_quiet h) (readyPacket_quiet h))

theorem windowWrite_quiet (h : Quiet s t) : Quiet s (windowWrite a1 a2 t) := by
  unfold windowWrite
  exact .ite (by
      split
      · exact firstWord_quiet h
      · exact furtherWord_quiet h) h

theorem modDetach_quiet (h : Quiet s t) : Quiet s (modDetach a1 a2 t) := .upd h

theorem setCtxOwner_quiet (h : Quiet s t) : Quiet s (setCtxOwner a1 a2 t) := .upd h

theorem clearLatch_quiet (h : Quiet s t) : Quiet s (clearLatch a1 t) := .upd h

theorem createPart_quiet (h : Quiet s t) : Quiet s (createPart a1 a2 a3 t) := State.modWin_quiet (State.modPart_quiet
    (.upd (clearLatch_quiet (setCtxOwner_quiet h))))

theorem setUserRead_quiet (h : Quiet s t) : Quiet s (setUserRead a1 a2 t) := .upd h

theorem stopStreams_quiet (h : Quiet s t) : Quiet s (stopStreams a1 t) := .upd h

theorem leavePlan_quiet (h : Quiet s t) : Quiet s (leavePlan a1 t) := dropHeld_quiet (modPlanSlot_quiet (.upd h))

theorem freeObjects_quiet (h : Quiet s t) : Quiet s (freeObjects a1 t) := .forEach (fun h1 => applyE_quiet
    (applyE_quiet h1)) (.upd (.forEach (fun h1 => dropHeld_quiet (freeModel_quiet h1)) (.forEach leavePlan_quiet
    (.upd h))))

theorem dropHeldOf_quiet (h : Quiet s t) : Quiet s (dropHeldOf a1 t) := abortHeld_quiet h

theorem detachPart_quiet (h : Quiet s t) : Quiet s (detachPart a1 t) := .ite (dropSession_quiet (dropHeldOf_quiet
    (freeObjects_quiet (State.modWin_quiet (modDetach_quiet (clearLatch_quiet (setUserRead_quiet (stopStreams_quiet
    (State.modPart_quiet h))))))))) (dropHeldOf_quiet (freeObjects_quiet (State.modWin_quiet (modDetach_quiet
    (clearLatch_quiet (setUserRead_quiet (stopStreams_quiet (State.modPart_quiet h))))))))

theorem zeroSiding_quiet (h : Quiet s t) : Quiet s (zeroSiding a1 t) :=
  h.store id canonical_filter

theorem freeKey_quiet (h : Quiet s t) : Quiet s (freeKey a1 t) := .upd (dropHeld_quiet h)

theorem scrubFrom_quiet (h : Quiet s t) : Quiet s (scrubFrom a1 a2 t) := by
  unfold scrubFrom
  split
  · exact addJob_quiet h
  · exact modDetach_quiet (.upd h)

theorem scrubJobEnd_quiet (h : Quiet s t) : Quiet s (scrubJobEnd a1 a2 t) := scrubFrom_quiet h

theorem scrubPart_quiet (h : Quiet s t) : Quiet s (scrubPart a1 t) := scrubFrom_quiet (.upd (State.modWin_quiet
    (.forEach freeKey_quiet (.forEach (fun h1 => freeSiding_quiet (zeroSiding_quiet h1)) (State.modPart_quiet h)))))

theorem answerDetach_quiet (h : Quiet s t) : Quiet s (answerDetach a1 t) := .ite (.ite (State.completeFree_quiet h)
    h) (State.finish_quiet h)

theorem freePart_quiet (h : Quiet s t) : Quiet s (freePart a1 t) := .withSome answerDetach_quiet (State.modPart_quiet
    (.upd h))

theorem applyChange_quiet (h : Quiet s t) : Quiet s (applyChange a1 t) := by
  unfold applyChange
  exact .upd (by
      split
      · exact createPart_quiet h
      · exact State.modPart_quiet h
      · exact detachPart_quiet h
      · exact scrubPart_quiet h
      · exact freePart_quiet h)

theorem tableChange_quiet (h : Quiet s t) : Quiet s (tableChange a1 t) := .ite (.upd h) (applyChange_quiet h)

theorem nextChange_quiet (h : Quiet s t) : Quiet s (nextChange t) := by
  unfold nextChange
  split
  · exact .ite h (applyChange_quiet (.upd h))
  · exact h

theorem makeCompl_quiet (h : Quiet s t) : Quiet s (makeCompl a1 a2 a3 a4 t) := State.modSiding_quiet
    (makeSiding_quiet h)

theorem createNow_quiet (h : Quiet s t) : Quiet s (createNow a1 a2 a3 a4 t) := by
  unfold createNow
  exact .ite (State.complete_quiet h) (by
      split
      · exact State.complete_quiet h
      · split
        · exact State.complete_quiet h
        · exact State.complete_quiet (tableChange_quiet (makeCompl_quiet h)))

theorem partCreate_quiet (h : Quiet s t) : Quiet s (partCreate a1 a2 t) := createNow_quiet h

theorem detachNow_quiet (h : Quiet s t) : Quiet s (detachNow a1 a2 t) := .ite (tableChange_quiet (.upd
    (State.startLong_quiet h))) (State.complete_quiet h)

theorem partDetach_quiet (h : Quiet s t) : Quiet s (partDetach a1 a2 t) := detachNow_quiet h

theorem detachComplete_quiet (h : Quiet s t) : Quiet s (detachComplete a1 t) := by
  unfold detachComplete
  split
  · exact .ite (tableChange_quiet h) h
  · exact h

theorem detachBoundary_quiet (h : Quiet s t) : Quiet s (detachBoundary a1 a2 t) := .forEach .upd (.upd h)

theorem returnContexts_quiet (h : Quiet s t) : Quiet s (returnContexts a1 t) := setCtxOwner_quiet h

theorem setWindow_quiet (h : Quiet s t) : Quiet s (setWindow a1 a2 a3 a4 a5 a6 t) := .upd h

theorem windowSet_quiet (h : Quiet s t) : Quiet s (windowSet a1 a2 t) := .ite (State.complete_quiet h)
    (State.complete_quiet (setWindow_quiet h))

theorem grant_quiet (h : Quiet s t) : Quiet s (grant a1 a2 t) := .ite (State.complete_quiet h) (.ite
    (State.complete_quiet h) (.ite (State.complete_quiet (tableChange_quiet h)) (State.complete_quiet
    (setUserRead_quiet h))))

theorem freeKeyNow_quiet (h : Quiet s t) : Quiet s (freeKeyNow a1 a2 t) := State.answer_quiet (freeKey_quiet h)

theorem unwrapInto_quiet (h : Quiet s t) : Quiet s (unwrapInto a1 a2 a3 t) := addJob_quiet (State.startLong_quiet h)

theorem bundleUnwrap_quiet (h : Quiet s t) : Quiet s (bundleUnwrap a1 a2 t) := by
  unfold bundleUnwrap
  exact .ite (State.complete_quiet h) (.ite (.ite (State.complete_quiet h) (by
      split
      · exact .ite (defer_quiet h) (freeKeyNow_quiet h)
      · exact freeKeyNow_quiet h)) (.ite (by
      split
      · exact unwrapInto_quiet h
      · exact State.complete_quiet h) (.ite (State.complete_quiet h) (.ite (State.complete_quiet h) (unwrapInto_quiet
          h)))))

theorem installKey_quiet (h : Quiet s t) : Quiet s (installKey a1 a2 t) := .upd h

theorem openBinding_quiet (h : Quiet s t) : Quiet s (openBinding a1 a2 a3 t) := by
  unfold openBinding
  split
  · exact State.finish_quiet h
  · split
    · exact loadFailed_quiet h
    · split
      · exact loadFailed_quiet h
      · exact .ite (State.finish_quiet h) (State.finish_quiet (installKey_quiet h))

theorem bindingJobEnd_quiet (h : Quiet s t) : Quiet s (bindingJobEnd a1 a2 a3 a4 t) := .ite (accessFailed_quiet h)
    (.ite (openBinding_quiet h) (.ite (loadFailed_quiet h) (addJob_quiet h)))

theorem entropyFailed_quiet (h : Quiet s t) : Quiet s (entropyFailed a1 a2 t) := serveOpens_quiet (.ite
    (State.raise_quiet (.ite (State.raise_quiet (.upd h)) (.upd h))) (.ite (State.raise_quiet (.upd h)) (.upd h)))

theorem entropyBlock_quiet (h : Quiet s t) : Quiet s (entropyBlock a1 t) := by
  unfold entropyBlock
  dsimp only
  exact .ite (entropyFailed_quiet h) (serveOpens_quiet (serveMeter_quiet (.upd h)))

theorem commitWrites_quiet (h : Quiet s t) : Quiet s (commitWrites t) := .ite h (.ite (State.modStat_quiet (.forEach
    followDefault_quiet (activate_quiet (.upd h)))) (.forEach followDefault_quiet (activate_quiet (.upd h))))

theorem answerCommit_quiet (h : Quiet s t) : Quiet s (answerCommit a1 t) := State.complete_quiet h

theorem commitNow_quiet (h : Quiet s t) : Quiet s (commitNow a1 a2 t) := .ite (.upd (State.modWin_quiet h))
    (answerCommit_quiet (commitWrites_quiet h))

theorem commitResume_quiet (h : Quiet s t) : Quiet s (commitResume t) := by
  unfold commitResume
  split
  · exact .ite h (.ite (.upd (answerCommit_quiet (commitWrites_quiet (.upd h)))) (State.modWin_quiet (.upd
      (answerCommit_quiet (commitWrites_quiet (.upd h))))))
  · exact h

theorem pendEpochCfg_quiet (h : Quiet s t) : Quiet s (pendEpochCfg a1 t).1 := State.pendE_quiet (.upd h)

theorem epochSet_quiet (h : Quiet s t) : Quiet s (epochSet a1 a2 t) := State.complete_quiet (pendEpochCfg_quiet h)

theorem writeGov_quiet (h : Quiet s t) : Quiet s (writeGov a1 t) := State.pendE_quiet (.upd h)

theorem govSet_quiet (h : Quiet s t) : Quiet s (govSet a1 a2 t) := State.complete_quiet (writeGov_quiet h)

theorem rateMeasure_quiet (h : Quiet s t) : Quiet s (rateMeasure a1 a2 a3 t) := .upd h

theorem turnStats_quiet (h : Quiet s t) : Quiet s (turnStats a1 a2 t) := .upd h

theorem governorBoundary_quiet (h : Quiet s t) : Quiet s (governorBoundary a1 t) := .upd h

theorem noteUnobserved_quiet (h : Quiet s t) : Quiet s (noteUnobserved t) := .upd h

theorem endWindows_quiet (h : Quiet s t) : Quiet s (endWindows a1 a2 t) := .upd h

theorem startPlan_quiet (h : Quiet s t) : Quiet s (startPlan t) := by
  unfold startPlan
  split
  · exact h
  · exact writeMasks_quiet (.upd (.upd h))

theorem planShortfalls_quiet (h : Quiet s t) : Quiet s (planShortfalls a1 t) := by
  unfold planShortfalls
  split
  · exact h
  · exact .ite (shortfall_quiet (.forEach shortfall_quiet (.forEach shortfall_quiet h))) (.forEach shortfall_quiet
      (.forEach shortfall_quiet h))

theorem openEpoch_cfg (e : Nat) (b : Boundary) (t : Timetable) : (openEpoch e b t).cfg = t.cfg := by
  simp only [openEpoch, applyStep, apply_ite Timetable.cfg, useEpochCfg_cfg, ite_self]

theorem boundaryAt_quiet (h : Quiet s t) : Quiet s (boundaryAt a1 t) := by
  unfold boundaryAt
  extract_lets e owners first leaving s1 s2 dsp s3 s4 s5 s6 s7 s8 s9
  have h1 : Quiet s s1 := .ite h (weighBoundary_quiet h)
  have h2 : Quiet s s2 := governorBoundary_quiet h1
  have h3 : Quiet s s3 := activate_quiet (.upd h2)
  have h4 : Quiet s s4 := turnStats_quiet h3
  have h5 : Quiet s s5 := noteUnobserved_quiet (endWindows_quiet h4)
  have h6 : Quiet s s6 := .forEach boundaryAtStation_quiet (.upd h5 (hcfg := openEpoch_cfg ..))
  have h7 : Quiet s s7 := meterBoundary_quiet (detachBoundary_quiet h6)
  have h8 : Quiet s s8 := returnContexts_quiet (ledgerBoundary_quiet h7)
  have h9 : Quiet s s9 := settleCoverage_quiet (planShortfalls_quiet (startPlan_quiet h8))
  exact .ite (takeOverOutputs_quiet h9) h9

theorem epochBoundary_quiet (h : Quiet s t) : Quiet s (epochBoundary t) := by
  unfold epochBoundary
  split
  · exact .ite (boundaryAt_quiet h) h
  · exact h

theorem stopItem_quiet (h : Quiet s t) : Quiet s (stopItem a1 t) := .ite (.forEach loseSample_quiet h)
    (abandonItem_quiet h)

theorem stopFrame_quiet (h : Quiet s t) : Quiet s (stopFrame a1 t) := skipFrame_quiet (releasePilot_quiet h)

theorem stopChecking_quiet (h : Quiet s t) : Quiet s (stopChecking t) := settleCoverage_quiet (.forEach
    stopFrame_quiet (.forEach stopItem_quiet h))

theorem deliver_quiet (h : Quiet s t) : Quiet s (deliver a1 t).1 := .ite (State.containing_quiet stopChecking_quiet
    (receive_quiet h)) (receive_quiet h)

theorem occurrenceReceive_quiet (h : Quiet s t) : Quiet s (occurrenceReceive t) := by
  unfold occurrenceReceive
  split
  · exact h
  · exact deliver_quiet (.upd h)

theorem selfCheckMiscompare_quiet (h : Quiet s t) : Quiet s (selfCheckMiscompare t) := deliver_quiet h

theorem sbxReadrec_quiet (h : Quiet s t) : Quiet s (sbxReadrec a1 a2 t) := .ite (State.complete_quiet h)
    (addJob_quiet (State.startLong_quiet h))

theorem readrecJobEnd_quiet (h : Quiet s t) : Quiet s (readrecJobEnd a1 a2 a3 a4 t) := .ite (State.finish_quiet h)
    (State.finish_quiet h)

theorem injectContain_quiet (h : Quiet s t) : Quiet s (injectContain a1 t) := .ite (State.containing_quiet
    removeTrack_quiet h) h

theorem inject_quiet (h : Quiet s t) : Quiet s (inject a1 a2 t) := State.complete_quiet (deliver_quiet
    (injectContain_quiet (.upd h)))

theorem selftest_quiet (h : Quiet s t) : Quiet s (selftest a1 a2 t) := .upd (State.startLong_quiet h)

theorem entropyStart_quiet (h : Quiet s t) : Quiet s (entropyStart a1 t).1 := by
  unfold entropyStart
  obtain ⟨rct, apt, last⟩ := healthTest none a1
  dsimp only
  split
  · exact entropyFailed_quiet h
  · exact .upd h

theorem selftestEnd_quiet (h : Quiet s t) : Quiet s (selftestEnd a1 a2 a3 a4 a5 t) := by
  unfold selftestEnd
  dsimp only
  exact State.finish_quiet (by
      split
      · exact entropyStart_quiet (.forEach State.raise_quiet (.ite (State.raise_quiet h) h))
      · exact .forEach State.raise_quiet (.ite (State.raise_quiet h) h))

theorem selftestDone_quiet (h : Quiet s t) : Quiet s (selftestDone a1 a2 a3 t) := by
  unfold selftestDone
  split
  · exact h
  · exact selftestEnd_quiet (.upd h)

theorem jobEnd_quiet (h : Quiet s t) : Quiet s (jobEnd a1 t) := by
  unfold jobEnd
  split
  · exact bootJobEnd_quiet h
  · exact planJobEnd_quiet h
  · exact modelJobEnd_quiet h
  · exact zonesJobEnd_quiet h
  · exact bindingJobEnd_quiet h
  · exact chunkRead_quiet h
  · exact snapWritten_quiet h
  · exact drainJobEnd_quiet h
  · exact sessionJobEnd_quiet h
  · exact readrecJobEnd_quiet h
  · exact evidenceJobEnd_quiet h
  · exact scrubJobEnd_quiet h

theorem takeEnded_quiet (e : takeEnded t = some (j, u)) (h : Quiet s t) : Quiet s u := by
  unfold takeEnded at e
  obtain ⟨x, -, hx⟩ := Option.map_eq_some_iff.mp e
  obtain ⟨-, rfl⟩ := Prod.mk.inj hx
  exact .upd h

theorem settleJobs_quiet (h : Quiet s t) : Quiet s (settleJobs a1 t) := by
  induction a1 generalizing t with
  | zero => exact h
  | succ n ih =>
    unfold settleJobs
    split
    · next ended => exact ih (jobEnd_quiet (takeEnded_quiet ended h))
    · exact h

theorem afterPort_quiet (h : Quiet s t) : Quiet s (afterPort t) := settleJobs_quiet h

theorem clockStall_quiet (h : Quiet s t) : Quiet s (clockStall a1 t) := .ite (.upd (State.raise_quiet h))
    (State.raise_quiet h)

theorem applyHeld_quiet (h : Quiet s t) : Quiet s (applyHeld a1 t) := by
  unfold applyHeld
  split
  · exact changeSiding_quiet h
  · exact planLoadNow_quiet h
  · exact pltLoadNow_quiet h
  · exact freeKeyNow_quiet h

theorem qWriteApply_quiet (h : Quiet s t) : Quiet s (qWriteApply a1 t) := by
  unfold qWriteApply
  split
  · exact .ite (applyHeld_quiet (setHeld_quiet h)) h
  · exact h

theorem resetCore_quiet (h : Quiet s t) : Quiet s (resetCore a1 a2 t) :=
  h.trans ⟨⟨rfl, rfl, fun _ => rfl⟩, fun closed => ⟨closed, rfl, rfl⟩, rfl, rfl, rfl⟩

theorem tallyRest_quiet (h : Quiet s t) : Quiet s (tallyRest a1 t) := .forEach (fun h1 => .forEach tallyDelta_quiet
    h1) h

theorem startCore_quiet (h : Quiet s t) : Quiet s (startCore t) := .ite (.ite (deliverMeter_quiet h) (startBoot_quiet
    (deliverMeter_quiet h))) h

theorem blkRstAssert_quiet (h : Quiet s t) : Quiet s (blkRstAssert t) := .ite (resetCore_quiet (.upd h)) h

theorem blkRstRelease_quiet (h : Quiet s t) : Quiet s (blkRstRelease t) := .ite h (startCore_quiet (.upd h))

theorem vqOff_quiet (h : Quiet s t) : Quiet s (vqOff t) := .ite (resetCore_quiet (.upd h)) h

theorem vqOn_quiet (h : Quiet s t) : Quiet s (vqOn t) := .ite h (startCore_quiet (.upd h))

theorem bistWord_quiet (h : Quiet s t) : Quiet s (bistWord a1 t) := by
  unfold bistWord
  split
  · exact State.raise_quiet h
  · exact .ite (ledgerEcc_quiet h) h
  · exact State.raise_quiet h
  · exact State.raise_quiet h
  · exact h

theorem bistTracks_quiet (h : Quiet s t) : Quiet s (bistTracks a1 t) := .forEach withdrawTrack_quiet (.upd h)

theorem openRoot_quiet (h : Quiet s t) : Quiet s (openRoot t) := by
  unfold openRoot
  split
  · exact State.modWin_quiet (makeCompl_quiet h)
  · exact h

/-- The self-test clears the two stores. -/
theorem clearStores_quiet (h : Quiet s t) :
    Quiet s { t with ldg := { t.ldg with words := [] }, sdg := { t.sdg with pool := [] } } :=
  h.store (fun _ => rfl) (fun _ => rfl)

theorem startupSelftest_quiet (h : Quiet s t) : Quiet s (startupSelftest a1 t) := by
  unfold startupSelftest
  extract_lets ldg sdg s1 s2 s3 s4 s5
  have h2 : Quiet s s2 := .ite (clearStores_quiet h) (State.raise_quiet (clearStores_quiet h))
  have h5 : Quiet s s5 := bistTracks_quiet (.forEach bistWord_quiet (.forEach State.raise_quiet h2))
  have h6 := entropyStart_quiet (a1 := a1.entropyRaw) h5
  generalize entropyStart a1.entropyRaw s5 = started at h6 ⊢
  exact openRoot_quiet (.upd h6)

theorem refreshFp_quiet (h : Quiet s t) : Quiet s (refreshFp t) := .ite (.upd h) h

theorem stationEnum_quiet (h : Quiet s t) : Quiet s (stationEnum a1 t) := refreshFp_quiet (.ite (.upd (.upd (.forEach
    tallyRest_quiet h))) (State.raise_quiet (.upd (.upd (.forEach tallyRest_quiet h)))))

theorem destroyMemory_quiet (h : Quiet s t) : Quiet s (destroyMemory t) := by
  unfold destroyMemory
  extract_lets words pool
  have hwords : canonical LWord.zero words = true := canonical_foldl_store rfl
  have hpool : canonical 0 pool = true := canonical_foldl_store rfl
  clear_value words pool
  exact State.draw_quiet (State.draw_quiet (h.store (fun _ => hwords) (fun _ => hpool)))

theorem stnViewSelRead_quiet (h : Quiet s t) : Quiet s (stnViewSelRead a1 t) := .ite (setRegData_quiet (.upd h))
    (setRegData_quiet h)

theorem registerWrite_quiet (h : Quiet s t) : Quiet s (registerWrite a1 a2 a3 t) := by
  unfold registerWrite
  exact .ite (.upd h) (.ite (meterWrite_quiet (fun _ h => h) h) h)

theorem setTkl_quiet (h : Quiet s t) : Quiet s (setTkl a1 t) := .upd h

theorem answerFrame_quiet (hact : ∀ {a1 x}, Quiet s x → Quiet s (act a1 x).1) (h : Quiet s t) : Quiet s (answerFrame
    act a1 t) := by
  unfold answerFrame
  exact setTkl_quiet (hact h)

theorem pendingFrame_quiet (hact : ∀ {a1 x}, Quiet s x → Quiet s (act a1 x).1) (h : Quiet s t) : Quiet s
    (pendingFrame act a1 a2 t) := .ite (hact (setTkl_quiet h)) (setTkl_quiet h)

theorem acceptFrame_quiet (hact : ∀ {a1 x}, Quiet s x → Quiet s (act a1 x).1) (h : Quiet s t) : Quiet s (acceptFrame
    act a1 t) := by
  unfold acceptFrame
  dsimp only
  exact .ite (setTkl_quiet (hact h)) (by
      split
      · exact pendingFrame_quiet hact (setTkl_quiet h)
      · exact answerFrame_quiet hact (setTkl_quiet h))

theorem tklRow_quiet (hact : ∀ {a1 x}, Quiet s x → Quiet s (act a1 x).1) (h : Quiet s t) : Quiet s (tklRow a1 act a2
    t) := .ite (acceptFrame_quiet hact h) h

theorem frameForward_quiet (h : Quiet s t) : Quiet s (frameForward a1 t) := .ite (.ite h (acceptFrame_quiet id h))
    (setTkl_quiet h)

theorem takeAddress_quiet (h : Quiet s t) : Quiet s (takeAddress a1 t) := setTkl_quiet h

theorem tklEnum_quiet (h : Quiet s t) : Quiet s (tklEnum a1 a2 t) := .ite h (.ite (takeAddress_quiet h) (setTkl_quiet
    h))

theorem setver_quiet (h : Quiet s t) : Quiet s (setver a1 t).1 := by
  unfold setver
  dsimp only
  exact setTkl_quiet h

theorem readChecked_quiet (h : Quiet s t) : Quiet s (readChecked a1 a2 a3 t).1 := by
  unfold readChecked
  dsimp only
  split
  · exact h
  · split
    · exact tallyEcc_quiet h
    · exact auditEcc_quiet h
    · exact h

theorem readCnt_quiet (h : Quiet s t) : Quiet s (readCnt a1 a2 t).1 := by
  unfold readCnt
  split
  · exact .ite (setTkl_quiet (ledgerEcc_quiet (ledgerEcc_quiet h))) (ledgerEcc_quiet h)
  · exact h

theorem readCntHi_quiet (h : Quiet s t) : Quiet s (readCntHi a1 t).1 := by
  unfold readCntHi
  split <;> exact h

theorem take_quiet (h : Quiet s t) : Quiet s (take a1 t).1 := by
  simp only [take]
  split
  · split <;> dsimp only
    · exact setTkl_quiet (.upd h)
    · exact .upd h
  · exact h

theorem endTakeover_quiet (h : Quiet s t) : Quiet s (endTakeover t) := setTkl_quiet (.upd h)

theorem inTakeover_quiet (hact : ∀ {a1 x}, Quiet s x → Quiet s (act a1 x).1) (h : Quiet s t) : Quiet s (inTakeover
    act a1 t).1 := by
  unfold inTakeover
  split
  · exact hact h
  · exact h

theorem give_quiet (h : Quiet s t) : Quiet s (give a1 t).1 := by
  unfold give
  split
  · exact h
  · exact endTakeover_quiet h

theorem leaseExpire_quiet (h : Quiet s t) : Quiet s (leaseExpire t) := .ite (endTakeover_quiet h) h

theorem forceSafe_quiet (h : Quiet s t) : Quiet s (forceSafe t) := .ite h (.ite (refresh_quiet (.upd h))
    (refresh_quiet (placeNew_quiet (State.markFault_quiet (.upd h)))))

theorem releaseSafe_quiet (h : Quiet s t) : Quiet s (releaseSafe t) := .ite (refresh_quiet (.upd h)) h

theorem tklCommit_quiet (h : Quiet s t) : Quiet s (tklCommit a1 t).1 := by
  simp only [tklCommit]
  split <;> dsimp only
  · exact setTkl_quiet (.upd h)
  · exact commitWrites_quiet h

theorem clearRec_quiet (h : Quiet s t) : Quiet s (clearRec a1 t).1 := clearSlots_quiet h

theorem readBack_quiet (h : Quiet s t) : Quiet s (readBack a1 a2 t).1 := h

theorem writeRow_quiet (hpick : ∀ {k act}, a1 k = some act → ∀ {x}, Quiet s x → Quiet s (act x)) (h : Quiet s t) :
    Quiet s (writeRow a1 a2 t) := by
  unfold writeRow
  split
  · next picked => exact tklRow_quiet (fun h1 => inTakeover_quiet (fun h2 => readBack_quiet (hpick picked h2)) h1) h
  · exact h

theorem writeMirror_quiet (h : Quiet s t) : Quiet s (writeMirror a1 a2 t) := .ite h (tableChange_quiet h)

theorem writePartCreate_quiet (h : Quiet s t) : Quiet s (writePartCreate a1 a2 t) := writeMirror_quiet
    (createNow_quiet h)

theorem writePartDetach_quiet (h : Quiet s t) : Quiet s (writePartDetach a1 a2 t) := writeMirror_quiet
    (detachNow_quiet h)

theorem writeWindow_quiet (h : Quiet s t) : Quiet s (writeWindow a1 a2 a3 a4 t) := .ite h (setWindow_quiet h)

theorem changeQ_quiet (h : Quiet s t) : Quiet s (changeQ a1 a2 t) := .ite (changeSiding_quiet (dropHeld_quiet h))
    (defer_quiet h)

theorem writeSdgCreate_quiet (h : Quiet s t) : Quiet s (writeSdgCreate a1 a2 t) := createSiding_quiet h

theorem sdgFreeAct_quiet (h : Quiet s t) : Quiet s (sdgFreeAct a1 a2 t).1 := readBack_quiet (changeQ_quiet h)

theorem writeStation_quiet (h : Quiet s t) : Quiet s (writeStation a1 a2 a3 t) := by
  unfold writeStation
  exact .ite h (.ite (State.pendE_quiet (State.modStation_quiet h)) (.ite (State.pendE_quiet h) (.ite
      (State.pendE_quiet h) (.ite (State.pendE_quiet h) (.ite (State.pendE_quiet h) (.ite (State.pendE_quiet h) (.ite
      (by
      split
      · exact State.pendE_quiet h
      · exact State.pendE_quiet h
      · exact State.pendE_quiet h
      · exact h) h)))))))

theorem writeMyd_quiet (h : Quiet s t) : Quiet s (writeMyd a1 a2 t) := State.pendE_quiet h

theorem writePStream_quiet (h : Quiet s t) : Quiet s (writePStream a1 a2 t) := .ite h (State.pendE_quiet h)

theorem writeWbrSel_quiet (h : Quiet s t) : Quiet s (writeWbrSel a1 a2 t) := .ite h (State.pendE_quiet h)

theorem writeWbrQ_quiet (h : Quiet s t) : Quiet s (writeWbrQ a1 a2 t) := State.pendE_quiet h

theorem writeCtx_quiet (h : Quiet s t) : Quiet s (writeCtx a1 a2 t) := .upd (.ite (.upd h) h)

theorem writeLdg_quiet (h : Quiet s t) : Quiet s (writeLdg a1 a2 t) := by
  unfold writeLdg
  split
  · exact writeCtx_quiet h
  · exact .ite (State.pendE_quiet h) (State.pendE_quiet h)
  · exact .ite h (State.pendE_quiet h)
  · exact h

theorem writeSbx_quiet (h : Quiet s t) : Quiet s (writeSbx a1 a2 t) := by
  unfold writeSbx
  exact .ite (sbxConfig_quiet h) (.ite (writeGov_quiet h) (by
      split
      · exact reactSet_quiet h
      · exact h))

theorem writeSdg_quiet (h : Quiet s t) : Quiet s (writeSdg a1 a2 a3 t) := by
  unfold writeSdg
  split
  · exact .ite (changeQ_quiet h) h
  · exact sdgLevel_quiet h
  · exact sdgWatermark_quiet h
  · exact .ite (changeQ_quiet h) h
  · exact h

theorem writeLow_quiet (h : Quiet s t) : Quiet s (writeLow a1 a2 t) := by
  unfold writeLow
  exact .ite (pendEpochCfg_quiet h) (.ite (State.pendE_quiet h) (.ite (setTkl_quiet h) (.ite (State.pendE_quiet h) (by
      split
      · exact writeMyd_quiet h
      · exact writePStream_quiet h
      · exact h))))

theorem writeRoot_quiet (h : Quiet s t) : Quiet s (writeRoot a1 a2 t) := by
  unfold writeRoot
  exact .ite (writeLow_quiet h) (.ite (by
      split
      · exact .ite (writeWbrSel_quiet h) (writeWbrQ_quiet h)
      · exact h) (.ite (writeStation_quiet h) (.ite h (.ite (writeLdg_quiet h) (.ite (writeSbx_quiet h) (.ite h (.ite
          (writeSdg_quiet h) h)))))))

theorem writeMeter_quiet (isOpen : meterOpen t = true) (h : Quiet s t) : Quiet s (writeMeter a1 a2 t) := by
  unfold writeMeter
  refine .ite (applyTtbCfg_quiet isOpen h) (.ite (.ite (emptyStore_quiet h) h) (.ite (appendStore_quiet h) ?_))
  split
  · exact applyMap_quiet isOpen h
  · exact h

theorem writeReg_quiet (h : Quiet s t) : Quiet s (writeReg a1 t).1 := by
  unfold writeReg
  dsimp only
  split
  · split
    · next isOpen => exact readBack_quiet (writeMeter_quiet isOpen h)
    · exact readBack_quiet (refuseWrite_quiet h)
  · split
    · exact readBack_quiet (writeRoot_quiet h)
    · exact readBack_quiet h

def Ordinary : Instr → Prop
  | .porstAssert => False
  | .porstRelease => False
  | .fuseWordSample _ => False
  | .meterReady => False
  | .mtrRstRelease => False
  | .wrapperInstructionUpdate _ => False
  | .sealOpen => False
  | _ => True

/-- An ordinary command is quiet: each is made of the operations above. -/
theorem exec_quiet {c : Instr} (hc : Ordinary c) (s : State) : ∃ t, exec c s = .next t ∧ Quiet s t :=
  match c, hc with
  | .firmwareBootComplete, _ => ⟨_, rfl, .when firmwareBoot_quiet (.refl s)⟩
  | .startupSelftestComplete _, _ => ⟨_, rfl, .when startupSelftest_quiet (.refl s)⟩
  | .stationEnumTokenReturn _, _ => ⟨_, rfl, .when stationEnum_quiet (.refl s)⟩
  | .blkRstAssert, _ => ⟨_, rfl, blkRstAssert_quiet (.refl s)⟩
  | .blkRstRelease, _ => ⟨_, rfl, blkRstRelease_quiet (.refl s)⟩
  | .mtrRstAssert, _ => ⟨_, rfl, (Quiet.refl s).trans ⟨⟨rfl, rfl, id⟩, fun _ => ⟨by simp [meterOpen, meterRuns], rfl,
        rfl⟩, rfl, rfl, rfl⟩⟩
  | .stnRstAssert _, _ => ⟨_, rfl, .ite (.refl s) (State.modStation_quiet (.refl s))⟩
  | .stnRstRelease _, _ => ⟨_, rfl, .ite (.refl s) (State.modStation_quiet (endFlush_quiet (.refl s)))⟩
  | .vioStnOff _, _ => ⟨_, rfl, State.modStation_quiet (.refl s)⟩
  | .vioStnOn _, _ => ⟨_, rfl, .ite (.refl s) (State.modStation_quiet (endFlush_quiet (.refl s)))⟩
  | .vqOff, _ => ⟨_, rfl, vqOff_quiet (.refl s)⟩
  | .vqOn, _ => ⟨_, rfl, vqOn_quiet (.refl s)⟩
  | .timeAdvance _ _, _ => ⟨_, rfl, .when (fun h => timeAdvance_quiet (pilotSettle_quiet h)) (.refl s)⟩
  | .timeValidFall, _ => ⟨_, rfl, .when (fun h => .upd h (hcfg := loseValid_cfg _)) (.refl s)⟩
  | .holdoverExpire, _ => ⟨_, rfl, .when (fun h => State.raise_quiet (.upd h)) (.refl s)⟩
  | .ppsEdge, _ => ⟨_, rfl, .when ppsEdge_quiet (.refl s)⟩
  | .fsyncEdge _, _ => ⟨_, rfl, .when fsyncEdge_quiet (.refl s)⟩
  | .syntheticMasterEdge, _ => ⟨_, rfl, by
        split
        · exact .when countEdge_quiet (.refl s)
        · exact .refl s⟩
  | .internalMasterEdge, _ => ⟨_, rfl, by
        split
        · exact .when countEdge_quiet (.refl s)
        · exact .refl s⟩
  | .upperTimeMessage, _ => ⟨_, rfl, .when .upd (.refl s)⟩
  | .epochBoundary, _ => ⟨_, rfl, .when epochBoundary_quiet (.refl s)⟩
  | .epochStatusClose, _ => ⟨_, rfl, .when closeStatus_quiet (.refl s)⟩
  | .governorRefill, _ => ⟨_, rfl, .when governorRefill_quiet (.refl s)⟩
  | .rateMonitorMeasure _ _ _, _ => ⟨_, rfl, .when rateMeasure_quiet (.refl s)⟩
  | .stationDelayMeasured _ _, _ => ⟨_, rfl, .when delayMeasured_quiet (.refl s)⟩
  | .stationEdge _ _ _, _ => ⟨_, rfl, .when stationEdge_quiet (.refl s)⟩
  | .deltaBankTimer _, _ => ⟨_, rfl, .when State.modStation_quiet (.refl s)⟩
  | .deltaBankHandoverEnd _ _, _ => ⟨_, rfl, .when bankHandedOver_quiet (.refl s)⟩
  | .stationRecordHandover _ _, _ => ⟨_, rfl, .when recordHandover_quiet (.refl s)⟩
  | .lineClearToken _, _ => ⟨_, rfl, .when lineClearToken_quiet (.refl s)⟩
  | .stationPark _, _ => ⟨_, rfl, .when stationPark_quiet (.refl s)⟩
  | .stationUnpark _ _, _ => ⟨_, rfl, .when stationUnpark_quiet (.refl s)⟩
  | .stationFail _, _ => ⟨_, rfl, .when stationFail_quiet (.refl s)⟩
  | .stnViewSelRead _, _ => ⟨_, rfl, stnViewSelRead_quiet (.refl s)⟩
  | .operandBeatDeliver _ _, _ => ⟨_, rfl, .when operandDeliver_quiet (.refl s)⟩
  | .junctionRelease, _ => ⟨_, rfl, .when (fun h => nextChange_quiet (junctionRelease_quiet h)) (.refl s)⟩
  | .internalRecordOverdue _, _ => ⟨_, rfl, .when recordOverdue_quiet (.refl s)⟩
  | .mydRecordDeliver _, _ => ⟨_, rfl, .when recordDeliver_quiet (.refl s)⟩
  | .payloadClose _, _ => ⟨_, rfl, by
        split
        · exact .when closePayload_quiet (.refl s)
        · exact .refl s⟩
  | .ledgerDeltaApply _ _, _ => ⟨_, rfl, .when ledgerDelta_quiet (.refl s)⟩
  | .ledgerPatrol _ _, _ => ⟨_, rfl, .when ledgerEcc_quiet (.refl s)⟩
  | .sweepTraverseStart, _ => ⟨_, rfl, by
        split
        · exact .ite (startTraverse_quiet (.refl s)) (.refl s)
        · exact .refl s⟩
  | .sweepWordVisit _, _ => ⟨_, rfl, .when sweepVisit_quiet (.refl s)⟩
  | .snapshotTimeout _, _ => ⟨_, rfl, by
        split
        · exact .when (fun h => settleSnaps_quiet (withdrawSnap_quiet h)) (.refl s)
        · exact .refl s⟩
  | .tallyDeltaAdd _ _, _ => ⟨_, rfl, .when tapDelta_quiet (.refl s)⟩
  | .tallyLatch, _ => ⟨_, rfl, by
        split
        · exact .when latchTallies_quiet (.refl s)
        · exact .refl s⟩
  | .sidingWordWrite _, _ => ⟨_, rfl, .when sidingWordWrite_quiet (.refl s)⟩
  | .sidingItemClose _, _ => ⟨_, rfl, .when sidingItemClose_quiet (.refl s)⟩
  | .sdgPop _ _ _ _, _ => ⟨_, rfl, .ite (sdgPop_quiet (.refl s)) (.upd (.refl s))⟩
  | .drainItemWrite _ _ _, _ => ⟨_, rfl, .when drainItem_quiet (.refl s)⟩
  | .sdgFlushComplete _, _ => ⟨_, rfl, .when flushComplete_quiet (.refl s)⟩
  | .memCmdIssue _, _ => ⟨_, rfl, .when (fun h => afterPort_quiet (memCmdIssue_quiet h)) (.refl s)⟩
  | .memWriteBeat, _ => ⟨_, rfl, .when memWriteBeat_quiet (.refl s)⟩
  | .memReadBeat _ _ _ _, _ => ⟨_, rfl, .when (fun h => afterPort_quiet (memReadBeat_quiet h)) (.refl s)⟩
  | .memWriteResponse _ _, _ => ⟨_, rfl, .when (fun h => afterPort_quiet (memWriteResponse_quiet h)) (.refl s)⟩
  | .memTimeout _, _ => ⟨_, rfl, .when (fun h => afterPort_quiet (memTimeout_quiet h)) (.refl s)⟩
  | .portClockStall _, _ => ⟨_, rfl, .when clockStall_quiet (.refl s)⟩
  | .exportFrameStart _ _ _, _ => ⟨_, rfl, .when frameStart_quiet (.refl s)⟩
  | .exportBeatAccept _, _ => ⟨_, rfl, .when beatAccept_quiet (.refl s)⟩
  | .exportEofAccept _, _ => ⟨_, rfl, .when eofAccept_quiet (.refl s)⟩
  | .exportAbortAccept _, _ => ⟨_, rfl, .when abortAccept_quiet (.refl s)⟩
  | .sessionEndClock _, _ => ⟨_, rfl, by
        split
        · exact .when clockEnd_quiet (.refl s)
        · exact .refl s⟩
  | .epochPreparation, _ => ⟨_, rfl, .when (fun h => conductorRead_quiet (prepareEpoch_quiet h)) (.refl s)⟩
  | .frameWindowOpen _, _ => ⟨_, rfl, .ite (.withSome openWindow_quiet (.refl s)) (.refl s)⟩
  | .frameWindowClose _, _ => ⟨_, rfl, .ite (.withSome closeWindow_quiet (.refl s)) (.refl s)⟩
  | .workItemStart _, _ => ⟨_, rfl, .when workItemStart_quiet (.refl s)⟩
  | .chunkDecryptComplete _ _, _ => ⟨_, rfl, .when chunkDecrypt_quiet (.refl s)⟩
  | .trackPassEnd _ _, _ => ⟨_, rfl, .when trackPass_quiet (.refl s)⟩
  | .knownAnswerTileEnd _ _, _ => ⟨_, rfl, .when knownAnswer_quiet (.refl s)⟩
  | .sequencerWatchdog _, _ => ⟨_, rfl, .when sequencerWatchdog_quiet (.refl s)⟩
  | .sampleSetCommit _ _, _ => ⟨_, rfl, .when sampleSetCommit_quiet (.refl s)⟩
  | .verdictDeadline, _ => ⟨_, rfl, .when verdictDeadline_quiet (.refl s)⟩
  | .pilotReadyTime _, _ => ⟨_, rfl, .when pilotReadyTime_quiet (.refl s)⟩
  | .pilotFrameStart _, _ => ⟨_, rfl, .when pilotFrameStart_quiet (.refl s)⟩
  | .pilotFrameJudge _, _ => ⟨_, rfl, .when pilotFrameJudge_quiet (.refl s)⟩
  | .pilotOverrun _, _ => ⟨_, rfl, .when pilotOverrun_quiet (.refl s)⟩
  | .statisticsClose, _ => ⟨_, rfl, .when statisticsClose_quiet (.refl s)⟩
  | .commandWindowWrite _ _ _, _ => ⟨_, rfl, .when windowWrite_quiet (.refl s)⟩
  | .packetDiscardTimeout _, _ => ⟨_, rfl, by
        split
        · exact .when State.modWin_quiet (.refl s)
        · exact .refl s⟩
  | .packetAbandon _, _ => ⟨_, rfl, by
        split
        · exact .when (fun h => State.completeFree_quiet (State.modWin_quiet h)) (.refl s)
        · exact .refl s⟩
  | .unknownOp _, _ => ⟨_, rfl, by
        split
        · exact .ite (.refl s) (issue_quiet State.complete_quiet (.refl s))
        · exact .refl s⟩
  | .nop _, _ => ⟨_, rfl, issue_quiet State.complete_quiet (.refl s)⟩
  | .readVersion _, _ => ⟨_, rfl, issue_quiet State.complete_quiet (.refl s)⟩
  | .commit _, _ => ⟨_, rfl, issue_quiet commitNow_quiet (.refl s)⟩
  | .commitHeldResume, _ => ⟨_, rfl, .when commitResume_quiet (.refl s)⟩
  | .govSet _, _ => ⟨_, rfl, issue_quiet govSet_quiet (.refl s)⟩
  | .epochSet _, _ => ⟨_, rfl, issue_quiet epochSet_quiet (.refl s)⟩
  | .partCreate _, _ => ⟨_, rfl, issue_quiet partCreate_quiet (.refl s)⟩
  | .partDetach _, _ => ⟨_, rfl, issue_quiet partDetach_quiet (.refl s)⟩
  | .detachScrubStart _, _ => ⟨_, rfl, by
        split
        · exact .when (fun h => tableChange_quiet (modDetach_quiet (.ite (dropSession_quiet h) h))) (.refl s)
        · exact .refl s⟩
  | .detachComplete _, _ => ⟨_, rfl, .when detachComplete_quiet (.refl s)⟩
  | .windowSet _, _ => ⟨_, rfl, issue_quiet windowSet_quiet (.refl s)⟩
  | .grant _, _ => ⟨_, rfl, issue_quiet grant_quiet (.refl s)⟩
  | .stnConfig _, _ => ⟨_, rfl, issue_quiet stnConfig_quiet (.refl s)⟩
  | .stnTagmap _, _ => ⟨_, rfl, issue_quiet stnArray_quiet (.refl s)⟩
  | .stnThresh _, _ => ⟨_, rfl, issue_quiet stnArray_quiet (.refl s)⟩
  | .stnSnoopwin _, _ => ⟨_, rfl, issue_quiet stnSnoopwin_quiet (.refl s)⟩
  | .ldgRead _ _, _ => ⟨_, rfl, issue_quiet ldgRead_quiet (.refl s)⟩
  | .ldgReadPair _ _, _ => ⟨_, rfl, issue_quiet ldgReadPair_quiet (.refl s)⟩
  | .ldgChain _, _ => ⟨_, rfl, issue_quiet ldgChain_quiet (.refl s)⟩
  | .ldgSnapcfg _, _ => ⟨_, rfl, issue_quiet ldgSnapcfg_quiet (.refl s)⟩
  | .ldgClear _, _ => ⟨_, rfl, issue_quiet ldgClear_quiet (.refl s)⟩
  | .ldgUreadData _ _, _ => ⟨_, rfl, .ite (ureadData_quiet (.refl s)) (setRegData_quiet (.refl s))⟩
  | .ldgUreadPairLo _ _, _ => ⟨_, rfl, .ite (ureadPairLo_quiet (.refl s)) (setRegData_quiet (.refl s))⟩
  | .sdgCreate _, _ => ⟨_, rfl, issue_quiet sdgCreate_quiet (.refl s)⟩
  | .sdgMark _, _ => ⟨_, rfl, issue_quiet sdgMark_quiet (.refl s)⟩
  | .sdgRewind _, _ => ⟨_, rfl, issue_quiet sdgRewind_quiet (.refl s)⟩
  | .sdgRelease _, _ => ⟨_, rfl, issue_quiet sdgRelease_quiet (.refl s)⟩
  | .sdgFlush _, _ => ⟨_, rfl, issue_quiet sdgFlush_quiet (.refl s)⟩
  | .sdgLevel _, _ => ⟨_, rfl, issue_quiet sdgLevel_quiet (.refl s)⟩
  | .sdgWatermark _, _ => ⟨_, rfl, issue_quiet sdgWatermark_quiet (.refl s)⟩
  | .planLoad _, _ => ⟨_, rfl, issue_quiet planLoad_quiet (.refl s)⟩
  | .planArm _, _ => ⟨_, rfl, issue_quiet planArm_quiet (.refl s)⟩
  | .planDisarm _, _ => ⟨_, rfl, issue_quiet planDisarm_quiet (.refl s)⟩
  | .coverSet _, _ => ⟨_, rfl, issue_quiet coverSet_quiet (.refl s)⟩
  | .pltLoad _, _ => ⟨_, rfl, issue_quiet pltLoad_quiet (.refl s)⟩
  | .pltZones _, _ => ⟨_, rfl, issue_quiet pltZones_quiet (.refl s)⟩
  | .pltArm _, _ => ⟨_, rfl, issue_quiet pltArm_quiet (.refl s)⟩
  | .wbrConfig _, _ => ⟨_, rfl, issue_quiet wbrConfig_quiet (.refl s)⟩
  | .sessionOpen _, _ => ⟨_, rfl, issue_quiet sessionOpen_quiet (.refl s)⟩
  | .sessionClose _, _ => ⟨_, rfl, issue_quiet sessionClose_quiet (.refl s)⟩
  | .bundleUnwrap _, _ => ⟨_, rfl, issue_quiet bundleUnwrap_quiet (.refl s)⟩
  | .sbxConfig _, _ => ⟨_, rfl, issue_quiet sbxConfig_quiet (.refl s)⟩
  | .sbxReadrec _, _ => ⟨_, rfl, issue_quiet sbxReadrec_quiet (.refl s)⟩
  | .sbxClear _, _ => ⟨_, rfl, issue_quiet sbxClear_quiet (.refl s)⟩
  | .reactSet _, _ => ⟨_, rfl, issue_quiet reactSet_quiet (.refl s)⟩
  | .mtrRead _, _ => ⟨_, rfl, issue_quiet mtrRead_quiet (.refl s)⟩
  | .mtrEvidence _, _ => ⟨_, rfl, issue_quiet mtrEvidence_quiet (.refl s)⟩
  | .mtrMap _, _ => ⟨_, rfl, issue_quiet mtrMap_quiet (.refl s)⟩
  | .ttbSet _, _ => ⟨_, rfl, issue_quiet ttbSet_quiet (.refl s)⟩
  | .inject _, _ => ⟨_, rfl, issue_quiet inject_quiet (.refl s)⟩
  | .selftest _, _ => ⟨_, rfl, issue_quiet selftest_quiet (.refl s)⟩
  | .selftestDone _ _ _, _ => ⟨_, rfl, .when selftestDone_quiet (.refl s)⟩
  | .qWriteApply _, _ => ⟨_, rfl, .when qWriteApply_quiet (.refl s)⟩
  | .ilkPintRc _, _ => ⟨_, rfl, .ite (State.modPart_quiet (setRegData_quiet (.refl s))) (setRegData_quiet (.refl s))⟩
  | .ilkRintRc, _ => ⟨_, rfl, .ite (setRegData_quiet (.upd (.refl s))) (setRegData_quiet (.refl s))⟩
  | .entropyBlock _, _ => ⟨_, rfl, .when entropyBlock_quiet (.refl s)⟩
  | .sbxOccurrenceReceive, _ => ⟨_, rfl, .when occurrenceReceive_quiet (.refl s)⟩
  | .quietPeriodExpire _, _ => ⟨_, rfl, .when (fun h => refresh_quiet (.upd (State.setRec_quiet h))) (.refl s)⟩
  | .cQuietExpire, _ => ⟨_, rfl, by
        split
        · exact .when (fun h => refresh_quiet (.upd h)) (.refl s)
        · exact .refl s⟩
  | .heartbeatToggle, _ => ⟨_, rfl, .when .upd (.refl s)⟩
  | .faultClassIntermediateEnd, _ => ⟨_, rfl, .when .upd (.refl s)⟩
  | .conductorWatchdogExpire _, _ => ⟨_, rfl, .when watchdogExpire_quiet (.refl s)⟩
  | .lockstepMiscompare _, _ => ⟨_, rfl, .when State.raise_quiet (.refl s)⟩
  | .sbxSelfCheckMiscompare, _ => ⟨_, rfl, .when selfCheckMiscompare_quiet (.refl s)⟩
  | .sealClose, _ => ⟨_, rfl, .when sealClosed_quiet (.refl s)⟩
  | .meterClosingRetry, _ => ⟨_, rfl, .when tryClosing_quiet (.refl s)⟩
  | .meterCoreStall, _ => ⟨_, rfl, .when meterRaise_quiet (.refl s)⟩
  | .mtrMapWrite _ _ _, _ => ⟨_, rfl, .when (meterWrite_quiet applyMap_quiet) (.refl s)⟩
  | .ttbCfgWrite _ _, _ => ⟨_, rfl, meterWrite_quiet applyTtbCfg_quiet (.refl s)⟩
  | .mtrImgCtlBegin _ _, _ => ⟨_, rfl, meterWrite_quiet (fun _ h => .ite (emptyStore_quiet h) h) (.refl s)⟩
  | .mtrImgDataWrite _ _, _ => ⟨_, rfl, meterWrite_quiet (fun _ => appendStore_quiet) (.refl s)⟩
  | .registerWriteOther _ _ _, _ => ⟨_, rfl, .when registerWrite_quiet (.refl s)⟩
  | .tklFrameForward _, _ => ⟨_, rfl, .when frameForward_quiet (.refl s)⟩
  | .tklNop _, _ => ⟨_, rfl, tklRow_quiet id (.refl s)⟩
  | .tklEnum _ _, _ => ⟨_, rfl, .when tklEnum_quiet (.refl s)⟩
  | .tklRead _, _ => ⟨_, rfl, tklRow_quiet readChecked_quiet (.refl s)⟩
  | .tklReadCnt _ _, _ => ⟨_, rfl, tklRow_quiet readCnt_quiet (.refl s)⟩
  | .tklReadCntHi _, _ => ⟨_, rfl, tklRow_quiet readCntHi_quiet (.refl s)⟩
  | .tklWrite _, _ => ⟨_, rfl, by
        split
        · exact tklRow_quiet (fun h => inTakeover_quiet writeReg_quiet h) (.refl s)
        · exact .refl s⟩
  | .tklWritePartCreate _, _ => ⟨_, rfl, writeRow_quiet (fun picked _ h => by
        split at picked <;> cases picked
        exact writePartCreate_quiet h) (.refl s)⟩
  | .tklWritePartDetach _, _ => ⟨_, rfl, writeRow_quiet (fun picked _ h => by
        split at picked <;> cases picked
        exact writePartDetach_quiet h) (.refl s)⟩
  | .tklWriteMirror _, _ => ⟨_, rfl, writeRow_quiet (fun picked _ h => by
        split at picked <;> cases picked
        exact writeMirror_quiet h) (.refl s)⟩
  | .tklWriteWindow _, _ => ⟨_, rfl, writeRow_quiet (fun picked _ h => by
        split at picked <;> cases picked
        exact writeWindow_quiet h) (.refl s)⟩
  | .tklWriteSdgCreate _, _ => ⟨_, rfl, writeRow_quiet (fun picked _ h => by
        split at picked <;> cases picked
        exact writeSdgCreate_quiet h) (.refl s)⟩
  | .tklWriteSdgFree _, _ => ⟨_, rfl, by
        split
        · exact tklRow_quiet (fun h => inTakeover_quiet sdgFreeAct_quiet h) (.refl s)
        · exact .refl s⟩
  | .tklWriteStnViewSel _, _ => ⟨_, rfl, writeRow_quiet (fun picked _ h => by
        split at picked <;> cases picked
        exact setTkl_quiet h) (.refl s)⟩
  | .tklTake _, _ => ⟨_, rfl, tklRow_quiet take_quiet (.refl s)⟩
  | .tklGive _, _ => ⟨_, rfl, tklRow_quiet (fun h => inTakeover_quiet give_quiet h) (.refl s)⟩
  | .tklForce _, _ => ⟨_, rfl, tklRow_quiet forceSafe_quiet (.refl s)⟩
  | .tklRelease _, _ => ⟨_, rfl, tklRow_quiet releaseSafe_quiet (.refl s)⟩
  | .tklCommit _, _ => ⟨_, rfl, tklRow_quiet (fun h => inTakeover_quiet tklCommit_quiet h) (.refl s)⟩
  | .tklClearRec _, _ => ⟨_, rfl, tklRow_quiet (fun h => inTakeover_quiet clearRec_quiet h) (.refl s)⟩
  | .tklSetver _, _ => ⟨_, rfl, tklRow_quiet setver_quiet (.refl s)⟩
  | .takeoverLeaseExpire, _ => ⟨_, rfl, .when leaseExpire_quiet (.refl s)⟩

/-! ### The extraordinary commands -/

/-- A steady effect that leaves the meter's configuration and the secrets alone, whether or not it opens the meter. -/
structure Reseals (s t : State) : Prop extends Steady s t where
  config : t.mtr.map = s.mtr.map ∧ t.ttb.cfg = s.ttb.cfg
  secret : t.ilk.rootKey = s.ilk.rootKey ∧ t.ilk.fuses = s.ilk.fuses ∧ t.ilk.identity = s.ilk.identity

namespace Reseals

theorem trans (h : Reseals s t) (g : Reseals t u) : Reseals s u where
  toSteady := h.toSteady.trans g.toSteady
  config := by
    obtain ⟨mapT, cfgT⟩ := h.config
    obtain ⟨mapU, cfgU⟩ := g.config
    exact ⟨mapU.trans mapT, cfgU.trans cfgT⟩
  secret := by
    obtain ⟨keyT, fusesT, idT⟩ := h.secret
    obtain ⟨keyU, fusesU, idU⟩ := g.secret
    exact ⟨keyU.trans keyT, fusesU.trans fusesT, idU.trans idT⟩

theorem pins (h : Reseals s t) (p : Pins) : Reseals s { t with pins := p } :=
  h.trans ⟨⟨rfl, rfl, id⟩, ⟨rfl, rfl⟩, rfl, rfl, rfl⟩

theorem modMeter {f : Meter → Meter} (h : Reseals s t) (hf : ∀ m, (f m).map = m.map := by intro m; rfl) :
    Reseals s (modMeter f t) :=
  h.trans ⟨⟨rfl, rfl, id⟩, ⟨hf _, rfl⟩, rfl, rfl, rfl⟩

theorem ite {c : Prop} [Decidable c] (h : Reseals s t) (g : Reseals s u) : Reseals s (if c then t else u) := by
  split
  · exact h
  · exact g

/-- What is quiet from a meter that is not open. -/
theorem ofQuiet (h : Reseals s t) (closed : meterOpen t = false) (g : Quiet t u) : Reseals s u :=
  h.trans ⟨g.toSteady, (g.sealed closed).2, g.secret⟩

end Reseals

theorem Reseals.refl (s : State) : Reseals s s := ⟨.refl s, ⟨rfl, rfl⟩, rfl, rfl, rfl⟩

theorem meterRaise_config (c e d : Nat) (s : State) :
    (meterRaise c e d s).mtr.map = s.mtr.map ∧ (meterRaise c e d s).ttb.cfg = s.ttb.cfg := by
  unfold meterRaise
  split
  · rcases s.post_cases (occ 2 c e d) with ⟨-, h⟩ | ⟨-, h⟩ <;> rw [State.raise, h] <;> exact ⟨rfl, rfl⟩
  · exact ⟨rfl, rfl⟩

theorem audit_config (k d : Nat) (s : State) :
    (audit k d s).mtr.map = s.mtr.map ∧ (audit k d s).ttb.cfg = s.ttb.cfg := by
  unfold audit
  extract_lets m a s1
  split
  · exact ⟨rfl, rfl⟩
  · exact meterRaise_config ..

theorem audit_reseals (h : Reseals s t) : Reseals s (audit k d t) :=
  have quiet := audit_quiet (a1 := k) (a2 := d) (.refl t)
  h.trans ⟨quiet.toSteady, audit_config .., quiet.secret⟩

theorem openSeal_reseals (h : Reseals s t) : Reseals s (openSeal t) := by
  unfold openSeal
  exact .modMeter (audit_reseals (.modMeter h))

theorem closeSeal_reseals (h : Reseals s t) : Reseals s (closeSeal t) := by
  unfold closeSeal
  refine .ite (.ofQuiet (.modMeter h) ?_ (tryClosing_quiet (.refl _))) h
  simp [meterOpen, modMeter]

theorem sealOpened_reseals (h : Reseals s t) : Reseals s (sealOpened t) := by
  unfold sealOpened
  exact .ite h (.ite (openSeal_reseals (.modMeter h)) (.modMeter h))

theorem meterReady_reseals (h : Reseals s t) : Reseals s (meterReady t) := by
  unfold meterReady
  exact .modMeter (audit_reseals (.modMeter h))

theorem chooseImage_map (m : Meter) : (chooseImage m).map = m.map := by
  unfold chooseImage
  split <;> rfl

theorem meterRelease_reseals (h : Reseals s t) : Reseals s (meterRelease t) := by
  unfold meterRelease
  extract_lets s1 s2
  have h1 : Reseals s s1 := .modMeter h fun _ => chooseImage_map _
  have h2 : Reseals s s2 := audit_reseals h1
  exact .ite (.ite (openSeal_reseals h2) (.ite (closeSeal_reseals h2) h2)) h1

/-- A steady effect that may change the secrets and leaves the meter's configuration alone, which it does not open. -/
structure Rekeys (s t : State) : Prop extends Steady s t where
  sealed : meterOpen s = false → meterOpen t = false ∧ t.mtr.map = s.mtr.map ∧ t.ttb.cfg = s.ttb.cfg

namespace Rekeys

theorem refl (s : State) : Rekeys s s := ⟨.refl s, fun closed => ⟨closed, rfl, rfl⟩⟩

theorem trans (h : Rekeys s t) (g : Rekeys t u) : Rekeys s u where
  toSteady := h.toSteady.trans g.toSteady
  sealed closed := by
    obtain ⟨closedT, mapT, cfgT⟩ := h.sealed closed
    obtain ⟨closedU, mapU, cfgU⟩ := g.sealed closedT
    exact ⟨closedU, mapU.trans mapT, cfgU.trans cfgT⟩

theorem quiet (h : Rekeys s t) (g : Quiet t u) : Rekeys s u := h.trans ⟨g.toSteady, g.sealed⟩

theorem ilk (h : Rekeys s t) (x : Interlock) : Rekeys s { t with ilk := x } :=
  h.trans ⟨⟨rfl, rfl, id⟩, fun closed => ⟨closed, rfl, rfl⟩⟩

theorem ite {c : Prop} [Decidable c] (h : Rekeys s t) (g : Rekeys s u) : Rekeys s (if c then t else u) := by
  split
  · exact h
  · exact g

end Rekeys

theorem fusesRead_rekeys (h : Rekeys s t) : Rekeys s (fusesRead t) := by
  unfold fusesRead
  extract_lets pins s1 key ilk s2
  have h2 : Rekeys s s2 := .ilk (h.quiet (.upd (.refl t))) _
  exact .ite (h2.quiet (startBoot_quiet (.refl _))) h2

theorem fuseWord_rekeys (h : Rekeys s t) : Rekeys s (fuseWord d t) := by
  unfold fuseWord
  extract_lets a ilk s1
  have h1 : Rekeys s s1 := .ite (.ilk h _) h
  exact .ite (h1.quiet (.upd (.refl _))) (fusesRead_rekeys h1)

theorem enterTest_rekeys (h : Rekeys s t) : Rekeys s (enterTest code t) := by
  unfold enterTest
  extract_lets s1 s2 zero ilk s3
  have h1 : Quiet t s1 := .forEach (fun h => .ite (dropSession_quiet h) h) (.refl t)
  have h3 : Rekeys s s3 := .ilk (h.quiet (.forEach freeKey_quiet h1)) _
  exact h3.quiet (audit_quiet (.refl _))

theorem wrapperUpdate_rekeys (h : Rekeys s t) : Rekeys s (wrapperUpdate code t) := by
  unfold wrapperUpdate
  extract_lets ran pins s1 s2 s3
  have h1 : Rekeys s s1 := h.quiet (.upd (.refl t))
  have h2 : Rekeys s s2 := .ite h1 (enterTest_rekeys h1)
  have h3 : Rekeys s s3 := .ite (h2.quiet (destroyMemory_quiet (.refl _))) h2
  exact .ite h3 (h3.quiet (deliverMeter_quiet (.refl _)))

/-- The commands of a meter core that starts or whose seal opens. -/
def Sealing (c : Instr) : Prop := c = .porstRelease ∨ c = .meterReady ∨ c = .mtrRstRelease ∨ c = .sealOpen

/-- The commands that write the secrets of the Interlocking. -/
def Keying (c : Instr) : Prop := (∃ d, c = .fuseWordSample d) ∨ ∃ x, c = .wrapperInstructionUpdate x

theorem exec_reseals {c : Instr} (hc : Sealing c) (s : State) : ∃ t, exec c s = .next t ∧ Reseals s t := by
  rcases hc with rfl | rfl | rfl | rfl
  · exact ⟨_, rfl, .ite (.refl s) (.pins (.refl s) _)⟩
  · exact ⟨_, rfl, .ite (meterReady_reseals (.refl s)) (.refl s)⟩
  · exact ⟨_, rfl, .ite (meterRelease_reseals (.pins (.refl s) _)) (.pins (.refl s) _)⟩
  · exact ⟨_, rfl, .ite (sealOpened_reseals (.refl s)) (.refl s)⟩

theorem exec_rekeys {c : Instr} (hc : Keying c) (s : State) : ∃ t, exec c s = .next t ∧ Rekeys s t := by
  rcases hc with ⟨d, rfl⟩ | ⟨x, rfl⟩
  · exact ⟨_, rfl, .ite (fuseWord_rekeys (.refl s)) (.refl s)⟩
  · exact ⟨_, rfl, .ite (wrapperUpdate_rekeys (.refl s)) (.refl s)⟩

/-- Every command is ordinary, of the seal, of the keys, or the assertion of PORST_N. -/
theorem instr_kinds (c : Instr) : Ordinary c ∨ Sealing c ∨ Keying c ∨ c = .porstAssert := by
  cases c
  case porstAssert => exact .inr (.inr (.inr rfl))
  case porstRelease => exact .inr (.inl (.inl rfl))
  case meterReady => exact .inr (.inl (.inr (.inl rfl)))
  case mtrRstRelease => exact .inr (.inl (.inr (.inr (.inl rfl))))
  case sealOpen => exact .inr (.inl (.inr (.inr (.inr rfl))))
  case fuseWordSample d => exact .inr (.inr (.inl (.inl ⟨d, rfl⟩)))
  case wrapperInstructionUpdate x => exact .inr (.inr (.inl (.inr ⟨x, rfl⟩)))
  all_goals exact .inl trivial

/-- PORST_N clears both stores. -/
theorem porstAssert_steady (s : State) : Steady s (porstAssert s) := ⟨rfl, rfl, fun _ => rfl⟩

/-- Every command answers a next state, and each is steady. -/
theorem exec_steady (c : Instr) (s : State) : ∃ t, exec c s = .next t ∧ Steady s t := by
  rcases instr_kinds c with hc | hc | hc | rfl
  · obtain ⟨t, ht, quiet⟩ := exec_quiet hc s
    exact ⟨t, ht, quiet.toSteady⟩
  · obtain ⟨t, ht, reseals⟩ := exec_reseals hc s
    exact ⟨t, ht, reseals.toSteady⟩
  · obtain ⟨t, ht, rekeys⟩ := exec_rekeys hc s
    exact ⟨t, ht, rekeys.toSteady⟩
  · exact ⟨_, rfl, porstAssert_steady s⟩

end Sys2Proof.Machine
end

section
open Sys2Proof Sys2Proof.Machine Sys2Proof.Claims

/-- Settles O1: both halves are `step` read off its definition. -/
theorem stepRunsFront : Obligations.StepRunsFront := by
  refine ⟨fun c r s => rfl, fun s empty => ?_⟩
  rw [step, empty]

/-- Settles O2: every command is steady (`exec_steady`). -/
theorem everyCommandCompletes : Obligations.EveryCommandCompletes := by
  intro c s
  obtain ⟨t, ht, steady⟩ := exec_steady c s
  exact ⟨t, ht, steady.pending, steady.params⟩

/-- A run whose first step answers a next state goes on from there. -/
theorem run_succ {M : Host.Core} {s t : M.State} (k : Nat) (h : M.step s = .next t) : M.run (k + 1) s = M.run k t := by
  simp only [Host.Core.run, h]

/-- Settles O3, by induction on the number of steps: each takes the front command, which leaves the rest of the queue
alone (`exec_steady`). -/
theorem queueDrains : Obligations.QueueDrains := by
  intro s k
  induction k generalizing s with
  | zero => exact fun _ => ⟨s, rfl, rfl, rfl⟩
  | succ k ih =>
    intro hk
    obtain ⟨c, rest, hq⟩ := List.exists_cons_of_length_pos (Nat.zero_lt_of_lt hk)
    obtain ⟨t, ht, steady⟩ := exec_steady c { s with pending := rest }
    have stepped : core.step s = .next t := by
      change step s = .next t
      rw [step, hq]
      exact ht
    have hkt : k ≤ t.pending.length := by
      rw [steady.pending]
      simpa [hq] using hk
    obtain ⟨u, hu, pendU, paramsU⟩ := ih t hkt
    refine ⟨u, ?_, ?_, paramsU.trans steady.params⟩
    · exact (run_succ k stepped).trans hu
    · rw [pendU, steady.pending, hq]
      rfl

/-- Settles O4: a step runs one command, which keeps both stores canonical (`exec_steady`). -/
theorem storesStayCanonical : Obligations.StoresStayCanonical := by
  intro s t canon stepped
  unfold step at stepped
  split at stepped
  · obtain rfl := Host.Outcome.next.inj stepped
    exact canon
  · next c rest _ =>
    obtain ⟨u, hu, steady⟩ := exec_steady c { s with pending := rest }
    obtain rfl := Host.Outcome.next.inj (hu.symm.trans stepped)
    exact steady.stores canon

/-- Settles O5: both stores are empty, and every array of the reset state is a list of known length. -/
theorem resetIsCanonical : Obligations.ResetIsCanonical := by
  refine ⟨rfl, ?_⟩
  simp only [State.shaped, State.reset, Junction.reset, Yard.reset, Ledger.reset, Sidings.reset, Checker.reset,
    Pilot.reset, Weigh.reset, Interlock.reset, Dispatcher.reset, SignalBox.reset, Meter.reset, Export.reset,
    List.length_replicate, List.length_map, List.length_range, beq_self_eq_true, Bool.and_true]

/-- Settles O7: an ordinary command is quiet, a command of the seal or of the keys leaves the configuration alone. -/
theorem sealGuardsConfiguration : Obligations.SealGuardsConfiguration := by
  intro c s t notPorst closed ht
  rcases instr_kinds c with hc | hc | hc | rfl
  · obtain ⟨u, hu, quiet⟩ := exec_quiet hc s
    obtain rfl := Host.Outcome.next.inj (hu.symm.trans ht)
    exact (quiet.sealed closed).2
  · obtain ⟨u, hu, reseals⟩ := exec_reseals hc s
    obtain rfl := Host.Outcome.next.inj (hu.symm.trans ht)
    exact reseals.config
  · obtain ⟨u, hu, rekeys⟩ := exec_rekeys hc s
    obtain rfl := Host.Outcome.next.inj (hu.symm.trans ht)
    exact (rekeys.sealed closed).2
  · exact absurd rfl notPorst

/-- Settles O8: an ordinary command and a command of the seal leave the secrets alone. -/
theorem rootKeyIsolated : Obligations.RootKeyIsolated := by
  intro c s t notFuse notWrapper notPorst ht
  rcases instr_kinds c with hc | hc | hc | rfl
  · obtain ⟨u, hu, quiet⟩ := exec_quiet hc s
    obtain rfl := Host.Outcome.next.inj (hu.symm.trans ht)
    exact quiet.secret
  · obtain ⟨u, hu, reseals⟩ := exec_reseals hc s
    obtain rfl := Host.Outcome.next.inj (hu.symm.trans ht)
    exact reseals.secret
  · rcases hc with ⟨d, rfl⟩ | ⟨x, rfl⟩
    · exact absurd rfl (notFuse d)
    · exact absurd rfl (notWrapper x)
  · exact absurd rfl notPorst

end

section
/-! PROOFS. Block time after the first boundary (R73): the premises of the statement bound the time and its fraction,
and leave the learned frequency error free. -/

namespace Sys2Proof.Machine

/-- A Timetable at 1 ns whose learned frequency error makes one TIME_CLK period 2^64 − 1 ns long. -/
def runawayTimetable : Timetable :=
  { Timetable.reset with time := 1, anyBoundary := true, freqCorr := 1000000000 - (2 ^ 64 - 1) * 100000000 }

/-- The block out of reset with that Timetable. -/
def runawayState : State :=
  { State.reset with ttb := runawayTimetable, pins := { Pins.reset with porstN := true } }

end Sys2Proof.Machine
end

section
open Sys2Proof Sys2Proof.Machine Sys2Proof.Claims

/-- Refutes O6: nothing bounds the learned frequency error, so one TIME_CLK period can carry block time past its 64
bits: from 1 ns a period of 2^64 − 1 ns ends at 0. -/
theorem not_timeNeverGoesBack : ¬ Obligations.TimeNeverGoesBack := by
  unfold Obligations.TimeNeverGoesBack
  intro h
  have unit : accUnit runawayTimetable = 100000000000 := by decide
  have back : (timeAdvance 0 false (pilotSettle runawayState)).ttb.time = 0 := by decide
  have forward := h (.timeAdvance 0 false) runawayState _ (by simp) rfl (by decide) (by decide)
    (exec_timeAdvance 0 false rfl)
  exact absurd (forward.trans_eq back) (by decide)

end

section
/-! PROOFS. Shared steps of the proofs below: an occurrence while the core runs. -/

namespace Sys2Proof.Machine

open Sys2Proof.Claims

theorem State.post_core {s : State} (h : s.core = true) (o : Occurrence) :
    s.post o = { s with sbx := { s.sbx with inbox := s.sbx.inbox ++ [received s o] } } := by
  simp [State.post, h, State.now]

theorem State.raise_core {s : State} (h : s.core = true) (sub cause engine detail : Nat) (ctxs : List Nat) :
    s.raise sub cause engine detail ctxs =
      { s with sbx := { s.sbx with inbox := s.sbx.inbox ++ [received s (occ sub cause engine detail ctxs)] } } :=
  State.post_core h _

end Sys2Proof.Machine
end

section
/-! PROOFS. The fields of a word: what a field reads in a word packed from fields, and after one field was put. -/

namespace Sys2Proof.Machine

/-! ### A word packed from fields -/

/-- The fields of a list lie one below the other, all below bit `top`. -/
def Laid : Nat → List (Nat × Nat × Nat) → Prop
  | _, [] => True
  | top, (lo, len, _) :: r => lo + len ≤ top ∧ Laid lo r

theorem packN_lt {top : Nat} {fs : List (Nat × Nat × Nat)} (h : Laid top fs) : packN fs < 2 ^ top := by
  induction fs generalizing top with
  | nil => exact Nat.two_pow_pos top
  | cons f r ih =>
    obtain ⟨lo, len, v⟩ := f
    obtain ⟨fits, rest⟩ := h
    have low := ih rest
    have value : v % 2 ^ len + 1 ≤ 2 ^ len := Nat.mod_lt _ (Nat.two_pow_pos len)
    calc packN ((lo, len, v) :: r) < (v % 2 ^ len + 1) * 2 ^ lo := by
          rw [packN, Nat.add_mul, Nat.one_mul]
          exact Nat.add_lt_add_left low _
      _ ≤ 2 ^ len * 2 ^ lo := Nat.mul_le_mul_right _ value
      _ ≤ 2 ^ top := by
          rw [← pow_add, Nat.add_comm]
          exact Nat.pow_le_pow_right (by omega) fits

/-- A field of a packed number reads its value. -/
theorem field_packN {top lo len v : Nat} {fs : List (Nat × Nat × Nat)} (h : Laid top fs) (mem : (lo, len, v) ∈ fs) :
    packN fs / 2 ^ lo % 2 ^ len = v % 2 ^ len := by
  induction fs generalizing top with
  | nil => cases mem
  | cons f r ih =>
    obtain ⟨lo', len', v'⟩ := f
    obtain ⟨-, rest⟩ := h
    rcases List.mem_cons.mp mem with same | mem
    · cases same
      rw [packN, Nat.mul_comm, Nat.mul_add_div (Nat.two_pow_pos lo), Nat.div_eq_of_lt (packN_lt rest), Nat.add_zero,
        Nat.mod_mod]
    · have below : lo + len ≤ lo' := laid_below rest mem
      have split : (2 : Nat) ^ lo' = 2 ^ lo * (2 ^ len * 2 ^ (lo' - lo - len)) := by
        rw [← pow_add, ← pow_add]
        congr 1
        omega
      rw [packN, split, show v' % 2 ^ len' * (2 ^ lo * (2 ^ len * 2 ^ (lo' - lo - len))) =
          2 ^ lo * (2 ^ len * (2 ^ (lo' - lo - len) * (v' % 2 ^ len'))) by ring,
        Nat.mul_add_div (Nat.two_pow_pos lo), Nat.mul_add_mod]
      exact ih rest mem
where
  laid_below {top lo len v : Nat} {fs : List (Nat × Nat × Nat)} (h : Laid top fs) (mem : (lo, len, v) ∈ fs) :
      lo + len ≤ top := by
    induction fs generalizing top with
    | nil => cases mem
    | cons f r ih =>
      obtain ⟨lo', len', v'⟩ := f
      obtain ⟨fits, rest⟩ := h
      rcases List.mem_cons.mp mem with same | mem
      · cases same
        exact fits
      · have := ih rest mem
        omega

/-- A field of a packed word reads its value. -/
theorem fld_pack {lo len v : Nat} {fs : List (Nat × Nat × Nat)} (h : Laid 64 fs) (mem : (lo, len, v) ∈ fs) :
    fld (pack fs) lo len = v % 2 ^ len := by
  rw [fld, pack, BitVec.toNat_ofNat, Nat.mod_eq_of_lt (packN_lt h), field_packN h mem]

theorem bit_eq_fld (w : Word) (i : Nat) : bit w i = decide (fld w i 1 = 1) := by
  rw [bit, fld, BitVec.getLsbD, Nat.testBit_eq_decide_div_mod_eq, pow_one]

theorem bit_pack {lo v : Nat} {fs : List (Nat × Nat × Nat)} (h : Laid 64 fs) (mem : (lo, 1, v) ∈ fs) :
    bit (pack fs) lo = decide (v % 2 = 1) := by
  rw [bit_eq_fld, fld_pack h mem, pow_one]

theorem fld_lt (w : Word) (lo len : Nat) : fld w lo len < 2 ^ len := Nat.mod_lt _ (Nat.two_pow_pos len)

/-! ### A word with one field put -/

theorem put_toNat (w : Word) {lo len : Nat} (v : Nat) (h : lo + len ≤ 64) :
    (put w lo len v).toNat =
      w.toNat / 2 ^ (lo + len) * 2 ^ (lo + len) + (v % 2 ^ len * 2 ^ lo + w.toNat % 2 ^ lo) := by
  have word := w.isLt
  have value : v % 2 ^ len + 1 ≤ 2 ^ len := Nat.mod_lt _ (Nat.two_pow_pos len)
  have low : w.toNat % 2 ^ lo < 2 ^ lo := Nat.mod_lt _ (Nat.two_pow_pos lo)
  have halves := Nat.div_add_mod w.toNat (2 ^ lo)
  have upper := Nat.div_add_mod (w.toNat / 2 ^ lo) (2 ^ len)
  rw [Nat.div_div_eq_div_mul, ← pow_add] at upper
  have whole : w.toNat =
      w.toNat / 2 ^ (lo + len) * 2 ^ (lo + len) + fld w lo len * 2 ^ lo + w.toNat % 2 ^ lo := by
    rw [fld]
    calc w.toNat = 2 ^ lo * (w.toNat / 2 ^ lo) + w.toNat % 2 ^ lo := halves.symm
      _ = 2 ^ lo * (2 ^ len * (w.toNat / 2 ^ (lo + len)) + w.toNat / 2 ^ lo % 2 ^ len) + w.toNat % 2 ^ lo := by
          rw [upper]
      _ = _ := by rw [pow_add]; ring
  have bound : w.toNat / 2 ^ (lo + len) * 2 ^ (lo + len) + (v % 2 ^ len * 2 ^ lo + w.toNat % 2 ^ lo) < 2 ^ 64 := by
    have room : v % 2 ^ len * 2 ^ lo + 2 ^ lo ≤ 2 ^ (lo + len) := by
      calc v % 2 ^ len * 2 ^ lo + 2 ^ lo = (v % 2 ^ len + 1) * 2 ^ lo := by ring
        _ ≤ 2 ^ len * 2 ^ lo := Nat.mul_le_mul_right _ value
        _ = 2 ^ (lo + len) := by rw [← pow_add, Nat.add_comm]
    have count : w.toNat / 2 ^ (lo + len) + 1 ≤ 2 ^ (64 - (lo + len)) := by
      refine Nat.div_lt_of_lt_mul ?_
      rwa [← pow_add, Nat.add_sub_cancel' h]
    calc w.toNat / 2 ^ (lo + len) * 2 ^ (lo + len) + (v % 2 ^ len * 2 ^ lo + w.toNat % 2 ^ lo)
        < (w.toNat / 2 ^ (lo + len) + 1) * 2 ^ (lo + len) := by rw [Nat.add_mul]; omega
      _ ≤ 2 ^ (64 - (lo + len)) * 2 ^ (lo + len) := Nat.mul_le_mul_right _ count
      _ = 2 ^ 64 := by rw [← pow_add, Nat.sub_add_cancel h]
  have cleared : w.toNat - fld w lo len * 2 ^ lo =
      w.toNat / 2 ^ (lo + len) * 2 ^ (lo + len) + w.toNat % 2 ^ lo := by omega
  rw [put, BitVec.toNat_ofNat, cleared, Nat.add_assoc, Nat.add_comm (w.toNat % 2 ^ lo), Nat.mod_eq_of_lt bound]

/-- A field put reads its value. -/
theorem fld_put_self (w : Word) {lo len : Nat} (v : Nat) (h : lo + len ≤ 64) :
    fld (put w lo len v) lo len = v % 2 ^ len := by
  have low : w.toNat % 2 ^ lo < 2 ^ lo := Nat.mod_lt _ (Nat.two_pow_pos lo)
  have shape : w.toNat / 2 ^ (lo + len) * 2 ^ (lo + len) + (v % 2 ^ len * 2 ^ lo + w.toNat % 2 ^ lo) =
      2 ^ lo * (2 ^ len * (w.toNat / 2 ^ (lo + len)) + v % 2 ^ len) + w.toNat % 2 ^ lo := by rw [pow_add]; ring
  rw [fld, put_toNat w v h, shape, Nat.mul_add_div (Nat.two_pow_pos lo), Nat.div_eq_of_lt low, Nat.add_zero,
    Nat.mul_add_mod, Nat.mod_mod]

/-- A field below the one that is put reads as before. -/
theorem fld_put_below (w : Word) {lo len : Nat} (v : Nat) {lo' len' : Nat} (h : lo + len ≤ 64)
    (below : lo' + len' ≤ lo) : fld (put w lo len v) lo' len' = fld w lo' len' := by
  have low : ∀ x : Nat, x % 2 ^ lo / 2 ^ lo' % 2 ^ len' = x / 2 ^ lo' % 2 ^ len' := by
    intro x
    have split : (2 : Nat) ^ lo = 2 ^ lo' * (2 ^ len' * 2 ^ (lo - lo' - len')) := by
      rw [← pow_add, ← pow_add]
      congr 1
      omega
    rw [split, Nat.mod_mul_right_div_self, Nat.mod_mul_right_mod]
  have shape : w.toNat / 2 ^ (lo + len) * 2 ^ (lo + len) + (v % 2 ^ len * 2 ^ lo + w.toNat % 2 ^ lo) =
      2 ^ lo * (2 ^ len * (w.toNat / 2 ^ (lo + len)) + v % 2 ^ len) + w.toNat % 2 ^ lo := by rw [pow_add]; ring
  rw [fld, fld, put_toNat w v h, shape, ← low, Nat.mul_add_mod, Nat.mod_mod, low]

/-- A field above the one that is put reads as before. -/
theorem fld_put_above (w : Word) {lo len : Nat} (v : Nat) {lo' len' : Nat} (h : lo + len ≤ 64)
    (above : lo + len ≤ lo') : fld (put w lo len v) lo' len' = fld w lo' len' := by
  have value : v % 2 ^ len + 1 ≤ 2 ^ len := Nat.mod_lt _ (Nat.two_pow_pos len)
  have low : w.toNat % 2 ^ lo < 2 ^ lo := Nat.mod_lt _ (Nat.two_pow_pos lo)
  have room : v % 2 ^ len * 2 ^ lo + w.toNat % 2 ^ lo < 2 ^ (lo + len) := by
    calc v % 2 ^ len * 2 ^ lo + w.toNat % 2 ^ lo < (v % 2 ^ len + 1) * 2 ^ lo := by rw [Nat.add_mul]; omega
      _ ≤ 2 ^ len * 2 ^ lo := Nat.mul_le_mul_right _ value
      _ = 2 ^ (lo + len) := by rw [← pow_add, Nat.add_comm]
  have high : ∀ x : Nat, x / 2 ^ lo' = x / 2 ^ (lo + len) / 2 ^ (lo' - (lo + len)) := by
    intro x
    rw [Nat.div_div_eq_div_mul, ← pow_add, Nat.add_sub_cancel' above]
  rw [fld, fld, put_toNat w v h, high, Nat.mul_comm (w.toNat / 2 ^ (lo + len)), Nat.mul_add_div (Nat.two_pow_pos _),
    Nat.div_eq_of_lt room, Nat.add_zero, ← high]

end Sys2Proof.Machine
end

section
/-! PROOFS. O11: the register port. A whole word written replaces the word; a refused write of the Sealed Meter page
joins or starts an audit record and raises 2/0x16, and no more. -/

namespace Sys2Proof.Machine

open Sys2Proof.Claims

/-! ### Bytes of a word -/

theorem ofLe_bytes (n v : Nat) :
    ofLe ((List.range n).map fun i => BitVec.ofNat 8 (v / 2 ^ (8 * i) % 2 ^ 8)) = v % 2 ^ (8 * n) := by
  induction n generalizing v with
  | zero => simp [ofLe, Nat.mod_one]
  | succ n ih =>
    have byte : ∀ i, v / 2 ^ (8 * (i + 1)) = v / 256 / 2 ^ (8 * i) := by
      intro i
      rw [Nat.div_div_eq_div_mul, show 8 * (i + 1) = 8 + 8 * i by ring, pow_add, show (2 : Nat) ^ 8 = 256 from rfl]
    have rest := ih (v / 256)
    simp only [List.range_succ_eq_map, List.map_cons, List.map_map, ofLe, Function.comp_def, byte, rest]
    have split := Nat.mod_mul (x := v) (a := 256) (b := 2 ^ (8 * n))
    rw [show 8 * (n + 1) = 8 + 8 * n by ring, pow_add, show (2 : Nat) ^ 8 = 256 from rfl, split]
    simp

/-- All eight bytes enabled, the new word stands. -/
@[simp] theorem mergeBytes_all (old new : Word) : mergeBytes old new 0xFF = new := by
  have all : ∀ i < 8, (0xFF : BitVec 8).getLsbD i = true := by decide
  have eq : ((List.range 8).map fun i =>
      if (0xFF : BitVec 8).getLsbD i then BitVec.ofNat 8 (fld new (8 * i) 8) else BitVec.ofNat 8 (fld old (8 * i) 8))
      = (List.range 8).map fun i => BitVec.ofNat 8 (new.toNat / 2 ^ (8 * i) % 2 ^ 8) :=
    List.map_congr_left fun i hi => by simp only [all i (List.mem_range.mp hi), if_true, fld]
  rw [mergeBytes, eq, ofLe_bytes]
  exact BitVec.eq_of_toNat_eq (by simpa using new.isLt)

/-! ### The register port -/

/-- The address of LDG_UREAD_SEL of partition `p`. -/
theorem registerWrite_user (s : State) (p : Nat) (w : Word) (hp : p < 16) :
    registerWrite (0x200000 + 0x10000 * p) w 0xFF s =
      { s with ldg := { s.ldg with userSel := s.ldg.userSel.set p (pack [(0, 21, fld w 0 21)]) } } := by
  have page : (0x200000 + 0x10000 * p - 0x200000) / 0x10000 = p := by omega
  have addr : 0x200000 ≤ 0x200000 + 0x10000 * p ∧ p < 16 ∧ (0x200000 + 0x10000 * p) % 0x10000 = 0 := by omega
  simp only [registerWrite, page, addr, mergeBytes_all]
  rfl

theorem registerWrite_other (s : State) {a : Nat} (w : Word) (be : BitVec 8)
    (ha : ∀ p < 16, a ≠ 0x200000 + 0x10000 * p) :
    registerWrite a w be s = if a / 0x10000 = 0x30 then meterWrite be id s else s := by
  have notUser : ¬ (0x200000 ≤ a ∧ (a - 0x200000) / 0x10000 < 16 ∧ a % 0x10000 = 0) := by
    rintro ⟨h1, h2, h3⟩
    exact ha _ h2 (by omega)
  simp only [registerWrite, notUser, if_false]

/-! ### A refused write -/

theorem audit_head (k d : Nat) (s : State) :
    ((audit k d s).mtr.audit.head?.map fun x => (x.kind, x.detail)) = some (k, d % 2 ^ 64) := by
  have mtr : ∀ (t : State) (c e v : Nat), (meterRaise c e v t).mtr.audit = t.mtr.audit := by
    intro t c e v
    unfold meterRaise
    split
    · rw [State.raise_core (by assumption)]
    · rfl
  unfold audit
  extract_lets m a s1
  have head : (s1.mtr.audit.head?.map fun x => (x.kind, x.detail)) = some (k, d % 2 ^ 64) := rfl
  split
  · exact head
  · rw [mtr, head]

/-- A merged refusal stands first, of the same source. -/
theorem mergeRefusal_head {src : Nat} {m m' : Meter} (e : mergeRefusal src m = some m') :
    m'.audit.head?.map (fun x => (x.kind, x.detail / 2 ^ 62)) = some (8, src) := by
  unfold mergeRefusal at e
  split at e
  · split at e
    · rename_i a r _ same
      obtain rfl := Option.some.inj e
      have low : sat 32 (a.detail % 2 ^ 32 + 1) < 2 ^ 62 := by unfold sat; omega
      simp only [chained, List.head?_cons, Option.map_some, Option.some.injEq, Prod.mk.injEq]
      exact ⟨same.1, by omega⟩
    · cases e
  · cases e

/-- An audit record leaves the meter's configuration, state and tallies, and block time. -/
theorem audit_meter (k d : Nat) (s : State) :
    (audit k d s).mtr.map = s.mtr.map ∧ (audit k d s).mtr.state = s.mtr.state ∧
      (audit k d s).mtr.tally = s.mtr.tally ∧ (audit k d s).ttb = s.ttb ∧ (audit k d s).core = s.core := by
  unfold audit
  extract_lets m a s1
  split
  · exact ⟨rfl, rfl, rfl, rfl, rfl⟩
  · unfold meterRaise
    split
    · rw [State.raise_core (by assumption)]
      exact ⟨rfl, rfl, rfl, rfl, rfl⟩
    · exact ⟨rfl, rfl, rfl, rfl, rfl⟩

/-- What a refused write at the register port leaves behind (R323). -/
theorem refuseWrite_port (s : State) (h : s.core = true) :
    ((refuseWrite 1 s).mtr.audit.head?.map fun x => (x.kind, x.detail / 2 ^ 62)) = some (8, 1) ∧
      ((refuseWrite 1 s).mtr.map, (refuseWrite 1 s).mtr.state, (refuseWrite 1 s).mtr.tally, (refuseWrite 1 s).ttb) =
        (s.mtr.map, s.mtr.state, s.mtr.tally, s.ttb) ∧
      ∃ o ∈ (refuseWrite 1 s).sbx.inbox, (o.sub, o.cause) = (2, 0x16) := by
  unfold refuseWrite
  extract_lets r
  obtain ⟨head, frame, core⟩ :
      (r.mtr.audit.head?.map fun x => (x.kind, x.detail / 2 ^ 62)) = some (8, 1) ∧
      (r.mtr.map, r.mtr.state, r.mtr.tally, r.ttb) = (s.mtr.map, s.mtr.state, s.mtr.tally, s.ttb) ∧
      r.core = true := by
    simp only [r]
    split
    · rename_i m' merged
      have only := mergeRefusal_eq merged
      refine ⟨mergeRefusal_head merged, ?_, h⟩
      rw [only]
    · obtain ⟨hmap, hstate, htally, httb, hcore⟩ := audit_meter 8 (1 * 2 ^ 62 + 1) s
      refine ⟨?_, by rw [hmap, hstate, htally, httb], hcore.trans h⟩
      obtain ⟨x, first, fields⟩ := Option.map_eq_some_iff.mp (audit_head 8 (1 * 2 ^ 62 + 1) s)
      obtain ⟨kind, detail⟩ := Prod.mk.inj fields
      rw [first, Option.map_some, kind, detail]
      norm_num
  rw [meterRaise, if_pos core, State.raise_core core]
  exact ⟨head, frame, received r (occ 2 0x16 0 (1 * 2 ^ 62 + 1)), by simp, rfl⟩

end Sys2Proof.Machine
end

section
open Sys2Proof Sys2Proof.Machine Sys2Proof.Claims

theorem Sys2Proof.Claims.registerWrites : RegisterWrites := by
  refine ⟨?_, ?_, ?_⟩
  · intro s a w p core hp ha
    have write := registerWrite_user s p w hp
    rw [← ha] at write
    simp only [exec, execRegisterWriteOther, core, when_true, write]
    rfl
  · intro s a w be core notUser ignored
    simp only [exec, execRegisterWriteOther, core, when_true, registerWrite_other s w be notUser]
    split
    · rename_i page
      by_cases whole : be = 0xFF#8
      · have isOpen : meterOpen s = true := by
          rcases ignored with h | h | h
          · exact absurd page h
          · exact h
          · exact absurd whole h
        simp only [meterWrite, isOpen]
        split <;> rfl
      · simp [meterWrite, whole, next]
    · rfl
  · intro s a w core page closed
    have notUser : ∀ p < 16, a.toNat ≠ 0x200000 + 0x10000 * p := by
      intro p hp h
      omega
    refine ⟨_, rfl, ?_⟩
    simp only [core, when_true, registerWrite_other s w _ notUser, page, meterWrite, closed]
    exact refuseWrite_port s core

theorem Sys2Proof.Claims.stationView : StationView := by
  intro s n core
  simp [exec, execStnViewSelRead, stnViewSelRead, core, setRegData, next]

theorem Sys2Proof.Claims.interruptWords : InterruptWords := by
  refine ⟨?_, ?_⟩
  · intro s p core
    simp [exec, execIlkPintRc, core, setRegData, next, State.modPart, nat64]
  · intro s core
    simp [exec, execIlkRintRc, core, setRegData, next, nat64]

/-- Settles O11: a write stores the user field, changes nothing, or is refused; a read of the view and of an
interrupt word is its definition. -/
theorem registerPort : Obligations.RegisterPort := ⟨registerWrites, stationView, interruptWords⟩
end

section
/-! PROOFS. O13: the reference of time (R75, R77, R79). -/

namespace Sys2Proof.Machine

theorem sat16_eq (n : Nat) : sat 16 n = min 65535 n := rfl

theorem State.timeRuns_of_core {s : State} (h : s.core = true) : s.timeRuns = true := by
  simp only [State.core, State.stationsRun, Bool.and_eq_true] at h
  exact h.1.1.1

/-! ### A TIME_CLK edge -/

theorem timeAdvance_invalid (timeNs : Nat) (s : State) :
    timeAdvance timeNs false s = { s with ttb := loseValid { advance s.ttb with timeNs := timeNs } } := rfl

/-- With TIME_VALID at 0 a LOCKED or SLEWING Timetable goes to HOLDOVER, and time stands (R77). -/
theorem loseValid_spec (t : Timetable) :
    (loseValid t).time = t.time ∧ (loseValid t).timeValid = false ∧
      (t.state = .locked ∨ t.state = .slewing → (loseValid t).state = .holdover) ∧
      (t.state = .holdover ∨ t.state = .freerun → (loseValid t).state = t.state) := by
  unfold loseValid
  cases t.state <;> simp [enterState]

/-- After the first boundary an edge compares and does not set (R75). -/
theorem validEdge_compare (timeNs free : Nat) {t : Timetable} (hb : t.anyBoundary = true) :
    validEdge timeNs free t = learn free (compareTime ((t.time : Int) - timeNs)
      { t with timeValid := true, timeNs := timeNs, offset := (t.time : Int) - timeNs }) := by
  simp only [validEdge, hb, if_true]

theorem learn_spec (free : Nat) (t : Timetable) :
    (learn free t).time = t.time ∧ (learn free t).offset = t.offset ∧ (learn free t).state = t.state ∧
      (learn free t).stepWait = t.stepWait := by
  rw [learn_eq]
  exact ⟨rfl, rfl, rfl, rfl⟩

/-- The comparison of an offset: within lock_win LOCKED, else SLEWING, and waiting for a step where it is further
behind than step_thr. -/
theorem compareTime_spec (o : Int) (t : Timetable) :
    (compareTime o t).time = t.time ∧ (compareTime o t).offset = t.offset ∧
      ((compareTime o t).state = .locked ↔ (o.natAbs : Int) ≤ lockWinNs t) ∧
      ((compareTime o t).state = .slewing ↔ lockWinNs t < o.natAbs) ∧
      (lockWinNs t < o.natAbs → o < - stepThrNs t → (compareTime o t).stepWait = true) := by
  unfold compareTime
  extract_lets t'
  have win : lockWinNs t' = lockWinNs t := rfl
  have thr : stepThrNs t' = stepThrNs t := rfl
  rw [win, thr]
  split
  · rename_i h
    exact ⟨rfl, rfl, iff_of_true rfl h, iff_of_false nofun (not_lt.mpr h), fun h' => absurd h (not_le.mpr h')⟩
  · rename_i h
    refine ⟨rfl, rfl, iff_of_false nofun h, iff_of_true rfl (not_le.mp h), fun _ behind => ?_⟩
    have behind' : decide (o < - stepThrNs t) = true := decide_eq_true behind
    simp only [enterState, behind', Bool.true_or]

/-- What an edge with TIME_VALID at 1 does to time and state after the first boundary. -/
theorem validEdge_after (timeNs free : Nat) {t : Timetable} (hb : t.anyBoundary = true) :
    (validEdge timeNs free t).time = t.time ∧ (validEdge timeNs free t).offset = (t.time : Int) - timeNs ∧
      ((validEdge timeNs free t).state = .locked ↔ ((((t.time : Int) - timeNs).natAbs : Nat) : Int) ≤ lockWinNs t) ∧
      ((validEdge timeNs free t).state = .slewing ↔ lockWinNs t < (((t.time : Int) - timeNs).natAbs : Nat)) ∧
      (lockWinNs t < (((t.time : Int) - timeNs).natAbs : Nat) → (t.time : Int) - timeNs < - stepThrNs t →
        (validEdge timeNs free t).stepWait = true) := by
  rw [validEdge_compare timeNs free hb]
  have spec := compareTime_spec ((t.time : Int) - timeNs)
    { t with timeValid := true, timeNs := timeNs, offset := (t.time : Int) - timeNs }
  rw [← (learn_spec free (compareTime _ _)).1] at spec
  obtain ⟨-, loffset, lstate, lwait⟩ := learn_spec free (compareTime ((t.time : Int) - timeNs)
    { t with timeValid := true, timeNs := timeNs, offset := (t.time : Int) - timeNs })
  rw [← loffset, ← lstate, ← lwait] at spec
  exact spec

@[simp] theorem lockWinNs_advance (t : Timetable) : lockWinNs (advance t) = lockWinNs t := by
  obtain ⟨_, _, _, h⟩ := advance_eq t
  rw [h]
  rfl

@[simp] theorem stepThrNs_advance (t : Timetable) : stepThrNs (advance t) = stepThrNs t := by
  obtain ⟨_, _, _, h⟩ := advance_eq t
  rw [h]
  rfl

@[simp] theorem state_advance (t : Timetable) : (advance t).state = t.state := by
  obtain ⟨_, _, _, h⟩ := advance_eq t
  rw [h]

/-- Outside HOLDOVER an edge of PPS_IN is stamped and checked. -/
theorem ppsEdge_free {s : State} (hs : s.ttb.state ≠ .holdover) :
    ppsEdge s =
      if s.ttb.timeValid && bit s.ttb.cfg 14 && decide (ppsTolNs s.ttb < (secondPhase s.now).natAbs) then
        ({ s with ttb := { s.ttb with ppsAt := some s.now, ppsErr := sat 16 (s.ttb.ppsErr + 1) } } : State).raise
          2 2 0 (unsigned 64 (secondPhase s.now))
      else { s with ttb := { s.ttb with ppsAt := some s.now } } := by
  unfold ppsEdge
  extract_lets p src t0 t1
  have stays : t1 = t0 := if_neg (by simp [t0, src, hs])
  rw [stays]
  rfl

/-- In HOLDOVER with pps_hold_en the edge gives the phase error. -/
theorem ppsEdge_steers {s : State} (hv : s.ttb.timeValid = false) (hs : s.ttb.state = .holdover)
    (hold : bit s.ttb.cfg 15 = true) :
    ppsEdge s = { s with ttb := { s.ttb with
      ppsAt := some s.now, ppsPhase := secondPhase s.now * accUnit s.ttb } } := by
  unfold ppsEdge
  extract_lets p src t0 t1
  have steers : t1 = { t0 with ppsPhase := p * accUnit t0 } :=
    if_pos (by simp only [t0, src, hs, ppsHoldEn, hold]; rfl)
  have unchecked : t1.timeValid = false := by rw [steers]; exact hv
  rw [unchecked, Bool.false_and, Bool.false_and, if_neg Bool.false_ne_true, steers]
  rfl

@[simp] theorem shiftTimes_same (a : Nat) (s : State) : shiftTimes a a s = s := by simp [shiftTimes]

/-- With no rate correction a period at 125 MHz is 8 ns. -/
theorem advance_nominal {t : Timetable} (hr : rateOf t = 0) (hc : fld t.cfg 0 8 = 125) (ha : t.acc < accUnit t)
    (ht : t.time < 2 ^ 64 - 8) : (advance t).time = t.time + 8 ∧ (advance t).acc = t.acc := by
  have unit : accUnit t = 125000000000 := by simp [accUnit, hc]
  have period : (1000 * (1000000000 + (0 : Int))).toNat = 8 * 125000000000 := rfl
  rw [unit] at ha
  simp only [advance, hr, unit, period]
  constructor
  · rw [Nat.add_mul_div_right _ _ (by norm_num), Nat.div_eq_of_lt ha, Nat.mod_eq_of_lt (by omega), Nat.add_comm]
  · rw [Nat.add_mul_mod_self_right, Nat.mod_eq_of_lt ha]

end Sys2Proof.Machine
end

section
open Sys2Proof Sys2Proof.Machine Sys2Proof.Claims

theorem Sys2Proof.Claims.timeDiscipline : TimeDiscipline := by
  refine ⟨?_, ?_, fun t => advance_nominal⟩
  · intro s x hp hb o
    refine ⟨_, exec_timeAdvance x true hp, ?_⟩
    have spec := validEdge_after x.toNat (pilotSettle s).free (t := advance s.ttb) (by simp [hb])
    rw [lockWinNs_advance, stepThrNs_advance] at spec
    rw [timeAdvance_valid, pilotSettle_ttb, spec.1, shiftTimes_same]
    exact spec
  · intro s x hp
    refine ⟨_, exec_timeAdvance x false hp, ?_⟩
    rw [timeAdvance_invalid, pilotSettle_ttb]
    obtain ⟨time, valid, loses, stays⟩ := loseValid_spec { advance s.ttb with timeNs := x.toNat }
    exact ⟨time, valid, fun h => loses (by simpa using h), fun h => (stays (by simpa using h)).trans (state_advance _)⟩

theorem Sys2Proof.Claims.timeValidFall : TimeValidFall := by
  intro s hp hs
  have runs : s.timeRuns = true := hp
  rcases hs with hs | hs <;> simp [exec, execTimeValidFall, runs, hs, loseValid, enterState, next]

theorem Sys2Proof.Claims.holdoverExpires : HoldoverExpires := by
  intro s core hs due
  have runs := State.timeRuns_of_core core
  have late : s.ttb.holdoverAt + holdoverNs s.ttb ≤ s.now := due
  have core' : State.core { s with ttb := enterState .freerun s.ttb } = true := core
  simp only [exec, execHoldoverExpire, runs, hs, late, decide_true, Bool.and_true, beq_self_eq_true, when_true,
    State.raise_core core']
  rfl

theorem Sys2Proof.Claims.ppsEdge : PpsEdge := by
  refine ⟨?_, ?_, ?_⟩
  · intro s hp hv hs
    have runs : s.timeRuns = true := hp
    have edge := ppsEdge_free hs
    rw [hv, Bool.false_and, Bool.false_and, if_neg Bool.false_ne_true] at edge
    simp only [exec, execPpsEdge, runs, when_true, edge]
    rfl
  · intro s core hv chk hs far
    have runs := State.timeRuns_of_core core
    have edge := ppsEdge_free hs
    have far : ppsTolNs s.ttb < (secondPhase s.now).natAbs := far
    rw [hv, chk, decide_eq_true far, Bool.true_and, Bool.true_and, if_pos rfl, State.raise_core (by exact core)] at edge
    simp only [exec, execPpsEdge, runs, when_true, edge]
    rfl
  · intro s hp hv hs hold
    have runs : s.timeRuns = true := hp
    simp only [exec, execPpsEdge, runs, when_true, ppsEdge_steers hv hs hold]
    rfl

theorem Sys2Proof.Claims.upperTime : UpperTime := by
  intro s hp late
  have runs : s.timeRuns = true := hp
  simp [exec, execUpperTimeMessage, runs, late, next]

/-- Settles O13: an edge compares and never sets once a boundary has been (`validEdge_compare`), and the other
events are their definitions under their conditions. -/
theorem timeReference : Obligations.TimeReference :=
  ⟨timeDiscipline, timeValidFall, holdoverExpires, Claims.ppsEdge, upperTime⟩
end

section
/-! PROOFS. O17: the rate monitor and the token buckets (R61, R65). -/

namespace Sys2Proof.Machine

/-- The tracks after a refill: those in service have taken their tokens. -/
def refilled (s : State) (t : Nat) : Track :=
  if (s.track t).state = 1 then refillTrack s t (s.track t) else s.track t

/-- Once a microsecond has begun every track is refilled. -/
theorem governorRefill_due {s : State} (h : s.sbx.refillAt / 1000 < s.now / 1000) :
    governorRefill s = { s with
      trk := (List.range s.trk.length).map (refilled s), sbx := { s.sbx with refillAt := s.now } } := by
  simp only [governorRefill, h, decide_true, Bool.true_or, if_true]
  rfl

theorem track_of_map {s : State} (f : Nat → Track) {n k : Nat} (hs : s.trk = (List.range n).map f) (hk : k < n) :
    s.track k = f k := by
  simp [State.track, hs, hk]

end Sys2Proof.Machine
end

section
open Sys2Proof Sys2Proof.Machine Sys2Proof.Claims

theorem Sys2Proof.Claims.rateMonitor : RateMonitor := by
  refine ⟨?_, by decide⟩
  intro s r mv tj core
  simp only [exec, execRateMonitorMeasure, core, when_true, next, rateMeasure]

theorem Sys2Proof.Claims.governorBucket : GovernorBucket := by
  intro s core due
  refine ⟨governorRefill s, by simp only [exec, execGovernorRefill, core, when_true, next], ?_⟩
  rw [governorRefill_due due]
  refine ⟨by simp, rfl, fun k hk => ?_⟩
  rw [track_of_map (s := { s with
    trk := (List.range s.trk.length).map (refilled s), sbx := { s.sbx with refillAt := s.now } }) (refilled s) rfl hk]
  exact ⟨fun inService => by rw [refilled, if_pos inService]; rfl, fun out => by rw [refilled, if_neg out]⟩

/-- Settles O17: a measurement stores its rate and band, and a refill maps every track in service to its filled
bucket. -/
theorem stepRate : Obligations.StepRate := ⟨rateMonitor, governorBucket⟩
end

section
/-! PROOFS. O28: the index of a counter by context, station and event, and its place in the banks (R125, R126). -/

namespace Sys2Proof.Machine

/-- An index below 2^20 is its context, station and event. -/
theorem counterIndex_parts {i : Nat} (h : i < 1048576) : counterIndex (ixCtx i) (ixStn i) (ixEv i) = i := by
  simp only [counterIndex, ixCtx, ixStn, ixEv]
  omega

theorem parts_counterIndex {c n e : Nat} (hc : c < 32) (hn : n < 64) (he : e < 512) :
    ixCtx (counterIndex c n e) = c ∧ ixStn (counterIndex c n e) = n ∧ ixEv (counterIndex c n e) = e ∧
      counterIndex c n e < 1048576 := by
  simp only [counterIndex, ixCtx, ixStn, ixEv]
  omega

/-- A word of a bank names context and station, and with the bank the event. -/
theorem parts_of_place {c n e c' n' e' : Nat} (hn : n < 64) (he : e < 512) (hn' : n' < 64) (he' : e' < 512)
    (bank : (e / 2 % 64 + n) % 64 = (e' / 2 % 64 + n') % 64)
    (word : c * 512 + n * 8 + e / 128 * 2 + e % 2 = c' * 512 + n' * 8 + e' / 128 * 2 + e' % 2) :
    c = c' ∧ n = n' ∧ e = e' := by
  have quarter : e / 128 < 4 ∧ e' / 128 < 4 := by omega
  have parity : e % 2 < 2 ∧ e' % 2 < 2 := by omega
  obtain ⟨hc, rfl, high, low⟩ : c = c' ∧ n = n' ∧ e / 128 = e' / 128 ∧ e % 2 = e' % 2 := by
    clear bank
    generalize e / 128 = q at *
    generalize e' / 128 = q' at *
    generalize e % 2 = p at *
    generalize e' % 2 = p' at *
    omega
  have middle : e / 2 % 64 = e' / 2 % 64 := by omega
  exact ⟨hc, rfl, by omega⟩

theorem index_of_place {i j : Nat} (hi : i < 1048576) (hj : j < 1048576) (bank : ixBank i = ixBank j)
    (word : ixWord i = ixWord j) : i = j := by
  have ranges : ∀ k, ixStn k < 64 ∧ ixEv k < 512 := fun k => ⟨Nat.mod_lt _ (by omega), Nat.mod_lt _ (by omega)⟩
  obtain ⟨ctx, stn, ev⟩ := parts_of_place (ranges i).1 (ranges i).2 (ranges j).1 (ranges j).2 bank word
  rw [← counterIndex_parts hi, ← counterIndex_parts hj, ctx, stn, ev]

end Sys2Proof.Machine
end

section
open Sys2Proof Sys2Proof.Machine Sys2Proof.Claims

/-- Settles O28: each place is a mixed-radix number of context, station and event. -/
theorem counterPlacement : Obligations.CounterPlacement := by
  refine ⟨fun i => counterIndex_parts, fun c hc n hn e he => parts_counterIndex hc hn he,
    fun i hi j hj => index_of_place hi hj, fun i hi => ?_, fun i hi even => ?_⟩
  · simp only [ixBank, ixWord, ixCtx, ixStn, ixEv]
    omega
  · simp only [ixBank, ixWord, ixCtx, ixStn, ixEv]
    omega
end

section
/-! PROOFS. What an effect leaves unchanged. The state falls into places; `Within l s t` says that `t` differs from `s`
at most in the places of `l`. Each function of the model that a proof below runs through has one lemma with the places
it may write. -/

namespace Sys2Proof.Machine

/-- The places of the state: its components, some of them cut into what many effects write and the rest. -/
inductive Place where
  | params | ttb | stats | stn | jct | recs | myd | ldg | desc | pool | trk | wtp | items | slots | plt | frames
  | models | wbr | ilk | dsp | wins | gens | sbx | inbox | mtr | mem | exp | tkl | pins | free | pending
  deriving DecidableEq

namespace Place

/-- What stands in a place. -/
abbrev Of : Place → Type
  | params => Params
  | ttb => Timetable
  | stats => List EpochStat
  | stn => List Station
  | jct => Junction
  | recs => List (List Rec) × List Nat × List Owed × Nat
  | myd => Yard
  | ldg => Ledger
  | desc => List Siding
  | pool => List (Nat × Word)
  | trk => List Track
  | wtp => Checker
  | items => List WorkItem
  | slots => List PlanSlot
  | plt => Pilot
  | frames => List PFrame
  | models => List PSlot
  | wbr => Weigh
  | ilk => Interlock
  | dsp => Dispatcher
  | wins => List CmdWin × List HeldQ
  | gens => List EWrite × List EWrite × Nat × List Byte
  | sbx => SignalBox
  | inbox => List Occurrence × Option (Nat × Nat)
  | mtr => Meter
  | mem => MemPort
  | exp => Export
  | tkl => TokenLine
  | pins => Pins
  | free => Nat
  | pending => List Instr

/-- A place of a state; the part of a component that has a place of its own is blanked in the rest. -/
def get : (p : Place) → State → p.Of
  | params, s => s.params
  | ttb, s => { s.ttb with stats := [] }
  | stats, s => s.ttb.stats
  | stn, s => s.stn
  | jct, s => { s.jct with intIn := [], intSeq := [], owed := [], overrun := 0 }
  | recs, s => (s.jct.intIn, s.jct.intSeq, s.jct.owed, s.jct.overrun)
  | myd, s => s.myd
  | ldg, s => s.ldg
  | desc, s => s.sdg.desc
  | pool, s => s.sdg.pool
  | trk, s => s.trk
  | wtp, s => { s.wtp with items := [], slots := [] }
  | items, s => s.wtp.items
  | slots, s => s.wtp.slots
  | plt, s => { s.plt with frames := [], models := [] }
  | frames, s => s.plt.frames
  | models, s => s.plt.models
  | wbr, s => s.wbr
  | ilk, s => s.ilk
  | dsp, s => { s.dsp with wins := [], heldQ := [], pending := [], frozen := [], activeGen := 0, fp := [] }
  | wins, s => (s.dsp.wins, s.dsp.heldQ)
  | gens, s => (s.dsp.pending, s.dsp.frozen, s.dsp.activeGen, s.dsp.fp)
  | sbx, s => { s.sbx with inbox := [], arising := none }
  | inbox, s => (s.sbx.inbox, s.sbx.arising)
  | mtr, s => s.mtr
  | mem, s => s.mem
  | exp, s => s.exp
  | tkl, s => s.tkl
  | pins, s => s.pins
  | free, s => s.free
  | pending, s => s.pending

end Place

/-- `t` differs from `s` at most in the places of `l`. -/
def Within (l : List Place) (s t : State) : Prop := ∀ p, p ∉ l → p.get t = p.get s

namespace Within

variable {l m : List Place} {s t u : State}

theorem refl (l : List Place) (s : State) : Within l s s := fun _ _ => rfl

theorem trans (h : Within l s t) (g : Within l t u) : Within l s u := fun p hp => (g p hp).trans (h p hp)

theorem mono (h : Within m s t) (hm : m ⊆ l) : Within l s t := fun p hp => h p fun hpm => hp (hm hpm)

/-- An effect that writes the places of `m` follows one that writes those of `l`, which are no fewer. -/
theorem lift (hm : m ⊆ l) (h : Within l s t) (core : Within m t t → Within m t u) : Within l s u :=
  h.trans ((core (.refl m t)).mono hm)

/-- An update of components: each place is one of `l` or stands in the update as before. -/
theorem upd (h : Within l s t)
    (hp : ∀ p, p ∉ l → p.get u = p.get t := by intro p hp; cases p <;> first | exact absurd (by decide) hp | rfl) :
    Within l s u :=
  h.trans hp

theorem ite {c : Prop} [Decidable c] (h : Within l s t) (g : Within l s u) : Within l s (if c then t else u) := by
  split
  · exact h
  · exact g

theorem when {c : Bool} {f : State → State} (hf : ∀ {x}, Within l s x → Within l s (f x)) (h : Within l s t) :
    Within l s (when c f t) := by
  cases c
  · exact h
  · exact hf h

theorem withSome {α : Type} {o : Option α} {f : α → State → State} (hf : ∀ {a x}, Within l s x → Within l s (f a x))
    (h : Within l s t) : Within l s (withSome o f t) := by
  cases o with
  | none => exact h
  | some a => exact hf h

theorem forEach {α : Type} {r : List α} {f : α → State → State} (hf : ∀ {a x}, Within l s x → Within l s (f a x))
    (h : Within l s t) : Within l s (forEach r f t) :=
  forEach_keeps (Within l s) _ _ _ h fun _ _ => hf

theorem foldl {α : Type} {r : List α} {f : State → α → State} (hf : ∀ {a x}, Within l s x → Within l s (f x a))
    (h : Within l s t) : Within l s (r.foldl f t) :=
  forEach (f := fun a x => f x a) hf h

/-! ### What stands as before -/

theorem params_eq (h : Within l s t) (hl : .params ∉ l := by decide) : t.params = s.params := h .params hl
theorem stn_eq (h : Within l s t) (hl : .stn ∉ l := by decide) : t.stn = s.stn := h .stn hl
theorem myd_eq (h : Within l s t) (hl : .myd ∉ l := by decide) : t.myd = s.myd := h .myd hl
theorem ldg_eq (h : Within l s t) (hl : .ldg ∉ l := by decide) : t.ldg = s.ldg := h .ldg hl
theorem desc_eq (h : Within l s t) (hl : .desc ∉ l := by decide) : t.sdg.desc = s.sdg.desc := h .desc hl
theorem pool_eq (h : Within l s t) (hl : .pool ∉ l := by decide) : t.sdg.pool = s.sdg.pool := h .pool hl
theorem trk_eq (h : Within l s t) (hl : .trk ∉ l := by decide) : t.trk = s.trk := h .trk hl
theorem wbr_eq (h : Within l s t) (hl : .wbr ∉ l := by decide) : t.wbr = s.wbr := h .wbr hl
theorem ilk_eq (h : Within l s t) (hl : .ilk ∉ l := by decide) : t.ilk = s.ilk := h .ilk hl
theorem mtr_eq (h : Within l s t) (hl : .mtr ∉ l := by decide) : t.mtr = s.mtr := h .mtr hl
theorem mem_eq (h : Within l s t) (hl : .mem ∉ l := by decide) : t.mem = s.mem := h .mem hl
theorem exp_eq (h : Within l s t) (hl : .exp ∉ l := by decide) : t.exp = s.exp := h .exp hl
theorem tkl_eq (h : Within l s t) (hl : .tkl ∉ l := by decide) : t.tkl = s.tkl := h .tkl hl
theorem pins_eq (h : Within l s t) (hl : .pins ∉ l := by decide) : t.pins = s.pins := h .pins hl
theorem free_eq (h : Within l s t) (hl : .free ∉ l := by decide) : t.free = s.free := h .free hl

theorem ttb_eq (h : Within l s t) (h1 : .ttb ∉ l := by decide) (h2 : .stats ∉ l := by decide) : t.ttb = s.ttb := by
  have rest := h .ttb h1
  have stats := h .stats h2
  simp only [Place.get, Timetable.mk.injEq] at rest stats
  cases ht : t.ttb
  cases hs : s.ttb
  simp_all

theorem jct_eq (h : Within l s t) (h1 : .jct ∉ l := by decide) (h2 : .recs ∉ l := by decide) : t.jct = s.jct := by
  have rest := h .jct h1
  have recs := h .recs h2
  simp only [Place.get, Junction.mk.injEq, Prod.mk.injEq] at rest recs
  cases ht : t.jct
  cases hs : s.jct
  simp_all

theorem wtp_eq (h : Within l s t) (h1 : .wtp ∉ l := by decide) (h2 : .items ∉ l := by decide)
    (h3 : .slots ∉ l := by decide) : t.wtp = s.wtp := by
  have rest := h .wtp h1
  have items := h .items h2
  have slots := h .slots h3
  simp only [Place.get, Checker.mk.injEq] at rest items slots
  cases ht : t.wtp
  cases hs : s.wtp
  simp_all

theorem plt_eq (h : Within l s t) (h1 : .plt ∉ l := by decide) (h2 : .frames ∉ l := by decide)
    (h3 : .models ∉ l := by decide) : t.plt = s.plt := by
  have rest := h .plt h1
  have frames := h .frames h2
  have models := h .models h3
  simp only [Place.get, Pilot.mk.injEq] at rest frames models
  cases ht : t.plt
  cases hs : s.plt
  simp_all

theorem dsp_eq (h : Within l s t) (h1 : .dsp ∉ l := by decide) (h2 : .wins ∉ l := by decide)
    (h3 : .gens ∉ l := by decide) : t.dsp = s.dsp := by
  have rest := h .dsp h1
  have wins := h .wins h2
  have gens := h .gens h3
  simp only [Place.get, Dispatcher.mk.injEq, Prod.mk.injEq] at rest wins gens
  cases ht : t.dsp
  cases hs : s.dsp
  simp_all

theorem sbx_eq (h : Within l s t) (h1 : .sbx ∉ l := by decide) (h2 : .inbox ∉ l := by decide) : t.sbx = s.sbx := by
  have rest := h .sbx h1
  have inbox := h .inbox h2
  simp only [Place.get, SignalBox.mk.injEq, Prod.mk.injEq] at rest inbox
  cases ht : t.sbx
  cases hs : s.sbx
  simp_all

theorem sdg_eq (h : Within l s t) (h1 : .desc ∉ l := by decide) (h2 : .pool ∉ l := by decide) : t.sdg = s.sdg := by
  have desc := h.desc_eq h1
  have pool := h.pool_eq h2
  cases ht : t.sdg
  cases hs : s.sdg
  simp_all

/-- A field of the Timetable but its epoch statuses. -/
theorem ttb_field {α : Type} (h : Within l s t) (v : Timetable → α) (hv : ∀ x r, v { x with stats := r } = v x := by
    intros; rfl) (hl : .ttb ∉ l := by decide) : v t.ttb = v s.ttb :=
  (hv t.ttb []).symm.trans ((congrArg v (h .ttb hl)).trans (hv s.ttb []))

/-- A field of the Junction but its internal inputs and what is owed. -/
theorem jct_field {α : Type} (h : Within l s t) (v : Junction → α)
    (hv : ∀ x a b c d, v { x with intIn := a, intSeq := b, owed := c, overrun := d } = v x := by intros; rfl)
    (hl : .jct ∉ l := by decide) : v t.jct = v s.jct :=
  (hv t.jct [] [] [] 0).symm.trans ((congrArg v (h .jct hl)).trans (hv s.jct [] [] [] 0))

/-- A field of the Signal Box but what waits for it. -/
theorem sbx_field {α : Type} (h : Within l s t) (v : SignalBox → α)
    (hv : ∀ x a b, v { x with inbox := a, arising := b } = v x := by intros; rfl)
    (hl : .sbx ∉ l := by decide) : v t.sbx = v s.sbx :=
  (hv t.sbx [] none).symm.trans ((congrArg v (h .sbx hl)).trans (hv s.sbx [] none))

/-- A field of the Dispatcher but its windows, held writes and generations. -/
theorem dsp_field {α : Type} (h : Within l s t) (v : Dispatcher → α)
    (hv : ∀ x a b c d e f,
      v { x with wins := a, heldQ := b, pending := c, frozen := d, activeGen := e, fp := f } = v x := by intros; rfl)
    (hl : .dsp ∉ l := by decide) : v t.dsp = v s.dsp :=
  (hv t.dsp [] [] [] [] 0 []).symm.trans ((congrArg v (h .dsp hl)).trans (hv s.dsp [] [] [] [] 0 []))

/-- A field of the Tensor Checker but its work items and plan slots. -/
theorem wtp_field {α : Type} (h : Within l s t) (v : Checker → α)
    (hv : ∀ x a b, v { x with items := a, slots := b } = v x := by intros; rfl)
    (hl : .wtp ∉ l := by decide) : v t.wtp = v s.wtp :=
  (hv t.wtp [] []).symm.trans ((congrArg v (h .wtp hl)).trans (hv s.wtp [] []))

/-- A field of the Pilot but its frames and model slots. -/
theorem plt_field {α : Type} (h : Within l s t) (v : Pilot → α)
    (hv : ∀ x a b, v { x with frames := a, models := b } = v x := by intros; rfl)
    (hl : .plt ∉ l := by decide) : v t.plt = v s.plt :=
  (hv t.plt [] []).symm.trans ((congrArg v (h .plt hl)).trans (hv s.plt [] []))

end Within

end Sys2Proof.Machine
end

section
/-! PROOFS. What the functions of the model may write. -/

namespace Sys2Proof.Machine

set_option Elab.async false

open Within

variable {l : List Place} {s t u : State}

theorem State.modStation_within (h : Within l s t) (hl : [.stn] ⊆ l := by decide) :
    Within l s (State.modStation t a1 a2) :=
  .lift hl h fun h => .upd h

theorem State.modSiding_within (h : Within l s t) (hl : [.desc] ⊆ l := by decide) :
    Within l s (State.modSiding t a1 a2) :=
  .lift hl h fun h => .upd h

theorem State.modTrack_within (h : Within l s t) (hl : [.trk] ⊆ l := by decide) :
    Within l s (State.modTrack t a1 a2) :=
  .lift hl h fun h => .upd h

theorem State.modWin_within (h : Within l s t) (hl : [.wins] ⊆ l := by decide) :
    Within l s (State.modWin t a1 a2) :=
  .lift hl h fun h => .upd h

theorem State.modStat_within (h : Within l s t) (hl : [.stats] ⊆ l := by decide) :
    Within l s (State.modStat t a1 a2) :=
  .lift hl h fun h => .upd h

theorem State.markLate_within (h : Within l s t) (hl : [.stats] ⊆ l := by decide) :
    Within l s (State.markLate t a1) :=
  .lift hl h fun h => State.modStat_within h

theorem State.post_within (h : Within l s t) (hl : [.inbox] ⊆ l := by decide) :
    Within l s (State.post t a1) :=
  .lift hl h fun h => .ite (.upd h) h

theorem State.raise_within (h : Within l s t) (hl : [.inbox] ⊆ l := by decide) :
    Within l s (State.raise t a1 a2 a3 a4 a5) :=
  .lift hl h fun h => State.post_within h

theorem State.containing_within {f : State → State} (hf : ∀ {x}, Within l s x → Within l s (f x))
    (h : Within l s t) (hl : [.inbox] ⊆ l := by decide) : Within l s (State.containing t a1 a2 f) := by
  unfold State.containing
  have begins : Within l s { t with sbx := { t.sbx with arising := some (a1, a2) } } := .lift hl h fun h => .upd h
  exact .lift hl (hf begins) fun h => .upd h

theorem State.countOverdue_within (h : Within l s t) (hl : [.recs, .inbox] ⊆ l := by decide) :
    Within l s (State.countOverdue t a1) :=
  .lift hl h fun h => .upd h

theorem State.emit_within (h : Within l s t) (hl : [.recs, .inbox] ⊆ l := by decide) :
    Within l s (State.emit t a1 a2 a3) :=
  .lift hl h fun h => .upd (State.countOverdue_within h)

theorem State.emitVrd_within (h : Within l s t) (hl : [.recs, .wtp, .inbox] ⊆ l := by decide) :
    Within l s (State.emitVrd t a1 a2) :=
  .lift hl h fun h => .ite (State.emit_within h) (.upd h)

theorem State.owe_within (h : Within l s t) (hl : [.recs] ⊆ l := by decide) :
    Within l s (State.owe t a1 a2 a3) :=
  .lift hl h fun h => .upd h

theorem State.unowe_within (h : Within l s t) (hl : [.recs] ⊆ l := by decide) :
    Within l s (State.unowe t a1 a2) :=
  .lift hl h fun h => .upd h

theorem State.pushItem_within (h : Within l s t) (hl : [.desc] ⊆ l := by decide) :
    Within l s (State.pushItem t a1 a2) :=
  .lift hl h fun h => .ite (State.modSiding_within h) (.ite (State.modSiding_within h) h)

theorem State.complete_within (h : Within l s t) (hl : [.desc, .wins] ⊆ l := by decide) :
    Within l s (State.complete t a1 a2 a3 a4) :=
  .lift hl h fun h => .ite h (.ite (State.pushItem_within h) (State.modWin_within h))

theorem State.finish_within (h : Within l s t) (hl : [.desc, .wins] ⊆ l := by decide) :
    Within l s (State.finish t a1 a2 a3 a4) :=
  .lift hl h fun h => .ite (State.complete_within h) (State.modWin_within (State.complete_within h))

theorem setHeld_within (h : Within l s t) (hl : [.slots, .models, .wins] ⊆ l := by decide) :
    Within l s (setHeld a1 t) :=
  .lift hl h fun h => .upd h

theorem abortHeld_within (h : Within l s t) (hl : [.desc, .slots, .models, .wins] ⊆ l := by decide) :
    Within l s (abortHeld a1 t) :=
  .lift hl h fun h => .forEach (fun h1 => State.finish_within h1) (setHeld_within h)

theorem dropHeld_within (h : Within l s t) (hl : [.desc, .slots, .models, .wins] ⊆ l := by decide) :
    Within l s (dropHeld a1 t) :=
  .lift hl h fun h => abortHeld_within h

theorem addJob_within (h : Within l s t) (hl : [.mem] ⊆ l := by decide) :
    Within l s (addJob a1 a2 a3 a4 a5 a6 a7 t) :=
  .lift hl h fun h => .upd h

theorem State.modSdg_within (h : Within l s t) (hl : [.desc] ⊆ l := by decide) :
    Within l s (State.modSdg t a1 a2) :=
  .lift hl h fun h => State.modSiding_within h

theorem State.modSession_within (h : Within l s t) (hl : [.exp] ⊆ l := by decide) :
    Within l s (State.modSession t a1 a2) :=
  .lift hl h fun h => .upd h

theorem noteDiscarded_within (h : Within l s t) (hl : [.exp] ⊆ l := by decide) :
    Within l s (noteDiscarded a1 t) :=
  .lift hl h fun h => .upd h

theorem clearExport_within (h : Within l s t) (hl : [.myd, .gens] ⊆ l := by decide) :
    Within l s (clearExport a1 t) :=
  .lift hl h fun h => .upd h

theorem settleFlight_within (h : Within l s t) (hl : [.desc, .exp] ⊆ l := by decide) :
    Within l s (settleFlight a1 a2 t) :=
  .lift hl h fun h => State.modSiding_within (.forEach (fun h1 => State.modSdg_within h1) (.upd h))

theorem discardRest_within (h : Within l s t) (hl : [.desc, .exp] ⊆ l := by decide) :
    Within l s (discardRest a1 a2 t) :=
  .lift hl h fun h => settleFlight_within (.upd (State.modSdg_within h))

theorem Within.setMyd (h : Within l s t) (y : Yard) (hl : [.myd] ⊆ l := by decide) :
    Within l s { t with myd := y } :=
  .lift hl h fun h => .upd h

theorem Within.setExp (h : Within l s t) (y : Export) (hl : [.exp] ⊆ l := by decide) :
    Within l s { t with exp := y } :=
  .lift hl h fun h => .upd h

theorem dropSession_within (h : Within l s t) (hl : [.myd, .desc, .wins, .gens, .exp] ⊆ l := by decide) : Within l
    s (dropSession a1 t) := by
  refine .lift hl h fun h => ?_
  unfold dropSession
  extract_lets x1 x2 x3 x4 s1 s2 x5 x6 s3 x7 x8 x9 s4 s5
  have h1' : Within _ t s1 := noteDiscarded_within h
  have h2' : Within _ t s2 := clearExport_within h1'
  have h3' : Within _ t s3 := h2'.setMyd _
  have h4' : Within _ t s4 := discardRest_within (h3'.setExp _)
  have h5' : Within _ t s5 := .withSome (fun h1 => State.finish_within h1) h4'
  exact State.modSession_within h5'

theorem ctxOverrunTo_within (h : Within l s t) (hl : [.stn, .inbox] ⊆ l := by decide) :
    Within l s (ctxOverrunTo a1 a2 t) :=
  .lift hl h fun h => State.modStation_within (State.raise_within h)

theorem changeCtx_within (h : Within l s t) (hl : [.stn, .inbox] ⊆ l := by decide) :
    Within l s (changeCtx a1 a2 t) :=
  .lift hl h fun h => .ite (State.modStation_within h) (.ite (State.modStation_within h) (.ite
      (State.modStation_within h) (ctxOverrunTo_within h)))

theorem followDefault_within (h : Within l s t) (hl : [.stn, .inbox] ⊆ l := by decide) :
    Within l s (followDefault a1 t) :=
  .lift hl h fun h => .ite (changeCtx_within h) h

theorem boundaryAtStation_within (h : Within l s t) (hl : [.stn, .inbox] ⊆ l := by decide) :
    Within l s (boundaryAtStation a1 a2 a3 t) :=
  .lift hl h fun h => .ite h (.ite (State.modStation_within h) (ctxOverrunTo_within (State.modStation_within h)))

theorem putLWord_within (h : Within l s t) (hl : [.ldg] ⊆ l := by decide) :
    Within l s (putLWord a1 a2 t) :=
  .lift hl h fun h => .upd h

theorem modSnap_within (h : Within l s t) (hl : [.ldg] ⊆ l := by decide) :
    Within l s (modSnap a1 a2 t) :=
  .lift hl h fun h => .upd h

theorem noteFinalSnap_within (h : Within l s t) (hl : [.ilk] ⊆ l := by decide) :
    Within l s (noteFinalSnap a1 a2 t) :=
  .lift hl h fun h => .upd h

theorem withdrawSnap_within (h : Within l s t) (hl : [.recs, .ldg, .ilk, .inbox] ⊆ l := by decide) :
    Within l s (withdrawSnap a1 a2 t) := by
  refine .lift hl h fun h => ?_
  unfold withdrawSnap
  extract_lets s1 x1 s2
  have h1' : Within _ t s1 := modSnap_within h
  have h2' : Within _ t s2 := .upd h1'
  split
  · exact h
  · exact State.raise_within (State.unowe_within (.ite (noteFinalSnap_within h2') h2'))

theorem sendSnaps_within (h : Within l s t) (hl : [.recs, .ldg, .inbox] ⊆ l := by decide) : Within l s (sendSnaps
    a1 t) := by
  induction a1 generalizing t with
  | nil => exact h
  | cons x r ih =>
    have tells : Within l s (modSnap x.slot (fun x => { x with sent := true }) (t.emit 0 x.slot (cntRec t x))) :=
      .lift hl h fun h => modSnap_within (State.emit_within h)
    exact .ite (ih h) (.ite (ih tells) h)

theorem settleSnaps_within (h : Within l s t) (hl : [.recs, .ldg, .ilk, .inbox] ⊆ l := by decide) :
    Within l s (settleSnaps t) :=
  .lift hl h fun h => sendSnaps_within (.upd (.withSome (fun h1 => noteFinalSnap_within h1) h))

theorem Within.setLdg (h : Within l s t) (y : Ledger) (hl : [.ldg] ⊆ l := by decide) :
    Within l s { t with ldg := y } :=
  .lift hl h fun h => .upd h

theorem takeFrozen_within (h : Within l s t) (hl : [.ldg, .mem] ⊆ l := by decide) : Within l s (takeFrozen a1 t) := by
  refine .lift hl h fun h => ?_
  unfold takeFrozen
  split
  · exact h
  · exact Within.setLdg (putLWord_within (.forEach (fun h1 => addJob_within (modSnap_within h1)) h)) _

theorem rewriteWord_within (h : Within l s t) (hl : [.ldg, .inbox] ⊆ l := by decide) :
    Within l s (rewriteWord a1 t) :=
  .lift hl h fun h => State.raise_within (.upd (.ite (putLWord_within (putLWord_within h)) (putLWord_within h)))

theorem ledgerEcc_within (h : Within l s t) (hl : [.ldg, .inbox] ⊆ l := by decide) :
    Within l s (ledgerEcc a1 a2 t) := by
  refine .lift hl h fun h => ?_
  unfold ledgerEcc
  split
  · exact h
  · exact State.raise_within (.upd h)
  · exact rewriteWord_within h

theorem startTraverse_within (h : Within l s t) (hl : [.ldg] ⊆ l := by decide) :
    Within l s (startTraverse t) :=
  .lift hl h fun h => .upd h

theorem sweepVisit_within (h : Within l s t) (hl : [.recs, .ldg, .ilk, .inbox, .mem] ⊆ l := by decide) :
    Within l s (sweepVisit a1 t) := by
  refine .lift hl h fun h => ?_
  unfold sweepVisit
  split
  · exact h
  · exact .ite h (settleSnaps_within (.upd (.ite (ledgerEcc_within h) (takeFrozen_within (ledgerEcc_within h)))))

theorem finishSweep_within (h : Within l s t) (hl : [.recs, .ldg, .ilk, .inbox, .mem] ⊆ l := by decide) : Within l
    s (finishSweep a1 t) := by
  induction a1 generalizing t with
  | zero => exact h
  | succ n ih => exact .ite h (ih (.lift hl h fun h => sweepVisit_within h))

theorem ledgerBoundary_within (h : Within l s t) (hl : [.recs, .ldg, .ilk, .inbox, .mem] ⊆ l := by decide) :
    Within l s (ledgerBoundary a1 a2 a3 t) := by
  refine .lift hl h fun h => ?_
  unfold ledgerBoundary
  extract_lets s1 s2 x1 x2 x3 s3 x4 x5 s4 x6 s5
  have h1' : Within _ t s1 := .forEach (fun h1 => .ite h1 (withdrawSnap_within h1)) h
  have h2' : Within _ t s2 := finishSweep_within (startTraverse_within (sendSnaps_within h1'))
  have h4' : Within _ t s4 := .upd (.upd h2')
  exact .ite (.upd h4') (.forEach (fun h1 => State.owe_within h1) (.upd h4'))

theorem refresh_within (h : Within l s t) (hl : [.sbx, .inbox] ⊆ l := by decide) :
    Within l s (refresh t) :=
  .lift hl h fun h => .ite h (.upd h)

theorem takeOverOutputs_within (h : Within l s t) (hl : [.sbx, .inbox] ⊆ l := by decide) :
    Within l s (takeOverOutputs a1 t) :=
  .lift hl h fun h => .ite (refresh_within (.upd h)) h

theorem applyEpochCfg_within (h : Within l s t) (hl : [.ttb, .stats] ⊆ l := by decide) :
    Within l s (applyEpochCfg a1 t) := by
  refine .lift hl h fun h => ?_
  obtain ⟨ttb, same⟩ : ∃ ttb, applyEpochCfg a1 t = { t with ttb := ttb } := ⟨_, rfl⟩
  rw [same]
  exact .upd h

theorem modPlanSlot_within (h : Within l s t) (hl : [.slots] ⊆ l := by decide) :
    Within l s (modPlanSlot a1 a2 t) :=
  .lift hl h fun h => .upd h

theorem modStream_within (h : Within l s t) (hl : [.myd] ⊆ l := by decide) :
    Within l s (modStream a1 a2 t) :=
  .lift hl h fun h => .upd h

theorem modPStream_within (h : Within l s t) (hl : [.plt] ⊆ l := by decide) :
    Within l s (modPStream a1 a2 t) :=
  .lift hl h fun h => .upd h

theorem writeStream_within (h : Within l s t) (hl : [.myd] ⊆ l := by decide) :
    Within l s (writeStream a1 a2 a3 t) := by
  refine .lift hl h fun h => ?_
  unfold writeStream
  extract_lets s1 x1
  have h1' : Within _ t s1 := modStream_within h
  exact .upd h1'

theorem clampTables_within (h : Within l s t) (hl : [.plt] ⊆ l := by decide) :
    Within l s (clampTables t) :=
  .lift hl h fun h => .upd h

theorem applyE_within (h : Within l s t) (hl : [.ttb, .stats, .stn, .jct, .myd, .ldg, .wtp, .slots, .plt, .wbr,
    .sbx] ⊆ l := by decide) :
    Within l s (applyE a1 t) := by
  refine .lift hl h fun h => ?_
  unfold applyE
  split
  · exact applyEpochCfg_within h
  · exact .upd h
  · exact State.modStation_within h
  · exact State.modStation_within h
  · exact .upd h
  · exact .upd h
  · exact .upd h
  · exact modPlanSlot_within h
  · exact modPlanSlot_within h
  · exact .upd h
  · exact modPStream_within h
  · exact modPStream_within h
  · exact .upd h
  · exact .upd h
  · exact .upd h
  · exact writeStream_within h

theorem applyAll_within (h : Within l s t) (hl : [.ttb, .stats, .stn, .jct, .myd, .ldg, .wtp, .slots, .plt, .wbr,
    .sbx] ⊆ l := by decide) :
    Within l s (applyAll a1 t) :=
  .lift hl h fun h => clampTables_within (.upd (.forEach (fun h1 => applyE_within h1) h))

theorem activate_within (h : Within l s t) (hl : [.ttb, .stats, .stn, .jct, .myd, .ldg, .wtp, .slots, .plt, .wbr,
    .gens, .sbx] ⊆ l := by decide) :
    Within l s (activate a1 t) :=
  .lift hl h fun h => .ite h (.upd (.upd (applyAll_within h)))

theorem writeMasks_within (h : Within l s t) (hl : [.stn] ⊆ l := by decide) :
    Within l s (writeMasks t) :=
  .lift hl h fun h => .upd h

theorem modItem_within (h : Within l s t) (hl : [.items] ⊆ l := by decide) :
    Within l s (modItem a1 a2 t) :=
  .lift hl h fun h => .upd h

theorem dropItem_within (h : Within l s t) (hl : [.trk, .items] ⊆ l := by decide) :
    Within l s (dropItem a1 t) :=
  .lift hl h fun h => .ite (State.modTrack_within (.upd h)) (.upd h)

theorem frameWindowAt_within (h : Within l s t) (hl : [.wtp] ⊆ l := by decide) :
    Within l s (frameWindowAt a1 a2 t) := by
  refine .lift hl h fun h => ?_
  unfold frameWindowAt
  exact .forEach (fun h1 => by
    split
    · exact h1
    · exact .ite h1 (.upd h1)) (.upd h)

theorem verdictEvent_within (h : Within l s t) (hl : [.inbox] ⊆ l := by decide) :
    Within l s (verdictEvent a1 a2 a3 a4 a5 a6 a7 a8 a9 t) :=
  .lift hl h fun h => State.post_within h

theorem noteCommit_within (h : Within l s t) (hl : [.stats, .wtp, .items, .slots, .inbox] ⊆ l := by decide) :
    Within l s (noteCommit a1 a2 a3 a4 a5 a6 a7 a8 a9 a10 t) :=
  .lift hl h fun h => verdictEvent_within (.ite (State.markLate_within (State.modStat_within (.ite (.upd (.upd h))
      (.upd h)))) (State.modStat_within (.ite (.upd (.upd h)) (.upd h))))

theorem noteDue_within (h : Within l s t) (hl : [.stats] ⊆ l := by decide) :
    Within l s (noteDue a1 a2 t) :=
  .lift hl h fun h => State.modStat_within h

theorem noteSums_within (h : Within l s t) (hl : [.wbr] ⊆ l := by decide) :
    Within l s (noteSums a1 a2 t) := by
  refine .lift hl h fun h => ?_
  unfold noteSums
  split
  · exact .upd h
  · exact h

theorem noteClips_within (h : Within l s t) (hl : [.trk] ⊆ l := by decide) :
    Within l s (noteClips a1 a2 a3 t) :=
  .lift hl h fun h => State.modTrack_within h

theorem noteCovered_within (h : Within l s t) (hl : [.wtp] ⊆ l := by decide) :
    Within l s (noteCovered a1 a2 t) :=
  .lift hl h fun h => .upd h

theorem commitSample_within (h : Within l s t) (hl : [.stats, .recs, .trk, .wtp, .items, .slots, .wbr, .inbox] ⊆ l
    := by decide) :
    Within l s (commitSample a1 a2 a3 a4 a5 t) :=
  .lift hl h fun h => noteDue_within (State.emitVrd_within (modItem_within (.ite (noteCovered_within
      (noteSums_within (noteClips_within (noteCommit_within h)))) (noteSums_within (noteClips_within
      (noteCommit_within h))))))

theorem shortfall_within (h : Within l s t) (hl : [.wtp, .inbox] ⊆ l := by decide) :
    Within l s (shortfall a1 a2 a3 a4 a5 a6 t) :=
  .lift hl h fun h => State.post_within (.upd h)

theorem tellCoverage_within (h : Within l s t) (hl : [.wtp, .inbox] ⊆ l := by decide) :
    Within l s (tellCoverage a1 a2 t) := by
  refine .lift hl h fun h => ?_
  unfold tellCoverage
  split
  · exact h
  · exact .ite (.upd h) (shortfall_within (.upd h))

theorem sendSts_within (h : Within l s t) (hl : [.recs, .wbr, .inbox] ⊆ l := by decide) :
    Within l s (sendSts t) :=
  .lift hl h fun h => .upd (.forEach (fun h1 => State.emit_within h1) h)

theorem settleCoverage_within (h : Within l s t) (hl : [.recs, .wtp, .wbr, .inbox] ⊆ l := by decide) :
    Within l s (settleCoverage t) :=
  .lift hl h fun h => sendSts_within (.forEach (fun h1 => .ite h1 (.upd (.forEach (fun h2 => tellCoverage_within
      h2) h1))) h)

theorem modFrame_within (h : Within l s t) (hl : [.frames] ⊆ l := by decide) :
    Within l s (modFrame a1 a2 t) :=
  .lift hl h fun h => .upd h

theorem sendPlt_within (h : Within l s t) (hl : [.recs, .plt, .frames, .inbox] ⊆ l := by decide) :
    Within l s (sendPlt a1 a2 t) :=
  .lift hl h fun h => modPStream_within (modFrame_within (State.emit_within h))

theorem pilotEvent_within (h : Within l s t) (hl : [.inbox] ⊆ l := by decide) :
    Within l s (pilotEvent a1 a2 a3 a4 a5 a6 t) :=
  .lift hl h fun h => State.post_within h

theorem skipFrame_within (h : Within l s t) (hl : [.recs, .plt, .frames, .models, .inbox] ⊆ l := by decide) :
    Within l s (skipFrame a1 a2 t) :=
  .lift hl h fun h => pilotEvent_within (sendPlt_within (.upd h))

theorem Within.setPlt (h : Within l s t) (y : Pilot) (hl : [.plt, .frames, .models] ⊆ l := by decide) :
    Within l s { t with plt := y } :=
  .lift hl h fun h => .upd h

theorem admitFrame_within (h : Within l s t) (hl : [.recs, .plt, .frames, .models, .inbox] ⊆ l := by decide) :
    Within l s (admitFrame a1 a2 t) := by
  refine .lift hl h fun h => ?_
  unfold admitFrame
  dsimp only
  split
  · exact skipFrame_within h
  · refine .ite (skipFrame_within h) ?_
    split
    · exact skipFrame_within h
    · split
      · exact (modFrame_within h).setPlt _
      · exact .ite (skipFrame_within h) (skipFrame_within h)

theorem pruneFrames_within (h : Within l s t) (hl : [.frames] ⊆ l := by decide) :
    Within l s (pruneFrames t) :=
  .lift hl h fun h => .upd h

theorem cutReady_within (h : Within l s t) (hl : [.frames] ⊆ l := by decide) :
    Within l s (cutReady a1 a2 t) :=
  .lift hl h fun h => .upd h

theorem pilotBegin_within (h : Within l s t) (hl : [.recs, .plt, .frames] ⊆ l := by decide) :
    Within l s (pilotBegin a1 a2 a3 t) := by
  refine .lift hl h fun h => ?_
  unfold pilotBegin
  extract_lets s1 x1 x2 x3 x4 x5 x6 x7 x8 s2
  have h1' : Within _ t s1 := cutReady_within (pruneFrames_within h)
  have h2' : Within _ t s2 := .upd h1'
  exact .ite h1' (State.owe_within h2')

theorem readmitFrames_within (h : Within l s t) (hl : [.recs, .plt, .frames, .models, .inbox] ⊆ l := by decide) :
    Within l s (readmitFrames a1 t) := by
  refine .lift hl h fun h => ?_
  unfold readmitFrames
  dsimp only
  exact .forEach (fun h1 => by
    split
    · exact admitFrame_within (modFrame_within h1)
    · exact modFrame_within h1) (.forEach (fun h1 => skipFrame_within h1) h)

theorem loseSample_within (h : Within l s t) (hl : [.stats, .wtp, .items, .slots, .inbox] ⊆ l := by decide) :
    Within l s (loseSample a1 a2 a3 t) :=
  .lift hl h fun h => modItem_within (noteCommit_within h)

theorem moveGathering_within (h : Within l s t) (hl : [.stats, .wtp, .items, .slots, .inbox] ⊆ l := by decide) :
    Within l s (moveGathering a1 a2 t) :=
  .lift hl h fun h => modItem_within (.forEach (fun h1 => loseSample_within h1) h)

theorem abandonItem_within (h : Within l s t) (hl : [.stats, .recs, .trk, .wtp, .items, .slots, .wbr, .inbox] ⊆ l
    := by decide) :
    Within l s (abandonItem a1 a2 t) :=
  .lift hl h fun h => dropItem_within (.forEach (fun h1 => commitSample_within h1) h)

theorem moveReserve_within (h : Within l s t) (hl : [.wtp] ⊆ l := by decide) :
    Within l s (moveReserve a1 a2 t) :=
  .lift hl h fun h => .upd h

theorem loseTrackItems_within (h : Within l s t) (hl : [.stats, .jct, .recs, .trk, .wtp, .items, .slots, .wbr,
    .inbox] ⊆ l := by decide) :
    Within l s (loseTrackItems a1 t) :=
  .lift hl h fun h => .upd (.forEach (fun h1 => .ite (moveGathering_within h1) (abandonItem_within h1))
      (moveReserve_within h))

theorem removeTrack_within (h : Within l s t) (hl : [.stats, .jct, .recs, .trk, .wtp, .items, .slots, .plt,
    .frames, .models, .wbr, .inbox] ⊆ l := by decide) :
    Within l s (removeTrack a1 a2 t) :=
  .lift hl h fun h => settleCoverage_within (State.modTrack_within (readmitFrames_within (loseTrackItems_within
      (State.modTrack_within h))))

theorem withdrawTrack_within (h : Within l s t) (hl : [.stats, .jct, .recs, .trk, .wtp, .items, .slots, .plt,
    .frames, .models, .wbr, .inbox] ⊆ l := by decide) :
    Within l s (withdrawTrack a1 a2 t) :=
  .lift hl h fun h => State.containing_within (fun h1 => removeTrack_within h1) (State.raise_within h)

theorem weighBoundary_within (h : Within l s t) (hl : [.recs, .wbr] ⊆ l := by decide) :
    Within l s (weighBoundary a1 a2 a3 t) :=
  .lift hl h fun h => .forEach (fun h1 => State.owe_within h1) (.upd h)

theorem streamFrameStart_within (h : Within l s t) (hl : [.recs, .wtp, .plt, .frames] ⊆ l := by decide) :
    Within l s (streamFrameStart a1 a2 a3 t) :=
  .lift hl h fun h => pilotBegin_within (frameWindowAt_within h)

theorem modMeter_within (h : Within l s t) (hl : [.mtr] ⊆ l := by decide) :
    Within l s (modMeter a1 t) :=
  .lift hl h fun h => .upd h

theorem meterRaise_within (h : Within l s t) (hl : [.inbox, .mtr] ⊆ l := by decide) :
    Within l s (meterRaise a1 a2 a3 t) :=
  .lift hl h fun h => .ite (State.raise_within h) (modMeter_within h)

theorem deliverMeter_within (h : Within l s t) (hl : [.inbox, .mtr] ⊆ l := by decide) :
    Within l s (deliverMeter t) :=
  .lift hl h fun h => .ite (.upd h) h

theorem audit_within (h : Within l s t) (hl : [.inbox, .mtr] ⊆ l := by decide) :
    Within l s (audit a1 a2 t) :=
  .lift hl h fun h => .ite (modMeter_within h) (meterRaise_within (modMeter_within h))

theorem loseTally_within (h : Within l s t) (hl : [.inbox, .mtr] ⊆ l := by decide) :
    Within l s (loseTally a1 t) :=
  .lift hl h fun h => .ite h (meterRaise_within (modMeter_within h))

theorem tallyDelta_within (h : Within l s t) (hl : [.inbox, .mtr] ⊆ l := by decide) :
    Within l s (tallyDelta a1 a2 t) :=
  .lift hl h fun h => .ite (.ite (modMeter_within (loseTally_within (.ite (modMeter_within (modMeter_within h))
      (modMeter_within h)))) (loseTally_within (.ite (modMeter_within (modMeter_within h)) (modMeter_within h))))
      (.ite (modMeter_within (modMeter_within h)) (modMeter_within h))

theorem latchTallies_within (h : Within l s t) (hl : [.mtr] ⊆ l := by decide) :
    Within l s (latchTallies a1 a2 t) :=
  .lift hl h fun h => modMeter_within h

theorem meterBoundary_within (h : Within l s t) (hl : [.mtr] ⊆ l := by decide) :
    Within l s (meterBoundary a1 a2 t) := by
  refine .lift hl h fun h => ?_
  unfold meterBoundary
  exact modMeter_within (by
    split
    · exact latchTallies_within h
    · exact h)

theorem setCtxOwner_within (h : Within l s t) (hl : [.ldg] ⊆ l := by decide) :
    Within l s (setCtxOwner a1 a2 t) :=
  .lift hl h fun h => .upd h

theorem freeKey_within (h : Within l s t) (hl : [.desc, .trk, .slots, .models, .ilk, .wins] ⊆ l := by decide) :
    Within l s (freeKey a1 t) :=
  .lift hl h fun h => .upd (dropHeld_within h)

theorem detachBoundary_within (h : Within l s t) (hl : [.ldg, .ilk] ⊆ l := by decide) :
    Within l s (detachBoundary a1 a2 t) :=
  .lift hl h fun h => .forEach (fun h1 => .upd h1) (.upd h)

theorem returnContexts_within (h : Within l s t) (hl : [.ldg] ⊆ l := by decide) :
    Within l s (returnContexts a1 t) :=
  .lift hl h fun h => setCtxOwner_within h

theorem commitWrites_within (h : Within l s t) (hl : [.ttb, .stats, .stn, .jct, .myd, .ldg, .wtp, .slots, .plt,
    .wbr, .gens, .sbx, .inbox] ⊆ l := by decide) :
    Within l s (commitWrites t) :=
  .lift hl h fun h => .ite h (.ite (State.modStat_within (.forEach (fun h1 => followDefault_within h1)
      (activate_within (.upd h)))) (.forEach (fun h1 => followDefault_within h1) (activate_within (.upd h))))

theorem turnStats_within (h : Within l s t) (hl : [.stats] ⊆ l := by decide) :
    Within l s (turnStats a1 a2 t) :=
  .lift hl h fun h => .upd h

theorem governorBoundary_within (h : Within l s t) (hl : [.trk, .sbx] ⊆ l := by decide) :
    Within l s (governorBoundary a1 t) :=
  .lift hl h fun h => .upd h

theorem noteUnobserved_within (h : Within l s t) (hl : [.ilk] ⊆ l := by decide) :
    Within l s (noteUnobserved t) :=
  .lift hl h fun h => .upd h

theorem endWindows_within (h : Within l s t) (hl : [.wtp] ⊆ l := by decide) :
    Within l s (endWindows a1 a2 t) :=
  .lift hl h fun h => .upd h

theorem startPlan_within (h : Within l s t) (hl : [.stn, .wtp, .sbx] ⊆ l := by decide) :
    Within l s (startPlan t) := by
  refine .lift hl h fun h => ?_
  unfold startPlan
  split
  · exact h
  · exact writeMasks_within (.upd (.upd h))

theorem planShortfalls_within (h : Within l s t) (hl : [.wtp, .inbox] ⊆ l := by decide) :
    Within l s (planShortfalls a1 t) := by
  refine .lift hl h fun h => ?_
  unfold planShortfalls
  split
  · exact h
  · exact .ite (shortfall_within (.forEach (fun h1 => shortfall_within h1) (.forEach (fun h1 => shortfall_within
      h1) h))) (.forEach (fun h1 => shortfall_within h1) (.forEach (fun h1 => shortfall_within h1) h))

theorem tallyRest_within (h : Within l s t) (hl : [.inbox, .mtr] ⊆ l := by decide) :
    Within l s (tallyRest a1 t) :=
  .lift hl h fun h => .forEach (fun h1 => .forEach (fun h2 => tallyDelta_within h2) h1) h

theorem bistWord_within (h : Within l s t) (hl : [.ldg, .inbox] ⊆ l := by decide) :
    Within l s (bistWord a1 t) := by
  refine .lift hl h fun h => ?_
  unfold bistWord
  split
  · exact State.raise_within h
  · exact .ite (ledgerEcc_within h) h
  · exact State.raise_within h
  · exact State.raise_within h
  · exact h

theorem bistTracks_within (h : Within l s t) (hl : [.stats, .jct, .recs, .trk, .wtp, .items, .slots, .plt, .frames,
    .models, .wbr, .inbox] ⊆ l := by decide) :
    Within l s (bistTracks a1 t) :=
  .lift hl h fun h => .forEach (fun h1 => withdrawTrack_within h1) (.upd h)

end Sys2Proof.Machine
end

section
/-! PROOFS. What the functions of the model may write. -/

namespace Sys2Proof.Machine

set_option Elab.async false

open Within

variable {l : List Place} {s t u : State}

theorem State.modPart_within (h : Within l s t) (hl : [.ilk] ⊆ l := by decide) :
    Within l s (State.modPart t a1 a2) :=
  .lift hl h fun h => .upd h

theorem State.refillVrd_within (h : Within l s t) (hl : [.recs, .wtp, .inbox] ⊆ l := by decide) :
    Within l s (State.refillVrd t) := by
  refine .lift hl h fun h => ?_
  unfold State.refillVrd
  split
  · exact h
  · exact .ite (State.emit_within (.upd h)) h

theorem State.completeFree_within (h : Within l s t) (hl : [.desc, .wins] ⊆ l := by decide) :
    Within l s (State.completeFree t a1 a2 a3 a4) :=
  .lift hl h fun h => .ite (State.modWin_within h) (State.complete_within h)

theorem endSession_within (h : Within l s t) (hl : [.myd, .desc, .ilk, .wins, .gens, .exp] ⊆ l := by decide) :
    Within l s (endSession a1 a2 t) :=
  .lift hl h fun h => .ite (.ite (State.modPart_within (State.modSession_within (dropSession_within h)))
      (State.modSession_within (dropSession_within h))) h

theorem endSiding_within (h : Within l s t) (hl : [.myd, .desc, .ilk, .wins, .gens, .exp] ⊆ l := by decide) :
    Within l s (endSiding a1 t) :=
  .lift hl h fun h => .forEach (fun h1 => .ite (State.modSession_within (endSession_within h1)) h1) h

theorem discardItem_within (h : Within l s t) (hl : [.wins, .exp] ⊆ l := by decide) :
    Within l s (discardItem a1 a2 t) := by
  refine .lift hl h fun h => ?_
  unfold discardItem
  split
  · split
    · exact State.modWin_within h
    · exact h
  · exact noteDiscarded_within h
  · exact h

theorem unnameSiding_within (h : Within l s t) (hl : [.myd, .gens] ⊆ l := by decide) :
    Within l s (unnameSiding a1 t) :=
  .lift hl h fun h => .upd h

theorem forgetFlight_within (h : Within l s t) (hl : [.exp] ⊆ l := by decide) :
    Within l s (forgetFlight a1 t) :=
  .lift hl h fun h => .upd h

theorem freeSiding_within (h : Within l s t) (hl : [.myd, .desc, .slots, .models, .ilk, .wins, .gens, .exp] ⊆ l :=
    by decide) :
    Within l s (freeSiding a1 t) :=
  .lift hl h fun h => State.modSdg_within (forgetFlight_within (unnameSiding_within (dropHeld_within (.forEach (fun
      h1 => discardItem_within h1) (.forEach (fun h1 => State.finish_within h1) (.ite (endSiding_within h) h))))))

theorem makeSiding_within (h : Within l s t) (hl : [.desc] ⊆ l := by decide) :
    Within l s (makeSiding a1 a2 a3 a4 a5 a6 a7 a8 a9 t) :=
  .lift hl h fun h => State.modSdg_within h

theorem verdictCheck_within (h : Within l s t) (hl : [.inbox] ⊆ l := by decide) :
    Within l s (verdictCheck a1 t) :=
  .lift hl h fun h => .ite h (State.raise_within h)

theorem noteEmission_within (h : Within l s t) (hl : [.stats, .inbox] ⊆ l := by decide) : Within l s (noteEmission
    a1 t) := by
  refine .lift hl h fun h => ?_
  unfold noteEmission
  extract_lets done s1 x1
  have h1' : Within [.stats, .inbox] t s1 := by
    dsimp only [s1]
    split
    · exact .ite (verdictCheck_within h) h
    · exact h
  exact .upd h1'

theorem noteSwitch_within (h : Within l s t) (hl : [.stats, .jct, .ilk] ⊆ l := by decide) :
    Within l s (noteSwitch a1 t) := by
  refine .lift hl h fun h => ?_
  unfold noteSwitch
  extract_lets x1 x2 s1 x3
  have h1' : Within _ t s1 := .ite (.upd h) h
  exact .upd h1'

theorem popSource_within (h : Within l s t) (hl : [.stn, .jct, .recs, .wtp, .inbox] ⊆ l := by decide) :
    Within l s (popSource a1 t) :=
  .lift hl h fun h => .ite (.ite (State.modStation_within (.upd h)) (.upd h)) (.ite (State.refillVrd_within (.upd
      h)) (.upd h))

theorem noteFaultNamed_within (h : Within l s t) (hl : [.ilk] ⊆ l := by decide) :
    Within l s (noteFaultNamed a1 t) :=
  .lift hl h fun h => .forEach (fun h1 => State.modPart_within h1) h

theorem releaseRec_within (h : Within l s t) (hl : [.stats, .stn, .jct, .recs, .myd, .wtp, .ilk, .inbox] ⊆ l := by
    decide) :
    Within l s (releaseRec a1 t) :=
  .lift hl h fun h => .upd (.ite (noteFaultNamed_within (.ite (noteEmission_within (noteSwitch_within
      (popSource_within h))) (noteSwitch_within (popSource_within h)))) (.ite (noteEmission_within
      (noteSwitch_within (popSource_within h))) (noteSwitch_within (popSource_within h))))

theorem modModel_within (h : Within l s t) (hl : [.models] ⊆ l := by decide) :
    Within l s (modModel a1 a2 t) :=
  .lift hl h fun h => .upd h

theorem setModel_within (h : Within l s t) (hl : [.plt, .models] ⊆ l := by decide) :
    Within l s (setModel a1 a2 a3 t) :=
  .lift hl h fun h => clampTables_within (modModel_within h)

theorem freeModel_within (h : Within l s t) (hl : [.plt, .models] ⊆ l := by decide) :
    Within l s (freeModel a1 t) :=
  .lift hl h fun h => setModel_within h

theorem modDetach_within (h : Within l s t) (hl : [.ilk] ⊆ l := by decide) :
    Within l s (modDetach a1 a2 t) :=
  .lift hl h fun h => .upd h

theorem clearLatch_within (h : Within l s t) (hl : [.ldg] ⊆ l := by decide) :
    Within l s (clearLatch a1 t) :=
  .lift hl h fun h => .upd h

theorem createPart_within (h : Within l s t) (hl : [.ldg, .ilk, .wins] ⊆ l := by decide) :
    Within l s (createPart a1 a2 a3 t) := by
  refine .lift hl h fun h => ?_
  unfold createPart
  extract_lets s1 x1 s2 x2 s3
  have h1' : Within _ t s1 := clearLatch_within (setCtxOwner_within h)
  have h2' : Within _ t s2 := .upd h1'
  have h3' : Within _ t s3 := State.modPart_within h2'
  exact State.modWin_within h3'

theorem setUserRead_within (h : Within l s t) (hl : [.ldg] ⊆ l := by decide) :
    Within l s (setUserRead a1 a2 t) :=
  .lift hl h fun h => .upd h

theorem stopStreams_within (h : Within l s t) (hl : [.myd, .gens] ⊆ l := by decide) :
    Within l s (stopStreams a1 t) :=
  .lift hl h fun h => .upd h

theorem leavePlan_within (h : Within l s t) (hl : [.desc, .wtp, .slots, .models, .wins] ⊆ l := by decide) :
    Within l s (leavePlan a1 t) :=
  .lift hl h fun h => dropHeld_within (modPlanSlot_within (.upd h))

theorem Within.setWbr (h : Within l s t) (y : Weigh) (hl : [.wbr] ⊆ l := by decide) :
    Within l s { t with wbr := y } :=
  .lift hl h fun h => .upd h

theorem Within.setGens (h : Within l s t) (y : Dispatcher)
    (same : { y with wins := [], heldQ := [], pending := [], frozen := [], activeGen := 0, fp := [] } =
      { t.dsp with wins := [], heldQ := [], pending := [], frozen := [], activeGen := 0, fp := [] } ∧
      y.wins = t.dsp.wins ∧ y.heldQ = t.dsp.heldQ := by exact ⟨rfl, rfl, rfl⟩) (hl : [.gens] ⊆ l := by decide) :
    Within l s { t with dsp := y } := by
  obtain ⟨rest, wins, held⟩ := same
  refine .lift hl h fun h => .upd h fun p hp => ?_
  cases p
  case gens => exact absurd (by decide) hp
  case dsp => exact rest
  case wins => exact Prod.ext wins held
  all_goals rfl

theorem freeObjects_within (h : Within l s t) (hl : [.desc, .wtp, .slots, .plt, .models, .wbr, .wins, .gens] ⊆ l :=
    by decide) : Within l s (freeObjects a1 t) := by
  refine .lift hl h fun h => ?_
  unfold freeObjects
  extract_lets keep x1 s1 s2 s3 x2 stream x3 s4
  have h1' : Within _ t s1 := h.setGens _
  have h2' : Within _ t s2 := .forEach (fun h => leavePlan_within h) h1'
  have h3' : Within _ t s3 := .forEach (fun h => dropHeld_within (freeModel_within h)) h2'
  have h4' : Within _ t s4 := .upd h3'
  exact .forEach (fun h => (h.setWbr _).setWbr _) h4'

theorem dropHeldOf_within (h : Within l s t) (hl : [.desc, .slots, .models, .wins] ⊆ l := by decide) :
    Within l s (dropHeldOf a1 t) :=
  .lift hl h fun h => abortHeld_within h

theorem detachPart_within (h : Within l s t) (hl : [.myd, .ldg, .desc, .wtp, .slots, .plt, .models, .wbr, .ilk,
    .wins, .gens, .exp] ⊆ l := by decide) :
    Within l s (detachPart a1 t) :=
  .lift hl h fun h => .ite (dropSession_within (dropHeldOf_within (freeObjects_within (State.modWin_within
      (modDetach_within (clearLatch_within (setUserRead_within (stopStreams_within (State.modPart_within h)))))))))
      (dropHeldOf_within (freeObjects_within (State.modWin_within (modDetach_within (clearLatch_within
      (setUserRead_within (stopStreams_within (State.modPart_within h))))))))

theorem zeroSiding_within (h : Within l s t) (hl : [.pool] ⊆ l := by decide) :
    Within l s (zeroSiding a1 t) :=
  .lift hl h fun h => .upd h

theorem scrubFrom_within (h : Within l s t) (hl : [.ilk, .mem] ⊆ l := by decide) :
    Within l s (scrubFrom a1 a2 t) := by
  refine .lift hl h fun h => ?_
  unfold scrubFrom
  split
  · exact addJob_within h
  · exact modDetach_within (.upd h)

theorem scrubPart_within (h : Within l s t) (hl : [.myd, .desc, .pool, .trk, .slots, .models, .ilk, .wins, .gens,
    .mem, .exp] ⊆ l := by decide) :
    Within l s (scrubPart a1 t) :=
  .lift hl h fun h => scrubFrom_within (.upd (State.modWin_within (.forEach (fun h1 => freeKey_within h1) (.forEach
      (fun h1 => freeSiding_within (zeroSiding_within h1)) (State.modPart_within h)))))

theorem answerDetach_within (h : Within l s t) (hl : [.desc, .wins] ⊆ l := by decide) :
    Within l s (answerDetach a1 t) :=
  .lift hl h fun h => .ite (.ite (State.completeFree_within h) h) (State.finish_within h)

theorem freePart_within (h : Within l s t) (hl : [.desc, .ilk, .wins] ⊆ l := by decide) :
    Within l s (freePart a1 t) :=
  .lift hl h fun h => .withSome (fun h1 => answerDetach_within h1) (State.modPart_within (.upd h))

theorem makeCompl_within (h : Within l s t) (hl : [.desc] ⊆ l := by decide) :
    Within l s (makeCompl a1 a2 a3 a4 t) :=
  .lift hl h fun h => State.modSiding_within (makeSiding_within h)

end Sys2Proof.Machine
end

section
/-! PROOFS. What a completion and the issue of a packet leave as they are. -/

namespace Sys2Proof.Machine

open Sys2Proof.Claims

theorem Within.wins_eq {l : List Place} {s t : State} (h : Within l s t) (hl : .wins ∉ l := by decide) :
    t.dsp.wins = s.dsp.wins :=
  congrArg Prod.fst (h .wins hl)

/-- A completion is written in a siding alone. -/
theorem told_within {l : List Place} {s t : State} {w : Nat} {pk : List Word} {status result : Nat} {result2 : Word}
    (h : Within l s t) (hl : [.desc] ⊆ l := by decide) : Within l s (told w pk status result result2 t) :=
  .lift hl h fun h => .ite (.upd h) h

/-- The siding that a completion goes to, and what stands in the sidings, decide what it makes of them. -/
theorem told_sdg_congr {s t : State} {w : Nat} (hsdg : t.sdg = s.sdg) (hcompl : (t.win w).compl = (s.win w).compl)
    (pk : List Word) (status result : Nat) (result2 : Word) :
    (told w pk status result result2 t).sdg = (told w pk status result result2 s).sdg := by
  simp only [told, hsdg, hcompl]
  split
  · rfl
  · exact hsdg

/-- A long command is one more long command of its window. -/
theorem startLong_longs {s : State} {t : Ticket} (ht : t.tkl = false) (hw : t.w < s.dsp.wins.length) :
    ((s.startLong t).win t.w).longs = (s.win t.w).longs + 1 := by
  simp [State.startLong, ht, State.modWin, State.win, List.getD_eq_getElem?_getD, hw]

/-- Taking a packet leaves the long commands of every window. -/
theorem taken_longs (w v : Nat) (s : State) : ((taken w s).win v).longs = (s.win v).longs := by
  simp only [taken, State.win, getD_modify]
  split <;> simp_all

theorem told_other_siding {s : State} {i w : Nat} (h : i ≠ (s.win w).compl) (pk : List Word) (status result : Nat)
    (result2 : Word) : (told w pk status result result2 s).siding i = s.siding i := by
  unfold told
  extract_lets item put
  split
  · exact State.siding_modSiding_ne s put h.symm
  · rfl

end Sys2Proof.Machine
end

section
/-! PROOFS. O16: the epoch configuration, the governor's configuration, and when COMMIT takes effect (R66, R84,
R266). -/

namespace Sys2Proof.Machine

/-! ### The generation that COMMIT makes -/

/-- The next generation is active, and the lists of writes stand as before. -/
theorem activate_gens {ws : List EWrite} (hws : ws ≠ []) (s : State) :
    (activate ws s).dsp.activeGen = (s.dsp.activeGen + 1) % 2 ^ 32 ∧ (activate ws s).dsp.pending = s.dsp.pending ∧
      (activate ws s).dsp.frozen = s.dsp.frozen := by
  have some_ : ws.isEmpty = false := by simpa using hws
  have kept := applyAll_within (a1 := ws) (.refl _ s) (List.Subset.refl _) .gens (by decide)
  simp only [Place.get, Prod.mk.injEq] at kept
  obtain ⟨pending, frozen, gen, -⟩ := kept
  unfold activate
  rw [some_, if_neg Bool.false_ne_true]
  exact ⟨congrArg (fun n => (n + 1) % 2 ^ 32) gen, pending, frozen⟩

/-- After the writes have been carried out none waits, and with one of them the generation is the next. -/
theorem commitWrites_gens (s : State) :
    (commitWrites s).dsp.pending = [] ∧ (commitWrites s).dsp.frozen = [] ∧ (commitWrites s).dsp.activeGen =
      if s.dsp.frozen ++ s.dsp.pending = [] then s.dsp.activeGen else (s.dsp.activeGen + 1) % 2 ^ 32 := by
  unfold commitWrites
  extract_lets ws src s0 s1
  by_cases none_ : s.dsp.frozen ++ s.dsp.pending = []
  · have empty : ws.isEmpty = true := by simp only [ws, none_, List.isEmpty_nil]
    rw [if_pos empty, if_pos none_]
    simp only [List.append_eq_nil_iff] at none_
    exact ⟨none_.2, none_.1, rfl⟩
  · have nonempty : ¬ ws.isEmpty = true := by simpa [ws] using none_
    rw [if_neg nonempty, if_neg none_]
    obtain ⟨gen, pending, frozen⟩ := activate_gens (ws := ws) none_
      { s with dsp := { s.dsp with pending := [], frozen := [] } }
    have kept : Within [.stn, .inbox] s0 s1 := .forEach (fun h => followDefault_within h) (.refl _ s0)
    have gens := kept .gens (by decide)
    simp only [Place.get, Prod.mk.injEq] at gens
    obtain ⟨pending1, frozen1, gen1, -⟩ := gens
    split
    · exact ⟨pending1.trans pending, frozen1.trans frozen, gen1.trans gen⟩
    · exact ⟨pending1.trans pending, frozen1.trans frozen, gen1.trans gen⟩

theorem commitWrites_none {s : State} (hp : s.dsp.pending = []) (hf : s.dsp.frozen = []) : commitWrites s = s := by
  simp [commitWrites, hp, hf]

/-- Completions leave the generations. -/
theorem RepliesOnly.gens {s t : State} (h : RepliesOnly s t) :
    t.dsp.pending = s.dsp.pending ∧ t.dsp.frozen = s.dsp.frozen ∧ t.dsp.activeGen = s.dsp.activeGen ∧
      t.dsp.commitHeld = s.dsp.commitHeld := by
  rw [h]
  exact ⟨rfl, rfl, rfl, rfl⟩

/-! ### Clamped words -/

/-- The clamps of TTB_EPOCH_CFG keep epoch_en. -/
theorem bit_clampEpochCfg (w : Word) : bit (clampEpochCfg w) 8 = bit w 8 := by
  have en : bit (clampEpochCfg w) 8 = decide (fld w 8 1 % 2 = 1) := bit_pack (by simp [Laid]) (by simp)
  have low : fld w 8 1 < 2 := fld_lt w 8 1
  rw [en, bit_eq_fld, Nat.mod_eq_of_lt low]

theorem clampGovCfg_budget_le (w : Word) : fld (clampGovCfg w) 8 8 ≤ fld (clampGovCfg w) 0 8 := by
  have capLe : clamp 20 90 (fld w 0 8) ≤ 90 := by unfold clamp; omega
  have budget : fld (clampGovCfg w) 8 8 = min (clamp 20 90 (fld w 0 8)) (clamp 20 90 (fld w 8 8)) % 2 ^ 8 :=
    fld_pack (by simp [Laid]) (by simp)
  have cap : fld (clampGovCfg w) 0 8 = clamp 20 90 (fld w 0 8) % 2 ^ 8 := fld_pack (by simp [Laid]) (by simp)
  omega

end Sys2Proof.Machine
end

section
open Sys2Proof Sys2Proof.Machine Sys2Proof.Claims

theorem Sys2Proof.Claims.epochAndGovernorSettings : EpochAndGovernorSettings := by
  refine ⟨?_, ?_⟩
  · intro s pk w hissues v
    have acts : exec (.epochSet w) s = .next (epochSet pk (ticketOf w pk) (taken w s)) :=
      congrArg next (issue_of_issues hissues)
    have pend : pendEpochCfg (pw pk 1) (taken w s) = (taken w { s with dsp := { s.dsp with
        pending := s.dsp.pending.filter (fun e => match e with | .epochCfg _ => false | _ => true)
          ++ [.epochCfg v] } }, v) := by
      simp only [pendEpochCfg, bit_clampEpochCfg]
      rfl
    rw [acts, epochSet, pend]
    exact congrArg Host.Outcome.next (complete_eq_told (taken_compl_live hissues))
  · intro s pk w hissues v
    have acts : exec (.govSet w) s = .next (govSet pk (ticketOf w pk) (taken w s)) :=
      congrArg next (issue_of_issues hissues)
    refine ⟨clampGovCfg_budget_le _, ?_⟩
    rw [acts]
    exact congrArg Host.Outcome.next (complete_eq_told (taken_compl_live hissues))

theorem Sys2Proof.Claims.commitTiming : CommitTiming := by
  refine ⟨?_, ?_, ?_⟩
  · intro s pk hissues quiet hp hf
    have acts : exec (.commit 16) s = .next (commitNow pk (ticketOf 16 pk) (taken 16 s)) :=
      congrArg next (issue_of_issues hissues)
    have unannounced : (taken 16 s).ttb.announced.isSome = false := Option.isSome_eq_false_iff.mpr (by simp [taken,
      quiet])
    rw [acts, commitNow, unannounced, if_neg Bool.false_ne_true, commitWrites_none (s := taken 16 s) hp hf,
      answerCommit,
      statusDone, complete_eq_told (taken_compl_live hissues)]
    rfl
  · intro s pk hissues due
    have acts : exec (.commit 16) s = .next (commitNow pk (ticketOf 16 pk) (taken 16 s)) :=
      congrArg next (issue_of_issues hissues)
    have announced : (taken 16 s).ttb.announced.isSome = true := Option.isSome_iff_ne_none.mpr due
    refine ⟨_, acts, ?_⟩
    rw [commitNow, announced, if_pos rfl]
    exact ⟨rfl, rfl, rfl, rfl, rfl⟩
  · intro s k core held quiet
    refine ⟨commitResume s, by simp only [exec, execCommitHeldResume, core, when_true, next], ?_⟩
    have unannounced : s.ttb.announced.isSome = false := by simpa using quiet
    have writes := commitWrites_gens { s with dsp := { s.dsp with commitHeld := none } }
    have free : (commitWrites { s with dsp := { s.dsp with commitHeld := none } }).dsp.commitHeld = none :=
      (commitWrites_within (.refl _ { s with dsp := { s.dsp with commitHeld := none } })
        (List.Subset.refl _)).dsp_field (·.commitHeld)
    obtain ⟨pending, frozen, gen, heldStands⟩ := (State.complete_only (commitWrites { s with dsp := { s.dsp with
      commitHeld := none } }) k statusDone _ _).gens
    rw [commitResume, held]
    simp only [unannounced, if_neg Bool.false_ne_true, answerCommit]
    split
    · exact ⟨heldStands.trans free, pending.trans writes.1, frozen.trans writes.2.1, gen.trans writes.2.2⟩
    · exact ⟨heldStands.trans free, pending.trans writes.1, frozen.trans writes.2.1, gen.trans writes.2.2⟩

/-- Settles O16: the settings are the packets' own acts on the state without the packet; COMMIT answers, waits, or
carries out what waits (`commitWrites_gens`). -/
theorem pendingGeneration : Obligations.PendingGeneration := ⟨epochAndGovernorSettings, commitTiming⟩
end

section
/-! PROOFS. O18: the assembly of packets in a window, and the end of one that does not come whole (R253-R257). -/

namespace Sys2Proof.Machine

/-- Word 0 of a packet of one word, where the window has room, is a ready packet with the partition of the page. -/
theorem firstWord_single {w : Nat} {x : Word} {s : State} (len : fld x 36 4 = 0) (room : fifoUsed (s.win w) < 64) :
    firstWord w x s = readyPacket w [put x 52 4 (if w < 16 then w else 0)] s := by
  have one : pkLen [fillPartition w x] + 1 = 1 := by
    have stands : fld (fillPartition w x) 36 4 = 0 := (fld_put_below x _ (by omega) (by omega)).trans len
    exact congrArg (· + 1) stands
  have fits : fifoUsed (s.win w) + 1 ≤ 64 := room
  unfold firstWord
  simp only [one, fits, if_true]
  rfl

/-- A window of the array is found where its words are assembled. -/
theorem State.lt_of_asm {s : State} {w : Nat} {a : Assembly} (h : (s.win w).asm = some a) : w < s.dsp.wins.length := by
  by_contra out
  have reset : s.win w = CmdWin.reset := by simp [State.win, Nat.le_of_not_lt out]
  rw [reset] at h
  cases h

end Sys2Proof.Machine
end

section
open Sys2Proof Sys2Proof.Machine Sys2Proof.Claims

theorem Sys2Proof.Claims.windowAssembly : WindowAssembly := by
  refine ⟨?_, ?_, ?_⟩
  · intro s w x core hw isOpen fresh len room
    have takes : windowWrite w x s = readyPacket w [put x 52 4 (if w < 16 then w else 0)] s := by
      simp only [windowWrite, isOpen, Bool.true_or, if_true, fresh, firstWord_single len room]
    have on : (s.core && (0xFF : BitVec 8) == 0xFF#8 && decide (w < 17)) = true := by simp [core, hw]
    change next (when (s.core && (0xFF : BitVec 8) == 0xFF#8 && decide (w < 17)) (windowWrite w x) s) = _
    rw [on, when_true, takes]
    rfl
  · intro s w x a core hw isOpen under kept
    have on : (s.core && (0xFF : BitVec 8) == 0xFF#8 && decide (w < 17)) = true := by simp [core, hw]
    change next (when (s.core && (0xFF : BitVec 8) == 0xFF#8 && decide (w < 17)) (windowWrite w x) s) = _
    rw [on, when_true]
    simp only [windowWrite, isOpen, Bool.true_or, if_true, under, furtherWord, List.length_append,
      List.length_singleton,
      kept, Bool.false_eq_true, if_false]
    split
    · simp only [next, State.modWin]
    · simp only [next, State.modWin, readyPacket]
  · intro s w x be partial_
    have off : (s.core && be == 0xFF#8 && decide (w < 17)) = false := by simp [partial_]
    change next (when (s.core && be == 0xFF#8 && decide (w < 17)) (windowWrite w x) s) = _
    rw [off, when_false]
    rfl

theorem Sys2Proof.Claims.packetTimeouts : PacketTimeouts := by
  refine ⟨?_, ?_⟩
  · intro s w a core under drops late
    have due : (s.core && a.drop && decide (a.t0 + 1000000 ≤ s.now)) = true := by simp [core, drops, State.now, late]
    simp only [exec, execPacketDiscardTimeout, under, due, when_true, next, State.modWin]
  · intro s w a core under keeps late live room
    have due : (s.core && !a.drop && decide (a.t0 + 1000000 ≤ s.now)) = true := by simp [core, keeps, State.now, late]
    let given := s.modWin w fun y => { y with asm := none, abandoned := sat 8 (y.abandoned + 1) }
    have window : (given.win w).compl = (s.win w).compl ∧ (given.win w).owes = (s.win w).owes := by
      simp only [given, State.win_modWin_self _ _ _ (State.lt_of_asm under), and_self]
    have ample : ((given.siding (given.win w).compl).state == 1 && decide
        ((given.siding (given.win w).compl).free < (given.siding (given.win w).compl).coming + 3 * ((given.win w).owes
         + 1)))
        = false := by
      have siding : given.siding (given.win w).compl = s.siding (s.win w).compl := by rw [window.1]; rfl
      have enough : ¬ (s.siding (s.win w).compl).free < (s.siding (s.win w).compl).coming + 3 * ((s.win w).owes + 1)
        := by
        omega
      rw [siding, window.2, decide_eq_false enough, Bool.and_false]
    have liveStill : (given.siding (given.win w).compl).state = 1 := by rw [window.1]; exact live
    have answers : given.completeFree (ticketOf w a.words) statusAborted 0xFFFFFFFF 0 =
        told w a.words 6 0xFFFFFFFF 0 given := by
      unfold State.completeFree
      extract_lets x d
      have free : ¬ (d.state == 1 && decide (d.free < d.coming + 3 * (x.owes + 1))) = true := by
        rw [show (d.state == 1 && decide (d.free < d.coming + 3 * (x.owes + 1))) = false from ample]
        exact Bool.false_ne_true
      rw [if_neg free]
      exact complete_eq_told liveStill
    simp only [exec, execPacketAbandon, under, due, when_true]
    exact congrArg Host.Outcome.next answers

/-- Settles O18: a first word that fits (`firstWord_single`) or a further one makes its packet; after 1 ms the guard of
each timeout holds and its act is the update. -/
theorem packetAssembly : Obligations.PacketAssembly := ⟨windowAssembly, packetTimeouts⟩
end

section
/-! PROOFS. O19: the commands that only answer, and what comes before the act of a command: whose turn it is, and
whether its sender may send it (R260, R269, R355). -/

namespace Sys2Proof.Claims

open Sys2Proof.Machine

/-- Each command of the windows issues the packet at the head of its window, by its opcode. -/
theorem rootCommand_issues {w op : Nat} {e : Ecc} {c : Instr} (h : rootCommand w e op = some c) :
    ∃ act, ∀ s, exec c s = .next (issue op w act s) := by
  unfold rootCommand at h
  split at h <;> cases h <;> exact ⟨_, fun _ => rfl⟩

/-- A packet that a sender without the right has sent is answered NOT_PERMITTED. -/
theorem issue_notPermitted {op w : Nat} {pk : List Word} {s : State} {act : List Word → Ticket → State → State}
    (fw : s.fw = true) (head : headPacket s w = some { words := pk }) (turn : nextInRound s = some w)
    (opcode : pkOpcode pk = op) (root : op ∈ rootOps) (tenant : w < 16) (free : s.dsp.takeover = false)
    (stays : departing s w = false) :
    issue op w act s = (taken w s).complete (ticketOf w pk) statusNotPermitted 0 0 := by
  have d1 : departing (taken w s) w = false := stays
  have d2 : (taken w s).dsp.takeover = false := free
  have wrong : (rootOps.contains op && w != 16) = true := by simp [root, Nat.ne_of_lt tenant]
  simp only [issue, head, fw, turn, opcode, takePacket_eq_taken, d1, d2, wrong]
  simp

/-- Under take-over a packet is answered ABORTED. -/
theorem issue_takeover {op w : Nat} {pk : List Word} {s : State} {act : List Word → Ticket → State → State}
    (fw : s.fw = true) (head : headPacket s w = some { words := pk }) (turn : nextInRound s = some w)
    (opcode : pkOpcode pk = op) (held : s.dsp.takeover = true) :
    issue op w act s = (taken w s).complete (ticketOf w pk) statusAborted 0 0 := by
  have d2 : (taken w s).dsp.takeover = true := held
  simp only [issue, head, fw, turn, opcode, takePacket_eq_taken, d2]
  simp

/-- A window whose turn has not come issues nothing. -/
theorem issue_not_turn {op w : Nat} {s : State} {act : List Word → Ticket → State → State}
    (turn : nextInRound s ≠ some w) : issue op w act s = s := by
  unfold issue
  split
  · rfl
  · have no : (nextInRound s == some w) = false := by simpa using turn
    simp only [no, Bool.and_false, Bool.false_and, if_neg Bool.false_ne_true]

end Sys2Proof.Claims
end

section
open Sys2Proof Sys2Proof.Machine Sys2Proof.Claims

theorem Sys2Proof.Claims.answersOnly : AnswersOnly := by
  refine ⟨?_, ?_, ?_⟩
  · intro s w pk hissues
    have acts : exec (.nop w) s = .next ((taken w s).complete (ticketOf w pk) statusDone (param pk 0 32) 0) :=
      congrArg next (issue_of_issues hissues)
    rw [acts, complete_eq_told (taken_compl_live hissues)]
    rfl
  · intro s w pk hissues
    have acts : exec (.readVersion w) s =
        .next ((taken w s).complete (ticketOf w pk) statusDone blkVersion (nat64 s.dsp.fwVersion)) :=
      congrArg next (issue_of_issues hissues)
    rw [acts, complete_eq_told (taken_compl_live hissues)]
    rfl
  · intro s w op pk hissues unknown
    have head : headPacket s w = some { words := pk } := hissues.2.1
    have opcode : pkOpcode pk = op := hissues.2.2.2.1
    have foreign : knownOps.contains op = false := by simpa using unknown
    have acts := issue_of_issues (act := fun _ t s => s.complete t statusUnknownOp 0 0) hissues
    simp only [exec, execUnknownOp, head, opcode, foreign, if_neg Bool.false_ne_true, acts,
      complete_eq_told (taken_compl_live hissues)]
    rfl

theorem Sys2Proof.Claims.senderRights : SenderRights := by
  refine ⟨?_, ?_⟩
  · intro s w op pk e c hc root tenant fw head turn opcode free stays live
    obtain ⟨act, acts⟩ := rootCommand_issues hc
    have complLive : ((taken w s).siding ((taken w s).win w).compl).state = 1 := by rw [taken_win_compl]; exact live
    rw [acts, issue_notPermitted fw head turn opcode root tenant free stays, complete_eq_told complLive]
    rfl
  · intro s w op pk e c hc fw head turn opcode held live
    obtain ⟨act, acts⟩ := rootCommand_issues hc
    have complLive : ((taken w s).siding ((taken w s).win w).compl).state = 1 := by rw [taken_win_compl]; exact live
    rw [acts, issue_takeover fw head turn opcode held, complete_eq_told complLive]
    rfl

theorem Sys2Proof.Claims.turnsAreKept : TurnsAreKept := by
  intro s w op e c hc turn
  obtain ⟨act, acts⟩ := rootCommand_issues hc
  rw [acts, issue_not_turn turn]

/-- Settles O19: every command is the issue of its opcode (`rootCommand_issues`), and what the issue answers before the
command acts does not depend on the command. -/
theorem commandIssue : Obligations.CommandIssue := ⟨answersOnly, senderRights, turnsAreKept⟩
end

section
/-! PROOFS. O21: WINDOW_SET and GRANT (R269, R278, R281). -/

namespace Sys2Proof.Machine

open Sys2Proof.Claims

/-- A change that need not wait takes effect at once. -/
theorem tableChange_free {s : State} (h : pointFree s) (c : TableChange) : tableChange c s = applyChange c s := by
  have now : changeWaits s = false := by
    obtain ⟨none_, free | free⟩ := h <;> simp [changeWaits, none_, free]
  simp only [tableChange, now, if_neg Bool.false_ne_true]

/-- A change that would share a switch-over point waits. -/
theorem tableChange_waits {s : State} (h : changeWaits s = true) (c : TableChange) :
    tableChange c s = { s with ilk := { s.ilk with changes := s.ilk.changes ++ [c] } } := by
  simp only [tableChange, h, if_true]

theorem b2n_bit (w : Word) (i : Nat) : b2n (bit w i) = fld w i 1 := by
  have low : fld w i 1 < 2 := fld_lt w i 1
  rw [bit_eq_fld, b2n]
  split <;> simp only [decide_eq_true_eq] at * <;> omega

end Sys2Proof.Machine
end

section
open Sys2Proof Sys2Proof.Machine Sys2Proof.Claims

theorem Sys2Proof.Claims.windowSet : WindowSet := by
  refine ⟨?_, ?_⟩
  · intro s pk hissues named x put
    have acts : exec (.windowSet 16) s = .next (Machine.windowSet pk (ticketOf 16 pk) (taken 16 s)) :=
      congrArg next (issue_of_issues hissues)
    have named' : barredPart (taken 16 s) (ofOwnerCode (param pk 0 5)) = false := named
    rw [acts, Machine.windowSet]
    simp only [named', if_neg Bool.false_ne_true]
    exact congrArg Host.Outcome.next (complete_eq_told (taken_compl_live hissues))
  · intro s pk hissues barred
    have acts : exec (.windowSet 16) s = .next (Machine.windowSet pk (ticketOf 16 pk) (taken 16 s)) :=
      congrArg next (issue_of_issues hissues)
    have barred' : barredPart (taken 16 s) (ofOwnerCode (param pk 0 5)) = true := barred
    rw [acts, Machine.windowSet]
    simp only [barred', if_true]
    exact congrArg Host.Outcome.next (complete_eq_told (taken_compl_live hissues))

theorem Sys2Proof.Claims.grant : Grant := by
  refine ⟨?_, ?_, ?_⟩
  · intro s pk p hissues hp live notMirror m f
    have acts : exec (.grant 16) s = .next (Machine.grant pk (ticketOf 16 pk) (taken 16 s)) :=
      congrArg next (issue_of_issues hissues)
    have live' : ((taken 16 s).part (param pk 0 4)).state = 1 := by rw [← live, hp]; rfl
    have other : ¬ param pk 8 3 = 1 := notMirror
    have mask : fld (pw pk 1) 0 32 &&& ctxMaskOf (taken 16 s) (param pk 0 4) = m := by simp only [m, hp]; rfl
    rw [acts, Machine.grant]
    simp only [live', other, if_false, Nat.one_ne_zero, bne_self_eq_false, Bool.false_eq_true, mask]
    refine congrArg Host.Outcome.next ?_
    rw [statusDone, complete_eq_told (s := setUserRead m (paramBit pk 31) (taken 16 s)) (taken_compl_live hissues), hp]
    simp only [setUserRead, paramBit, b2n_bit]
    rfl
  · intro s pk p hissues hp live mirror free on f
    have acts : exec (.grant 16) s = .next (Machine.grant pk (ticketOf 16 pk) (taken 16 s)) :=
      congrArg next (issue_of_issues hissues)
    have live' : ((taken 16 s).part (param pk 0 4)).state = 1 := by rw [← live, hp]; rfl
    have mirror' : param pk 8 3 = 1 := mirror
    have free' : pointFree (taken 16 s) := free
    rw [acts, Machine.grant]
    simp only [live', mirror', if_true, if_false, Nat.one_ne_zero, bne_self_eq_false, Bool.false_eq_true,
      tableChange_free free']
    refine congrArg Host.Outcome.next ?_
    rw [statusDone, complete_eq_told (s := applyChange (.mirror (param pk 0 4) (paramBit pk 31)) (taken 16 s))
      (taken_compl_live hissues), hp]
    rfl
  · intro s pk hissues notLive
    have acts : exec (.grant 16) s = .next (Machine.grant pk (ticketOf 16 pk) (taken 16 s)) :=
      congrArg next (issue_of_issues hissues)
    rw [acts, Machine.grant]
    by_cases none_ : (s.part (fld (pk.getD 0 0) 0 4)).state = 0
    · have none' : ((taken 16 s).part (param pk 0 4)).state = 0 := none_
      simp only [none', none_, if_true]
      exact congrArg Host.Outcome.next (complete_eq_told (taken_compl_live hissues))
    · have none' : ¬ ((taken 16 s).part (param pk 0 4)).state = 0 := none_
      have notLive' : (((taken 16 s).part (param pk 0 4)).state != 1) = true := bne_iff_ne.mpr notLive
      simp only [none', none_, notLive', if_true, if_false]
      exact congrArg Host.Outcome.next (complete_eq_told (taken_compl_live hissues))

/-- Settles O21: the packet's act is the one update of the window or the context words, or the table change at once
(`tableChange_free`), and the refusals leave the state without the packet. -/
theorem partitionRights : Obligations.PartitionRights := ⟨Claims.windowSet, Claims.grant⟩
end

section
/-! PROOFS. O25: the station commands (R106, R270, R373). -/

namespace Sys2Proof.Machine

theorem namedStation_some {s : State} {pk : List Word} {n : Nat} (hn : n = fld (pk.getD 0 0) 0 6)
    (named : n < s.dsp.enumCount) : namedStation s pk = some n := by
  have named' : param pk 0 6 < s.dsp.enumCount := lt_of_eq_of_lt hn.symm named
  rw [namedStation, if_pos named', hn]
  rfl

theorem namedStation_none {s : State} {pk : List Word} (h : s.dsp.enumCount ≤ fld (pk.getD 0 0) 0 6) :
    namedStation s pk = none :=
  if_neg (Nat.not_lt.mpr h)

/-- One word for an entry of the array is one write. -/
theorem arrayWrites_single {base size first : Nat} {f : Word → Word} {b : Word} (h : first < size) :
    arrayWrites base size first f [b] = [(base + 8 * first, f b)] := by
  simp [arrayWrites, h, List.range_succ]

end Sys2Proof.Machine

namespace Sys2Proof.Claims

open Sys2Proof.Machine

/-- A packet of two words that writes one entry of a station's array: the write enters the pending generation. -/
theorem stnArray_single {base size first : Nat} {f : Word → Word} {a b : Word} {n op : Nat} {s : State}
    (hissues : Issues op 16 [a, b] s) (hn : n = fld a 0 6) (named : n < s.dsp.enumCount) (h : first < size) :
    stnArray base size first f [a, b] (ticketOf 16 [a, b]) (taken 16 s) =
      told 16 [a, b] 0 (256 + n) 0 (taken 16 { s with dsp := { s.dsp with
        pending := s.dsp.pending ++ [.stnReg n (base + 8 * first) (f b)] } }) := by
  have station : namedStation (taken 16 s) [a, b] = some n := namedStation_some hn named
  have writes : arrayWrites base size first f (pkArgs [a, b]) = [(base + 8 * first, f b)] := arrayWrites_single h
  simp only [stnArray, station, writes, forEach_cons, forEach_nil, List.length_singleton, Nat.one_mul]
  exact complete_eq_told (s := (taken 16 s).pendE (.stnReg n (base + 8 * first) (f b))) (taken_compl_live hissues)

end Sys2Proof.Claims
end

section
open Sys2Proof Sys2Proof.Machine Sys2Proof.Claims

/-- Settles O25: the named station's writes enter the pending generation before the completion, and a station beyond
enum_count is not named. -/
theorem stationCommands : Obligations.StationCommands := by
  refine ⟨?_, ?_, ?_, ?_, ?_⟩
  · intro s pk n hissues hn named c now
    have acts : exec (.stnConfig 16) s = .next (stnConfig pk (ticketOf 16 pk) (taken 16 s)) :=
      congrArg next (issue_of_issues hissues)
    have station : namedStation (taken 16 s) pk = some n := namedStation_some hn named
    rw [acts, stnConfig, station]
    exact congrArg Host.Outcome.next (complete_eq_told (taken_compl_live hissues))
  · intro s a b n k hissues hn named hk
    have acts : exec (.stnTagmap 16) s = .next (stnArray 0x40 32 (param [a, b] 8 5) clampTagmap [a, b]
        (ticketOf 16 [a, b]) (taken 16 s)) := congrArg next (issue_of_issues hissues)
    have inArray : param [a, b] 8 5 < 32 := fld_lt a 8 5
    rw [acts, stnArray_single hissues hn named inArray, hk]
    rfl
  · intro s a b n k hissues hn named hk
    have acts : exec (.stnThresh 16) s = .next (stnArray 0x140 16 (param [a, b] 8 4) clampThresh [a, b]
        (ticketOf 16 [a, b]) (taken 16 s)) := congrArg next (issue_of_issues hissues)
    have inArray : param [a, b] 8 4 < 16 := fld_lt a 8 4
    rw [acts, stnArray_single hissues hn named inArray, hk]
    rfl
  · intro s pk n o hissues hn named ho
    have acts : exec (.stnSnoopwin 16) s = .next (stnSnoopwin pk (ticketOf 16 pk) (taken 16 s)) :=
      congrArg next (issue_of_issues hissues)
    have station : namedStation (taken 16 s) pk = some n := namedStation_some hn named
    have place : 0x1C0 + 0x40 * param pk 8 3 = o := ho.symm
    simp only [acts, stnSnoopwin, station, place, State.pendE, List.append_assoc]
    exact congrArg Host.Outcome.next (complete_eq_told (taken_compl_live hissues))
  · intro s pk hissues beyond
    have acts : exec (.stnConfig 16) s = .next (stnConfig pk (ticketOf 16 pk) (taken 16 s)) :=
      congrArg next (issue_of_issues hissues)
    have station : namedStation (taken 16 s) pk = none := namedStation_none beyond
    rw [acts, stnConfig, station]
    exact congrArg Host.Outcome.next (complete_eq_told (taken_compl_live hissues))
end

section
/-! PROOFS. O9: resets, supplies and the fuse read (R45, R52, R53, R363, R369). -/

namespace Sys2Proof.Machine

open Sys2Proof.Claims

theorem fuseWord_of_lt {d : BitVec 32} {s : State} (h : s.pins.fuseAddr < 63) :
    fuseWord d s = { s with
      ilk := if s.pins.fuseAddr < 16 then { s.ilk with fuses := s.ilk.fuses.set s.pins.fuseAddr d } else s.ilk,
      pins := { s.pins with fuseAddr := s.pins.fuseAddr + 1 } } := by
  by_cases early : s.pins.fuseAddr < 16 <;> simp [fuseWord, early, h]

theorem fuseWord_last {d : BitVec 32} {s : State} (h : s.pins.fuseAddr = 63) : fuseWord d s = fusesRead s := by
  simp [fuseWord, h]

/-- The core as it starts: the faults of the meter are delivered, and after the fuse read the cores boot. -/
theorem startCore_eq {s : State} (hcore : s.core = true) (hfuse : s.pins.fuseReq = false) :
    startCore s = startBoot { s with
      sbx := { s.sbx with inbox := s.sbx.inbox ++ s.mtr.queue }, mtr := { s.mtr with queue := [] } } := by
  simp [startCore, deliverMeter, hcore, hfuse]

/-- The functional core runs once it is supplied and out of reset. -/
theorem core_eq_true {s : State} (hporst : s.pins.porstN = true) (hvq : s.pins.vqOn = true)
    (hblk : s.pins.blkRstN = true) (hwir : functionalWir s.pins.wir.toNat = true) :
    s.core = true := by
  simp [State.core, State.stationsRun, *]

end Sys2Proof.Machine

namespace Sys2Proof.Claims

open Sys2Proof.Machine

theorem powerOnReset : PowerOnReset := fun s =>
  ⟨porstAssert s, rfl, rfl, rfl, rfl, rfl, rfl, rfl, rfl, rfl, rfl, rfl, rfl, rfl, rfl, rfl, rfl, rfl, rfl, rfl, rfl,
    rfl⟩

theorem powerOnStartsFuseRead : PowerOnStartsFuseRead := fun s hporst =>
  congrArg next (if_neg (by simp [hporst]))

theorem fuseRead : FuseRead := by
  refine ⟨fun s d hdrives hreq hearly => ?_, fun s d hdrives hreq hlast hlock => ?_, fun s d held => ?_⟩
  · have acts : exec (.fuseWordSample d) s = .next (when (s.drives && s.pins.fuseReq) (fuseWord d) s) := rfl
    rw [acts, hdrives, hreq, ← fuseWord_of_lt hearly]
    rfl
  · refine ⟨fusesRead s, ?_, ?_⟩
    · have acts : exec (.fuseWordSample d) s = .next (when (s.drives && s.pins.fuseReq) (fuseWord d) s) := rfl
      rw [acts, hdrives, hreq, ← fuseWord_last hlast]
      rfl
    · have unlocked : mfgLock s = false := hlock
      have unlocked' : mfgLock { s with pins := { s.pins with fuseReq := false, fuseAddr := 0 } } = false := hlock
      simp only [fusesRead, unlocked', Bool.false_eq_true, if_false]
      split <;> exact ⟨rfl, rfl, rfl, rfl⟩
  · have idle : (s.drives && s.pins.fuseReq) = false := by
      rcases held with h | h | h <;> simp [State.drives, h]
    have acts : exec (.fuseWordSample d) s = .next (when (s.drives && s.pins.fuseReq) (fuseWord d) s) := rfl
    rw [acts, idle]
    rfl

theorem blockReset : BlockReset := fun s h => by
  have acts : exec .blkRstAssert s =
      .next (resetCore id resetLane { s with pins := { s.pins with blkRstN := false } }) := congrArg next (if_pos h)
  refine ⟨_, acts, rfl, Bool.and_false _, rfl, rfl, rfl, rfl, rfl, rfl, rfl, rfl, rfl, rfl, rfl, rfl, rfl,
    List.map_id _, rfl, rfl, rfl, rfl, rfl, rfl, rfl, rfl, rfl, rfl, rfl, rfl, rfl, rfl, rfl⟩

theorem coreSupplyOff : CoreSupplyOff := fun s h => by
  have acts : exec .vqOff s =
      .next (resetCore keepStation (fun _ => Lane.reset) { s with pins := { s.pins with vqOn := false } }) :=
    congrArg next (if_pos h)
  refine ⟨_, acts, rfl, ?_, ?_, rfl, rfl, rfl, rfl, rfl, rfl, rfl, rfl⟩
  · simp [resetCore, State.core, State.stationsRun]
  · simp [resetCore, State.outputsHeld]

theorem warmStart : WarmStart := by
  refine ⟨fun s hblk hporst hvq hfuse hwir => ?_, fun s hvq hporst hblk hfuse hwir => ?_⟩
  · have acts : exec .blkRstRelease s = .next (startCore { s with pins := { s.pins with blkRstN := true } }) :=
      congrArg next (if_neg (by simp [hblk]))
    have runs : ({ s with pins := { s.pins with blkRstN := true } } : State).core = true :=
      core_eq_true hporst hvq rfl hwir
    rw [Answers, acts, startCore_eq runs hfuse]
    exact ⟨_, rfl, rfl, rfl, rfl, rfl, rfl, rfl, rfl, rfl, rfl, rfl⟩
  · have acts : exec .vqOn s = .next (startCore { s with pins := { s.pins with vqOn := true } }) :=
      congrArg next (if_neg (by simp [hvq]))
    have runs : ({ s with pins := { s.pins with vqOn := true } } : State).core = true :=
      core_eq_true hporst rfl hblk hwir
    rw [Answers, acts, startCore_eq runs hfuse]
    exact ⟨_, rfl, rfl, rfl, rfl, rfl, rfl, rfl⟩

end Sys2Proof.Claims
end

section
open Sys2Proof Sys2Proof.Machine Sys2Proof.Claims

/-- Settles O9: each reset is one update of the state; a start of the core delivers what the meter kept and boots. -/
theorem resetsAndSupplies : Obligations.ResetsAndSupplies :=
  ⟨powerOnReset, powerOnStartsFuseRead, fuseRead, blockReset, coreSupplyOff, warmStart⟩
end

section
/-! PROOFS. O10: why the enumeration can leave more in the Signal Box's inbox than the chain fault (log 114). -/

namespace Sys2Proof.Machine

theorem refreshFp_sbx (s : State) : (refreshFp s).sbx = s.sbx := by
  rw [refreshFp]
  split <;> rfl

/-- The deltas that the stations still hold have reached the tallies; what follows adds the chain fault alone. -/
theorem stationEnum_sbx {count : Nat} {s : State} (h : count = s.params.nStn) :
    (stationEnum count s).sbx = (forEach (List.range s.stn.length) tallyRest s).sbx := by
  have flushed : Within [.inbox, .mtr] s (forEach (List.range s.stn.length) tallyRest s) :=
    .forEach (fun h => tallyRest_within h) (.refl _ s)
  have kept := flushed.params_eq
  simp only [stationEnum, refreshFp_sbx, kept, h, if_true]

theorem exec_stationEnum {c : BitVec 7} {s : State} (hcore : s.core = true) (hsent : s.dsp.enumSent = true)
    (hc : c.toNat ≤ 64) : exec (.stationEnumTokenReturn c) s = .next (stationEnum c.toNat s) := by
  have acts : exec (.stationEnumTokenReturn c) s =
      .next (when (s.core && s.dsp.enumSent) (stationEnum (min 64 c.toNat)) s) := rfl
  rw [acts, hcore, hsent, Nat.min_eq_right hc]
  rfl

/-- The core just before its only station is enumerated anew: that station has a count-lost marking on its link, of a
counter that tally 0 maps. -/
def lostOnLink : State :=
  { State.reset with
    params := { State.reset.params with nStn := 1 }
    pins := { Pins.reset with porstN := true }
    dsp := { Dispatcher.reset with enumSent := true }
    stn := [{ Station.reset with link := [{ ctx := 0, ev := 0, count := 0, epoch := 0, mark := false, lost := true }] }]
    mtr := { Meter.reset with map := Meter.reset.map.set 0 0x8000000000000001#64 } }

end Sys2Proof.Machine
end

section
open Sys2Proof Sys2Proof.Machine Sys2Proof.Claims

/-- Refutes O10: the enumeration clears a station that still holds a count-lost marking, the tally that maps its counter
loses its claim, and 2/0x11 reaches the Signal Box though the count is N_STN. -/
theorem not_startUp : ¬ Obligations.StartUp := by
  rintro ⟨-, -, enumerates, -⟩
  have runs : lostOnLink.core = true := by decide +kernel
  obtain ⟨t, acts, -, -, -, -, chain⟩ := enumerates lostOnLink 1 runs rfl (by decide)
  have told : (forEach (List.range lostOnLink.stn.length) tallyRest lostOnLink).sbx ≠ lostOnLink.sbx := by
    decide +kernel
  have sent : lostOnLink.dsp.enumSent = true := rfl
  have answered := exec_stationEnum (c := 1) runs sent (by decide)
  have ends : stationEnum (1 : BitVec 7).toNat lostOnLink = t := Host.Outcome.next.inj (answered.symm.trans acts)
  have one : (1 : BitVec 7).toNat = lostOnLink.params.nStn := rfl
  have quiet : t.sbx = lostOnLink.sbx := Eq.mp (if_pos one) chain
  exact told ((stationEnum_sbx (s := lostOnLink) one).symm.trans ((congrArg State.sbx ends).trans quiet))
end

section
/-! PROOFS. O14: frame numbers, master edges and the announced boundary (R75, R81-R84, R266). -/

namespace Sys2Proof.Machine

open Sys2Proof.Claims

theorem exec_fsyncEdge {s : State} {i : Nat} (htime : s.timeRuns = true) (hi : i < 16) (hdue : boundaryDue s = false) :
    exec (.fsyncEdge i) s = .next (fsyncEdge i s) := by
  have acts : exec (.fsyncEdge i) s = .next (when (s.timeRuns && decide (i < 16) && !boundaryDue s) (fsyncEdge i) s) :=
    rfl
  rw [acts, htime, hdue, decide_eq_true hi]
  rfl

/-- No frame of a stream is numbered before the first boundary. -/
theorem numberFrame_unbound {t : Timetable} (h : t.anyBoundary = false) (i stamp : Nat) : numberFrame i stamp t = t :=
  if_neg (by simp [framesCount, h])

/-- Numbering a frame writes the stream's frame marks alone. -/
theorem numberFrame_eq (i stamp : Nat) (t : Timetable) :
    numberFrame i stamp t = { t with
      frameNext := (numberFrame i stamp t).frameNext, frameStamp := (numberFrame i stamp t).frameStamp } := by
  rw [numberFrame]
  split <;> rfl

/-- What a master edge of either kind writes in the Timetable before it may place a boundary. -/
def counted (kind : EdgeKind) (stamp : Nat) (t : Timetable) : Timetable :=
  { measure kind stamp t with
    prevMaster := some stamp, lastAccepted := if kind == .internal then t.lastAccepted else some stamp,
    lastEdge := stamp, edgeCount := t.edgeCount + 1 }

theorem placesBoundary_counted (kind : EdgeKind) (stamp : Nat) (t : Timetable) :
    placesBoundary (counted kind stamp t) =
      (t.armed || (t.running && decide (framesPerEpoch t ≤ t.edgeCount + 1))) := by
  cases kind <;> rfl

/-- The state after the marks of a master edge, with the fault of the last synthetic edge allowed. -/
def marked (kind : EdgeKind) (stamp : Nat) (s : State) : State :=
  let t := counted kind stamp s.ttb
  if kind == .synthetic && t.synthRun == missLimit t then { s with ttb := t }.raise 2 3 0 (masterOf t)
  else { s with ttb := t }

theorem countEdge_eq (kind : EdgeKind) (stamp : Nat) (s : State) :
    countEdge kind stamp s = if placesBoundary (counted kind stamp s.ttb) then announce stamp kind (marked kind stamp s)
      else marked kind stamp s := by
  cases kind <;> rfl

/-- An edge that places no boundary leaves its marks. -/
theorem countEdge_unplaced {kind : EdgeKind} {stamp : Nat} {s : State} (harmed : s.ttb.armed = false)
    (hcount : s.ttb.edgeCount + 1 < framesPerEpoch s.ttb) : countEdge kind stamp s = marked kind stamp s := by
  have places : placesBoundary (counted kind stamp s.ttb) = false := by
    simp [placesBoundary_counted, harmed, hcount]
  rw [countEdge_eq, places, if_neg Bool.false_ne_true]

theorem marked_of_ne {kind : EdgeKind} (hkind : kind ≠ .synthetic) (stamp : Nat) (s : State) :
    marked kind stamp s = { s with ttb := counted kind stamp s.ttb } :=
  if_neg (by simp [hkind])

theorem realMasterEdge_early {stamp p : Nat} {s : State} (hlast : s.ttb.lastAccepted = some p)
    (h : stamp < p + 1000000) :
    realMasterEdge stamp s = { s with ttb := { s.ttb with early := sat 16 (s.ttb.early + 1) } } := by
  simp [realMasterEdge, hlast, h]

theorem realMasterEdge_accepted {stamp p : Nat} {s : State} (hlast : s.ttb.lastAccepted = some p)
    (h : p + 1000000 ≤ stamp) : realMasterEdge stamp s = countEdge .real stamp s := by
  simp [realMasterEdge, hlast, Nat.not_lt.mpr h]

/-- An FSYNC edge of the master stream: after its frame start it is a real master edge. -/
theorem fsyncEdge_master {s : State} {i : Nat} (hcore : s.core = true) (hmaster : masterOf s.ttb = i) :
    ∃ u, fsyncEdge i s = realMasterEdge s.ttb.time u ∧ u.ttb = numberFrame i s.ttb.time s.ttb ∧
      u.core = true ∧ (s.ttb.running = false → u = { s with ttb := numberFrame i s.ttb.time s.ttb }) := by
  let s1 : State := { s with ttb := numberFrame i s.now s.ttb }
  let s2 : State := if s.core && s.ttb.running && framesCount s.ttb i then
    streamFrameStart i s1.now (s.ttb.frameNext.getD i 0) s1 else s1
  have starts : Within [.recs, .wtp, .plt, .frames] s1 s2 := .ite (streamFrameStart_within (.refl _ s1)) (.refl _ s1)
  have ttb := starts.ttb_eq
  have same : masterOf s2.ttb = i := by
    rw [ttb, show s1.ttb = numberFrame i s.now s.ttb from rfl, numberFrame_eq]
    exact hmaster
  have core : s2.core = true := by
    rw [State.core, State.stationsRun, starts.pins_eq]
    exact hcore
  have now : s2.now = s.ttb.time := by
    rw [State.now, ttb, show s1.ttb = numberFrame i s.now s.ttb from rfl, numberFrame_eq]
  have acts : fsyncEdge i s = if s2.core && masterOf s2.ttb == i then realMasterEdge s2.now s2 else s2 := rfl
  refine ⟨s2, ?_, ttb, core, fun hrun => ?_⟩
  · rw [acts, core, same, now]
    simp
  · exact if_neg (by simp [hrun])

/-- What announcing a boundary leaves in the Timetable and the generations. -/
theorem announce_announces (stamp : Nat) (kind : EdgeKind) (s : State) :
    (∃ b, (announce stamp kind s).ttb = { s.ttb with announced := some b, edgeCount := 0 } ∧
      b.t = stamp + 4000 ∧ b.edge = stamp) ∧
    (announce stamp kind s).dsp.frozen = s.dsp.frozen ++ s.dsp.pending ∧ (announce stamp kind s).dsp.pending = [] := by
  let s1 : State := if s.ttb.running then s.emit 5 s.ttb.epoch (epoRec s (stamp + 4000)) else s
  have told : Within [.recs, .inbox] s s1 := .ite (State.emit_within (.refl _ s)) (.refl _ s)
  have ttb : s1.ttb = s.ttb := told.ttb_eq
  have dsp : s1.dsp = s.dsp := told.dsp_eq
  let b : Boundary := { t := stamp + 4000, edge := stamp, kind := if s.ttb.armed then .restart else kind,
                        step := s1.ttb.stepWait }
  have acts : announce stamp kind s = prepareEpoch { s1 with
      ttb := { s1.ttb with announced := some b, edgeCount := 0 },
      dsp := { s1.dsp with frozen := s1.dsp.frozen ++ s1.dsp.pending, pending := [] } } := rfl
  rw [acts, prepareEpoch]
  refine ⟨⟨b, ?_, rfl, rfl⟩, ?_, rfl⟩
  · simp only [ttb]
  · simp only [dsp]

end Sys2Proof.Machine

namespace Sys2Proof.Claims

open Sys2Proof.Machine

theorem fsyncNumbersFrames : FsyncNumbersFrames := by
  intro s i hporst hi hdue hrun hmaster
  have other : (masterOf s.ttb == i) = false := beq_false_of_ne hmaster
  have counts : framesCount s.ttb i = (bit s.ttb.epochCfg (28 + i) && s.ttb.anyBoundary) := by
    rw [framesCount, other, Bool.or_false]
    rfl
  have master : masterOf (numberFrame i s.now s.ttb) = masterOf s.ttb := by
    rw [numberFrame_eq]
    rfl
  have starts : (s.core && s.ttb.running && framesCount s.ttb i) = false := by simp [hrun]
  have acts : fsyncEdge i s = { s with ttb := numberFrame i s.now s.ttb } := by
    simp only [fsyncEdge, starts, Bool.and_false, Bool.false_eq_true, if_false, master, other]
  rw [exec_fsyncEdge hporst hi hdue, acts]
  by_cases h : bit s.ttb.epochCfg (28 + i) = true ∧ s.ttb.anyBoundary = true
  · rw [if_pos h, numberFrame, if_pos (by simp [counts, h])]
    rfl
  · rw [if_neg h, numberFrame, if_neg (by simpa [counts] using h)]

theorem realMasterEdge : RealMasterEdge := by
  refine ⟨fun s i p hcore hi hdue hmaster hrun hbound hlast hearly => ?_,
    fun s i p hcore hi hdue hmaster hrun harmed hcount hlast haccept => ?_⟩
  · obtain ⟨u, acts, -, -, plain⟩ := fsyncEdge_master hcore hmaster
    have same : u = s := by rw [plain hrun, numberFrame_unbound hbound]
    rw [exec_fsyncEdge (State.timeRuns_of_core hcore) hi hdue, acts, same, realMasterEdge_early hlast hearly]
    rfl
  · obtain ⟨u, acts, ttb, -, -⟩ := fsyncEdge_master hcore hmaster
    rw [numberFrame_eq] at ttb
    have last : u.ttb.lastAccepted = some p := by rw [ttb, hlast]
    have unarmed : u.ttb.armed = false := by rw [ttb, harmed]
    have more : u.ttb.edgeCount + 1 < framesPerEpoch u.ttb := by
      rw [ttb]
      exact hcount
    rw [Answers, exec_fsyncEdge (State.timeRuns_of_core hcore) hi hdue, acts, realMasterEdge_accepted last haccept,
      countEdge_unplaced unarmed more, marked_of_ne (by decide)]
    refine ⟨_, rfl, ?_⟩
    rw [ttb]
    exact ⟨rfl, rfl, rfl, rfl, rfl, rfl, rfl, rfl⟩

theorem boundaryAnnounced : BoundaryAnnounced := by
  intro s d hruns hmaster hdue htime hplaces
  have acts : exec .internalMasterEdge s = .next (countEdge .internal d s) := by
    have unfolded : exec .internalMasterEdge s = .next (match internalDue s.ttb with
        | some t => when (edgesRun s && masterOf s.ttb == 16 && decide (t ≤ s.now)) (countEdge .internal t) s
        | none => s) := rfl
    have inTime : d ≤ s.now := htime
    rw [unfolded, hdue, hruns, hmaster]
    simp [inTime]
  have places : placesBoundary (counted .internal d s.ttb) = true := by
    rw [placesBoundary_counted]
    have active : s.ttb.running = true ∨ s.ttb.armed = true := by
      simp only [edgesRun, Bool.and_eq_true, Bool.or_eq_true] at hruns
      exact hruns.1.2
    have full : s.ttb.armed = true ∨ framesPerEpoch s.ttb ≤ s.ttb.edgeCount + 1 := hplaces
    rcases full with h | h
    · simp [h]
    · rcases active with r | r <;> simp [r, h]
  obtain ⟨⟨b, ttb, hb, edge⟩, frozen, pending⟩ :=
    announce_announces d .internal { s with ttb := counted .internal d s.ttb }
  rw [Answers, acts, countEdge_eq, places, if_pos rfl, marked_of_ne (by decide)]
  refine ⟨_, rfl, ⟨b, ?_, hb, edge⟩, ?_, ?_, ?_, frozen, pending, ?_⟩ <;> rw [ttb] <;> rfl

theorem syntheticMasterEdge : SyntheticMasterEdge := by
  intro s p d hruns hmaster harmed hcount hprev hd htime hsynth
  have timeout : masterTimeout s.ttb = some d := by
    rw [masterTimeout, hprev, hd]
    rfl
  have acts : exec .syntheticMasterEdge s = .next (countEdge .synthetic d s) := by
    have unfolded : exec .syntheticMasterEdge s = .next (match masterTimeout s.ttb with
        | some t => when (edgesRun s && masterOf s.ttb != 16 && decide (t ≤ s.now)) (countEdge .synthetic t) s
        | none => s) := rfl
    have inTime : d ≤ s.now := htime
    have other : (masterOf s.ttb != 16) = true := by simp [hmaster]
    rw [unfolded, timeout, hruns, other]
    simp [inTime]
  have core : s.core = true := by
    simp only [edgesRun, Bool.and_eq_true] at hruns
    exact hruns.1.1
  have run : sat 8 (s.ttb.synthRun + 1) = s.ttb.synthRun + 1 := by
    rw [sat]
    omega
  have marks : counted .synthetic d s.ttb = { s.ttb with
      prevMaster := some d, lastAccepted := some d, lastReal := none, lastEdge := d,
      synthRun := s.ttb.synthRun + 1, synth := min 65535 (s.ttb.synth + 1), edgeCount := s.ttb.edgeCount + 1 } := by
    rw [← run]
    rfl
  have limit : missLimit (counted .synthetic d s.ttb) = fld s.ttb.eff 24 4 := rfl
  have reached : (counted .synthetic d s.ttb).synthRun = s.ttb.synthRun + 1 := run
  rw [acts, countEdge_unplaced harmed hcount, marked, marks]
  by_cases h : s.ttb.synthRun + 1 = fld s.ttb.eff 24 4
  · rw [if_pos h, if_pos (by simp [missLimit, h]), State.raise_core (by exact core)]
    rfl
  · rw [if_neg h, if_neg (by simp [missLimit, h])]

end Sys2Proof.Claims
end

section
open Sys2Proof Sys2Proof.Machine Sys2Proof.Claims

/-- Settles O14: what a master edge marks, and what announcing a boundary adds. -/
theorem masterEdges : Obligations.MasterEdges :=
  ⟨fsyncNumbersFrames, realMasterEdge, boundaryAnnounced, syntheticMasterEdge⟩
end

section
/-! PROOFS. O15: an epoch opens, its status closes, and the next one is prepared (R70, R83, R84, R214). -/

namespace Sys2Proof.Machine

open Sys2Proof.Claims

theorem useEpochCfg_keeps (t : Timetable) :
    (useEpochCfg t).running = t.running ∧ (useEpochCfg t).epochT = t.epochT ∧
      (useEpochCfg t).announced = t.announced ∧ (useEpochCfg t).anyEpoch = t.anyEpoch ∧
      (useEpochCfg t).epoch = t.epoch := by
  simp only [useEpochCfg]
  split <;> exact ⟨rfl, rfl, rfl, rfl, rfl⟩

theorem applyStep_keeps (b : Boundary) (t : Timetable) :
    (applyStep b t).running = t.running ∧ (applyStep b t).epochT = t.epochT ∧
      (applyStep b t).announced = t.announced ∧ (applyStep b t).anyEpoch = t.anyEpoch ∧
      (applyStep b t).epoch = t.epoch := by
  simp only [applyStep]
  split <;> exact ⟨rfl, rfl, rfl, rfl, rfl⟩

/-- What the opening of epoch `e` leaves in the Timetable. -/
theorem openEpoch_opens (e : Nat) (b : Boundary) (t : Timetable) :
    (openEpoch e b t).running = true ∧ (openEpoch e b t).epochT = b.t ∧ (openEpoch e b t).announced = none ∧
      (openEpoch e b t).anyEpoch = true ∧ (openEpoch e b t).epoch = e := by
  obtain ⟨run, start, ann, any, num⟩ := applyStep_keeps b (useEpochCfg { t with
    announced := none, armed := false, running := true, anyBoundary := true, anyEpoch := true, epoch := e,
    startT := if t.running then t.startT else b.t, startEpoch := if t.running then t.startEpoch else e,
    epochT := b.t, openedKind := b.kind, openedStepped := false, worst := t.state })
  obtain ⟨run', start', ann', any', num'⟩ := useEpochCfg_keeps { t with
    announced := none, armed := false, running := true, anyBoundary := true, anyEpoch := true, epoch := e,
    startT := if t.running then t.startT else b.t, startEpoch := if t.running then t.startEpoch else e,
    epochT := b.t, openedKind := b.kind, openedStepped := false, worst := t.state }
  exact ⟨run.trans run', start.trans start', ann.trans ann', any.trans any', num.trans num'⟩

/-- The frozen writes as they are activated, each of them once. -/
theorem activate_frozen (ws : List EWrite) (s : State) : (activate ws s).dsp.frozen = s.dsp.frozen := by
  cases ws with
  | nil => rfl
  | cons w ws => exact (activate_gens (List.cons_ne_nil w ws) s).2.2

/-- The units' work at a boundary before the epoch opens. -/
def beforeOpening (b : Boundary) (s : State) : State :=
  let e := if s.ttb.running then wrap 32 (s.ttb.epoch + 1) else nextEpoch s.ttb
  let owners := (List.range 32).map s.ctxOwner
  let s := if !s.ttb.running then s else weighBoundary b.t s.ttb.epoch owners s
  let s := governorBoundary e s
  let s := activate s.dsp.frozen { s with dsp := { s.dsp with frozen := [] } }
  let s := turnStats e b.t s
  noteUnobserved (endWindows e b.t s)

theorem beforeOpening_frozen (b : Boundary) (s : State) : (beforeOpening b s).dsp.frozen = [] := by
  unfold beforeOpening
  extract_lets e owners s1 s2 src s3 s4
  have frozen : s3.dsp.frozen = [] := activate_frozen _ _
  have h5 : Within [.stats, .wtp, .ilk] s3 (noteUnobserved (endWindows e b.t s4)) :=
    noteUnobserved_within (endWindows_within (turnStats_within (.refl _ s3)))
  rw [h5.dsp_eq, frozen]

/-- The units' work at a boundary after the epoch has opened writes neither the Timetable nor the generations. -/
theorem boundaryAt_opens (b : Boundary) (s : State) :
    ∃ e, e = (if s.ttb.running then wrap 32 (s.ttb.epoch + 1) else nextEpoch s.ttb) ∧
    ∃ u, u = { beforeOpening b s with ttb := openEpoch e b (beforeOpening b s).ttb } ∧
    Within [.stn, .recs, .ldg, .wtp, .wbr, .ilk, .sbx, .inbox, .mtr, .mem] u (boundaryAt b s) := by
  refine ⟨_, rfl, _, rfl, ?_⟩
  unfold boundaryAt
  extract_lets u0 e owners first leaving s1 s2 src s3 s4 s5 s6 s7 s8 s9
  have h6 : Within [.stn, .recs, .ldg, .wtp, .wbr, .ilk, .sbx, .inbox, .mtr, .mem]
      { s5 with ttb := openEpoch e b s5.ttb } s6 := .forEach (fun h => boundaryAtStation_within h) (.refl _ _)
  have h7 : Within _ _ s7 := meterBoundary_within (detachBoundary_within h6)
  have h8 : Within _ _ s8 := returnContexts_within (ledgerBoundary_within h7)
  have h9 : Within _ _ s9 := settleCoverage_within (planShortfalls_within (startPlan_within h8))
  exact .ite (takeOverOutputs_within h9) h9

end Sys2Proof.Machine

namespace Sys2Proof.Claims

open Sys2Proof.Machine

theorem epochOpens : EpochOpens := by
  intro s b hcore hann htime
  have due : b.t ≤ s.now := htime
  have acts : exec .epochBoundary s = .next (boundaryAt b s) := by
    have unfolded : exec .epochBoundary s = .next (when s.core epochBoundary s) := rfl
    have crosses : epochBoundary s = boundaryAt b s := by simp [epochBoundary, hann, due]
    rw [unfolded, hcore, ← crosses]
    rfl
  obtain ⟨e, he, u, hu, rest⟩ := boundaryAt_opens b s
  obtain ⟨run, start, ann, any, num⟩ := openEpoch_opens e b (beforeOpening b s).ttb
  have frozen : (boundaryAt b s).dsp.frozen = u.dsp.frozen := congrArg Dispatcher.frozen rest.dsp_eq
  have ttb : (boundaryAt b s).ttb = openEpoch e b (beforeOpening b s).ttb := rest.ttb_eq.trans (congrArg State.ttb hu)
  have thawed : u.dsp.frozen = [] := hu ▸ beforeOpening_frozen b s
  refine ⟨_, acts, ttb ▸ run, ttb ▸ start, ttb ▸ ann, ttb ▸ any, frozen.trans thawed, (ttb ▸ num).trans ?_⟩
  rw [he, nextEpoch]
  cases s.ttb.running <;> cases s.ttb.anyEpoch <;> rfl

theorem epochStatusCloses : EpochStatusCloses := by
  intro s hcore
  have acts : exec .epochStatusClose s = .next (closeStatus s) := by
    have unfolded : exec .epochStatusClose s = .next (when s.core closeStatus s) := rfl
    rw [unfolded, hcore]
    rfl
  refine ⟨_, acts, ?_⟩
  unfold closeStatus
  extract_lets closing f src
  have checked : Within [.inbox] { s with ttb := { s.ttb with stats := s.ttb.stats.map f } }
      (forEach closing verdictCheck { s with ttb := { s.ttb with stats := s.ttb.stats.map f } }) :=
    .forEach (fun h => verdictCheck_within h) (.refl _ _)
  refine (congrArg Timetable.stats checked.ttb_eq).trans (List.map_congr_left fun x _ => ?_)
  have same : f x = { x with final := x.final || (x.emitted && verdictsDone s x.epoch) } := by
    by_cases h : (x.emitted && !x.final && verdictsDone s x.epoch) = true
    · rw [show f x = _ from if_pos h]
      simp only [Bool.and_eq_true] at h
      simp [h]
    · rw [show f x = _ from if_neg h]
      have unchanged : (x.final || (x.emitted && verdictsDone s x.epoch)) = x.final := by
        revert h
        cases x.final <;> cases x.emitted <;> cases verdictsDone s x.epoch <;> simp
      rw [unchanged]
  exact same

theorem epochPrepared : EpochPrepared := by
  intro s hfw hann hrun v
  have core : s.core = true := by
    simp only [State.fw, Bool.and_eq_true] at hfw
    exact hfw.1.1
  have acts : exec .epochPreparation s = .next (conductorRead (prepareEpoch s)) := by
    have unfolded : exec .epochPreparation s = .next (when (s.fw && s.ttb.announced.isNone &&
        (s.ttb.running || s.ttb.armed)) (fun s => conductorRead (prepareEpoch s)) s) := rfl
    rw [unfolded, hfw, hann, hrun]
    rfl
  have core' : (prepareEpoch s).core = true := core
  have number : (if s.ttb.running then wrap 32 (s.ttb.epoch + 1) else nextEpoch s.ttb) = wrap 32 (s.ttb.epoch + 1) :=
    if_pos hrun
  have found : (conductorFault (Config.conductorCheck s.free)).map (received s) =
      if v % 4 = 1 then [received s (occ 12 3 (v / 4))]
      else if v % 4 = 2 then [received s (occ 12 4 (v / 4))] else [] := by
    rw [conductorFault]
    split_ifs <;> rfl
  rw [acts, conductorRead, core', if_pos rfl, ← found]
  simp only [prepareEpoch, number]
  rfl

end Sys2Proof.Claims

section
open Sys2Proof Sys2Proof.Machine Sys2Proof.Claims

/-- Settles O15: no unit's work after the opening of an epoch writes the Timetable, and the frozen writes are carried
out before it. -/
theorem epochLifecycle : Obligations.EpochLifecycle :=
  ⟨epochOpens, epochStatusCloses, epochPrepared⟩
end
end

section
/-! PROOFS. O22: BUNDLE_UNWRAP and the entropy source (R182, R271, R289, R292). -/

namespace Sys2Proof.Machine

open Sys2Proof.Claims

/-- With no held write, freeing a key slot only clears the slot: no completion is made. -/
theorem freeKey_unheld {s : State} (h : s.dsp.heldQ = []) (k : Nat) :
    (freeKey k s).ilk.keys = s.ilk.keys.set k none ∧ (freeKey k s).sdg = s.sdg ∧
      (freeKey k s).dsp.wins = s.dsp.wins ∧
      (freeKey k s).trk = s.trk.map fun x => { x with slotValid := x.slotValid &&& ~~~ BitVec.ofNat 8 (2 ^ k) } := by
  have dropped : dropHeld (unitKey k) s = setHeld [] s := by simp [dropHeld, abortHeld, h]
  rw [freeKey, dropped]
  exact ⟨rfl, rfl, rfl, rfl⟩

/-- A cleared bit of the valid flags. -/
theorem getLsbD_and_not_twoPow (v : BitVec 8) {k : Nat} (h : k < 8) :
    (v &&& ~~~ BitVec.ofNat 8 (2 ^ k)).getLsbD k = false := by
  have all : ∀ k < 8, (BitVec.ofNat 8 (2 ^ k)).getLsbD k = true := by decide
  have set := all k h
  rw [BitVec.getLsbD_and, BitVec.getLsbD_not, set]
  simp

theorem raise_if_length {s : State} (h : s.core = true) (b : Bool) (sub cause engine detail : Nat) :
    (if b then s.raise sub cause engine detail else s).sbx.inbox.length = s.sbx.inbox.length + b2n b := by
  cases b
  · rfl
  · simp [State.raise_core h, b2n]

theorem entropyFailed_noOpens {s : State} (h : s.exp.opens = []) (hcore : s.core = true) (rct apt : Bool) :
    (entropyFailed rct apt s).ilk.trng = 2 ∧ (entropyFailed rct apt s).ilk.entropy = s.ilk.entropy ∧
      (entropyFailed rct apt s).ilk.blocks = s.ilk.blocks ∧
      (rct = true ∨ apt = true → s.sbx.inbox.length < (entropyFailed rct apt s).sbx.inbox.length) := by
  let s1 : State := { s with ilk := { s.ilk with
    trng := 2, rctFails := if rct then sat 16 (s.ilk.rctFails + 1) else s.ilk.rctFails,
    aptFails := if apt then sat 16 (s.ilk.aptFails + 1) else s.ilk.aptFails, rctRun := none } }
  let s2 : State := if rct then s1.raise 11 1 0 0 else s1
  let s3 : State := if apt then s2.raise 11 1 0 1 else s2
  have acts : entropyFailed rct apt s = serveOpens s3.exp.opens s3 := rfl
  have told2 : Within [.inbox] s1 s2 := .ite (State.raise_within (.refl _ s1)) (.refl _ s1)
  have told3 : Within [.inbox] s1 s3 := .ite (State.raise_within told2) told2
  have opens : s3.exp.opens = [] := (congrArg Export.opens told3.exp_eq).trans h
  have done : entropyFailed rct apt s = s3 := by rw [acts, opens]; rfl
  have core2 : s2.core = true := by
    rw [State.core, State.stationsRun, told2.pins_eq]
    exact hcore
  have len2 : s2.sbx.inbox.length = s.sbx.inbox.length + b2n rct := raise_if_length (s := s1) hcore rct 11 1 0 0
  have len3 : s3.sbx.inbox.length = s2.sbx.inbox.length + b2n apt := raise_if_length (s := s2) core2 apt 11 1 0 1
  rw [done, len3, len2]
  refine ⟨congrArg Interlock.trng told3.ilk_eq, (congrArg Interlock.entropy told3.ilk_eq).trans rfl,
    (congrArg Interlock.blocks told3.ilk_eq).trans rfl, fun failed => ?_⟩
  rcases failed with h | h <;> simp only [h, b2n, if_true] <;> omega

end Sys2Proof.Machine

namespace Sys2Proof.Claims

open Sys2Proof.Machine

theorem bundleKeys : BundleKeys := by
  refine ⟨fun s w pk hissues barred => ?_, fun s w pk hissues htest hid hfree hany hslot hcoming hw => ?_,
    fun s w pk x hissues htest hid hfree hshaped hheld hkeys hslot hown huse => ?_⟩
  all_goals
    have acts : exec (.bundleUnwrap w) s = .next (bundleUnwrap pk (ticketOf w pk) (taken w s)) :=
      congrArg next (issue_of_issues hissues)
  · have no : ((taken w s).ilk.testState || (taken w s).ilk.identity.isNone) = true := by
      rcases barred with h | h
      · exact (congrArg (· || _) h).trans (Bool.true_or _)
      · exact (congrArg (fun o => _ || o.isNone) h).trans (Bool.or_true _)
    rw [acts, bundleUnwrap, no, if_pos rfl]
    exact congrArg Host.Outcome.next (complete_eq_told (taken_compl_live hissues))
  · have noFault : ((taken w s).ilk.testState || (taken w s).ilk.identity.isNone) = false := by
      have given : (taken w s).ilk = s.ilk := rfl
      rw [given, htest, Option.isNone_eq_false_iff.mpr hid]
      rfl
    have slot : keySlot (taken w s) (param pk 0 3) = none := hslot
    have coming : keyComing (taken w s) (param pk 0 3) = false := hcoming
    have free : paramBit pk 3 = false := hfree
    have any : paramBit pk 4 = false := hany
    have starts : bundleUnwrap pk (ticketOf w pk) (taken w s) =
        unwrapInto (param pk 0 3) pk (ticketOf w pk) (taken w s) := by
      simp [bundleUnwrap, noFault, slot, coming, free, any]
    rw [Answers, acts, starts]
    have begun : (unwrapInto (param pk 0 3) pk (ticketOf w pk) (taken w s)).win w =
        ((taken w s).startLong (ticketOf w pk)).win w := rfl
    have small : fld (pw pk 1) 0 48 % 2 ^ 48 = fld (pw pk 1) 0 48 := Nat.mod_eq_of_lt (fld_lt _ 0 48)
    refine ⟨_, rfl, rfl, rfl, ?_, _, rfl, small, rfl, rfl, rfl⟩
    have inRange : (ticketOf w pk).w < (taken w s).dsp.wins.length := by
      simpa [taken, ticketOf] using hw
    exact (startLong_longs rfl inRange).trans (congrArg (· + 1) (taken_longs w w s))
  · have noFault : ((taken w s).ilk.testState || (taken w s).ilk.identity.isNone) = false := by
      have given : (taken w s).ilk = s.ilk := rfl
      rw [given, htest, Option.isNone_eq_false_iff.mpr hid]
      rfl
    have slot : keySlot (taken w s) (param pk 0 3) = some x := hslot
    have free : paramBit pk 3 = true := hfree
    have unused : bundleInUse (taken w s) x.bundle = false := huse
    have own : ((ticketOf w pk).w != 16 && x.owner != (ticketOf w pk).w) = false := by
      rcases hown with h | h <;> simp [ticketOf, h]
    have frees : bundleUnwrap pk (ticketOf w pk) (taken w s) =
        (freeKey (param pk 0 3) (taken w s)).complete (ticketOf w pk) statusDone (param pk 0 3) (nat64 x.bundle) := by
      simp only [bundleUnwrap, noFault, slot, free, unused, own, freeKeyNow, State.answer]
      rfl
    have unheld : (taken w s).dsp.heldQ = [] := hheld
    obtain ⟨keys, sdg, wins, trk⟩ := freeKey_unheld unheld (param pk 0 3)
    have live : ((freeKey (param pk 0 3) (taken w s)).siding
        ((freeKey (param pk 0 3) (taken w s)).win w).compl).state = 1 := by
      rw [State.win, wins, State.siding, sdg]
      exact taken_compl_live hissues
    have slotInRange : param pk 0 3 < 8 := fld_lt _ 0 3
    have completes := complete_eq_told (pk := pk) (status := statusDone) (result := param pk 0 3)
      (result2 := nat64 x.bundle) live
    rw [Answers, acts, frees, completes]
    refine ⟨_, rfl, ?_, fun k hk => ?_, ?_⟩
    · have ilk := (told_within (w := w) (pk := pk) (status := statusDone) (result := param pk 0 3)
        (result2 := nat64 x.bundle) (.refl _ (freeKey (param pk 0 3) (taken w s))) (List.Subset.refl _)).ilk_eq
      have emptied : (s.ilk.keys.set (param pk 0 3) none).getD (param pk 0 3) none = none := by
        rw [List.getD_eq_getElem?_getD, List.getElem?_set_self (by rw [hkeys]; exact slotInRange)]
        rfl
      exact (congrArg (fun i : Interlock => i.keys.getD (param pk 0 3) none) ilk).trans (keys ▸ emptied)
    · have same := (told_within (w := w) (pk := pk) (status := statusDone) (result := param pk 0 3)
        (result2 := nat64 x.bundle) (.refl _ (freeKey (param pk 0 3) (taken w s))) (List.Subset.refl _)).trk_eq
      have tracks : s.trk.length = 4 := by
        simp only [State.shaped, Bool.and_eq_true, beq_iff_eq] at hshaped
        omega
      have inRange : k < (taken w s).trk.length := tracks ▸ hk
      rw [State.track, same, trk, List.getD_eq_getElem?_getD, List.getElem?_map, List.getElem?_eq_getElem inRange]
      exact getLsbD_and_not_twoPow _ slotInRange
    · have compl : ((freeKey (param pk 0 3) (taken w s)).win w).compl = (s.win w).compl := by
        rw [State.win, wins]
        exact taken_win_compl w s
      exact told_sdg_congr (s := s) sdg compl pk _ _ _

theorem entropySource : EntropySource := by
  refine ⟨fun s raw hcore htrng hmtr hopens hrct hapt => ?_, fun s raw hcore htrng hopens hfail => ?_⟩
  all_goals
    have acts : exec (.entropyBlock raw) s = .next (entropyBlock raw s) := by
      have unfolded : exec (.entropyBlock raw) s = .next (when (s.core && s.ilk.trng == 1) (entropyBlock raw) s) := rfl
      have on : (s.core && s.ilk.trng == 1) = true := by rw [hcore, htrng]; rfl
      rw [unfolded, on, when_true]
  · have noSeal : ∀ u : State, u.mtr = s.mtr → serveMeter u = u := fun u same => by
      have closed : (u.mtr.state == 2) = false := by rw [same]; exact beq_false_of_ne hmtr
      simp [serveMeter, closed]
    rw [acts, entropyBlock]
    simp only [hrct, hapt, Bool.or_self, Bool.false_eq_true, if_false]
    simp only [noSeal, hopens, serveOpens, wrap]
  · obtain ⟨trng, entropy, blocks, told⟩ := entropyFailed_noOpens hopens hcore
      (healthTest s.ilk.rctRun raw).1 (healthTest s.ilk.rctRun raw).2.1
    have fails : entropyBlock raw s = entropyFailed (healthTest s.ilk.rctRun raw).1
        (healthTest s.ilk.rctRun raw).2.1 s := by
      have fail : ((healthTest s.ilk.rctRun raw).1 || (healthTest s.ilk.rctRun raw).2.1) = true := by
        simpa using hfail
      simp only [entropyBlock, fail, if_true]
    exact ⟨_, acts.trans (congrArg next fails), trng, entropy, blocks, told hfail⟩

end Sys2Proof.Claims
end

section
open Sys2Proof Sys2Proof.Machine Sys2Proof.Claims

/-- Settles O22: BUNDLE_UNWRAP by its cases on the packet and the slot, and one block of the entropy source by its
health tests. -/
theorem keysAndEntropy : Obligations.KeysAndEntropy := ⟨bundleKeys, entropySource⟩
end

section
/-! PROOFS. O20: the life of a partition, and the order of the changes of its table (R277, R278, R285, R293). -/

namespace Sys2Proof.Machine

open Sys2Proof.Claims

/-! ### The order of the table's changes -/

/-- The changes that wait and the number of the last one stand as before. -/
def SameOrder (s t : State) : Prop := t.ilk.serial = s.ilk.serial ∧ t.ilk.changes = s.ilk.changes

theorem SameOrder.of_ilk {s t : State} (h : t.ilk = s.ilk) : SameOrder s t := by rw [SameOrder, h]; exact ⟨rfl, rfl⟩

theorem SameOrder.trans {s t u : State} (h : SameOrder s t) (g : SameOrder t u) : SameOrder s u :=
  ⟨g.1.trans h.1, g.2.trans h.2⟩

/-- Nothing of the Interlocking changes but the key slots and, in the table, what tenants read there. -/
def SameTable (s t : State) : Prop :=
  t.ilk = { s.ilk with parts := t.ilk.parts, keys := t.ilk.keys } ∧ ∀ q, (t.part q).state = (s.part q).state

theorem SameTable.of_ilk {s t : State} (h : t.ilk = s.ilk) : SameTable s t :=
  ⟨by rw [h], fun q => by rw [State.part, h]; rfl⟩

theorem SameTable.trans {s t u : State} (h : SameTable s t) (g : SameTable t u) : SameTable s u := by
  refine ⟨?_, fun q => (g.2 q).trans (h.2 q)⟩
  have second := g.1
  rw [h.1] at second
  exact second

theorem SameTable.order {s t : State} (h : SameTable s t) : SameOrder s t := by
  rw [SameOrder, h.1]
  exact ⟨rfl, rfl⟩

theorem freeKey_sameTable (k : Nat) (s : State) : SameTable s (freeKey k s) := by
  have dropped : (dropHeld (unitKey k) s).ilk = s.ilk := (dropHeld_within (.refl _ s) (List.Subset.refl _)).ilk_eq
  have acts : (freeKey k s).ilk = { (dropHeld (unitKey k) s).ilk with
      keys := (dropHeld (unitKey k) s).ilk.keys.set k none } := rfl
  rw [dropped] at acts
  exact ⟨by rw [acts], fun q => by rw [State.part, acts]; rfl⟩

/-- An interrupt flag of an entry is no part of the table's life. -/
theorem modPart_sameTable (s : State) (p : Nat) (f : Part → Part) (hf : ∀ x, (f x).state = x.state) :
    SameTable s (s.modPart p f) := by
  refine ⟨rfl, fun q => ?_⟩
  rw [State.part_modPart]
  split
  · exact hf _
  · rfl

theorem endSession_sameTable (o cause : Nat) (s : State) : SameTable s (endSession o cause s) := by
  rw [endSession]
  split
  · have ended : ((dropSession o s).modSession o fun x => { x with ended := true, cause := cause }).ilk = s.ilk :=
      (State.modSession_within (dropSession_within (.refl _ s) (List.Subset.refl _))).ilk_eq
    have over_ := SameTable.of_ilk ended
    split
    · exact over_.trans (modPart_sameTable _ _ _ fun _ => rfl)
    · exact over_
  · exact .of_ilk rfl

theorem endSiding_sameTable (sid : Nat) (s : State) : SameTable s (endSiding sid s) := by
  refine forEach_keeps (SameTable s) _ _ _ (.of_ilk rfl) fun o t h => ?_
  split
  · exact h.trans ((endSession_sameTable o 1 t).trans (.of_ilk rfl))
  · exact h

theorem freeSiding_sameTable (sid : Nat) (s : State) : SameTable s (freeSiding sid s) := by
  unfold freeSiding
  extract_lets s1 d s2 s3 s4
  have ended : SameTable s s1 := by
    dsimp only [s1]
    split
    · exact endSiding_sameTable sid s
    · exact .of_ilk rfl
  have rest : Within [.myd, .desc, .slots, .models, .wins, .gens, .exp] s1
      ((forgetFlight sid (unnameSiding sid s4)).modSdg sid fun _ => Siding.reset) :=
    State.modSdg_within (forgetFlight_within (unnameSiding_within (dropHeld_within
      (.forEach (fun h => discardItem_within h) (.forEach (fun h => State.finish_within h) (.refl _ s1))))))
  exact ended.trans (.of_ilk rest.ilk_eq)

theorem SameTable.forEach {α : Type} (r : List α) (f : α → State → State) (hf : ∀ a x, SameTable x (f a x))
    (s : State) : SameTable s (forEach r f s) :=
  forEach_keeps (SameTable s) _ _ _ (.of_ilk rfl) fun a x h => h.trans (hf a x)

/-- A scrub job ends or begins: the table, its changes and the entry that is scrubbed stand, and each detach keeps
its entry and stays in its scrub. -/
theorem scrubFrom_ilk (p k : Nat) (s : State) :
    (scrubFrom p k s).ilk = { s.ilk with
      win := (scrubFrom p k s).ilk.win, scrubActive := (scrubFrom p k s).ilk.scrubActive,
      detaches := (scrubFrom p k s).ilk.detaches } ∧
    ∀ e ∈ (scrubFrom p k s).ilk.detaches, ∃ d ∈ s.ilk.detaches, e.p = d.p ∧ e.scrub = d.scrub := by
  rw [scrubFrom]
  split
  · exact ⟨rfl, fun e he => ⟨e, he, rfl, rfl⟩⟩
  · refine ⟨rfl, fun e he => ?_⟩
    obtain ⟨d, hd, rfl⟩ := List.mem_map.mp he
    refine ⟨d, hd, ?_⟩
    split <;> exact ⟨rfl, rfl⟩

/-- The state just before the scrub of a partition's windows begins. -/
def scrubBase (p : Nat) (s : State) : State :=
  let s := s.modPart p fun x => { x with state := 3 }
  let mine := (List.range 256).filter fun i => (s.siding i).state != 0 && (s.siding i).owner == p
  let s := forEach mine (fun i s => freeSiding i (zeroSiding i s)) s
  let s := forEach (bitsOf 8 (keyMaskOf s p)) freeKey s
  let s := s.modWin p fun x => { x with ready := [], asm := none, owes := 0, longs := 0, compl := 0 }
  { s with ilk := { s.ilk with scrubActive := true, scrubPart := p } }

theorem scrubPart_eq (p : Nat) (s : State) : scrubPart p s = scrubFrom p 0 (scrubBase p s) := rfl

theorem scrubBase_ilk (p : Nat) (s : State) :
    ∃ u, SameTable (s.modPart p fun x => { x with state := 3 }) u ∧
      (scrubBase p s).ilk = { u.ilk with scrubActive := true, scrubPart := p } ∧
      (scrubBase p s).dsp.wins = u.dsp.wins.modify p fun x =>
        { x with ready := [], asm := none, owes := 0, longs := 0, compl := 0 } := by
  unfold scrubBase
  extract_lets s1 mine s2 s3 s4
  have freed : SameTable s1 s2 := .forEach _ _ (fun i x =>
    (SameTable.of_ilk (zeroSiding_within (.refl _ x) (List.Subset.refl _)).ilk_eq).trans (freeSiding_sameTable i _)) s1
  exact ⟨s3, freed.trans (.forEach _ _ (fun k x => freeKey_sameTable k x) s2), rfl, rfl⟩

theorem scrubPart_order (p : Nat) (s : State) : SameOrder s (scrubPart p s) := by
  obtain ⟨u, same, base, -⟩ := scrubBase_ilk p s
  obtain ⟨jobs, -⟩ := scrubFrom_ilk p 0 (scrubBase p s)
  have order : SameOrder s u := SameOrder.trans ⟨rfl, rfl⟩ same.order
  rw [scrubPart_eq, SameOrder, jobs, base]
  exact order

theorem createPart_order (p mask compl : Nat) (s : State) : SameOrder s (createPart p mask compl s) := ⟨rfl, rfl⟩

/-- What follows the mark of a detach leaves the Interlocking. -/
theorem detachPart_ilk (p : Nat) (s : State) :
    (detachPart p s).ilk = (modDetach p (fun d =>
      { d with at_ := some s.now, mask := BitVec.ofNat 32 (ctxMaskOf s p) })
      (s.modPart p fun x => { x with state := 2 })).ilk := by
  unfold detachPart
  extract_lets mask s1 s2 s3 s4 s5
  have rest : Within [.myd, .desc, .wtp, .slots, .plt, .models, .wbr, .wins, .gens, .exp] s3 s5 :=
    dropHeldOf_within (freeObjects_within (State.modWin_within (.refl _ s3)))
  have all : Within [.myd, .desc, .wtp, .slots, .plt, .models, .wbr, .wins, .gens, .exp] s3
      (if (s5.session p).isOpen then dropSession p s5 else s5) := .ite (dropSession_within rest) rest
  exact all.ilk_eq

theorem detachPart_order (p : Nat) (s : State) : SameOrder s (detachPart p s) := by
  rw [SameOrder, detachPart_ilk]
  exact ⟨rfl, rfl⟩

theorem freePart_ilk (p : Nat) (s : State) :
    (freePart p s).ilk = { s.ilk with
      detaches := s.ilk.detaches.filter fun x => x.p != p, rint := s.ilk.rint ||| 4#4,
      parts := s.ilk.parts.modify p fun _ => Part.reset } := by
  unfold freePart
  extract_lets d x1 s1
  have rest : Within [.desc, .wins] (s1.modPart p fun _ => Part.reset)
      (withSome d answerDetach (s1.modPart p fun _ => Part.reset)) :=
    .withSome (fun h => answerDetach_within h) (.refl _ _)
  exact rest.ilk_eq

/-- The work of a change on its entry, without the switch-over point. -/
def changeWork (c : TableChange) (s : State) : State :=
  match c with
  | .create p mask compl => createPart p mask compl s
  | .mirror p on => s.modPart p fun x => { x with mirror := on }
  | .detach p => detachPart p s
  | .scrub p => scrubPart p s
  | .free p => freePart p s

theorem applyChange_eq (c : TableChange) (s : State) :
    applyChange c s = { changeWork c s with
      jct := { (changeWork c s).jct with switchWait := true },
      ilk := { (changeWork c s).ilk with serial := wrap 32 ((changeWork c s).ilk.serial + 1) } } := by
  cases c <;> rfl

theorem changeWork_order (c : TableChange) (s : State) : SameOrder s (changeWork c s) := by
  cases c with
  | create p mask compl => exact createPart_order p mask compl s
  | mirror p on => exact ⟨rfl, rfl⟩
  | detach p => exact detachPart_order p s
  | scrub p => exact scrubPart_order p s
  | free p => rw [SameOrder, show changeWork (.free p) s = freePart p s from rfl, freePart_ilk]; exact ⟨rfl, rfl⟩

theorem changeWork_jct (c : TableChange) (s : State) : (changeWork c s).jct = s.jct := by
  cases c with
  | create p mask compl => rfl
  | mirror p on => rfl
  | detach p => exact (detachPart_within (.refl _ s) (List.Subset.refl _)).jct_eq
  | scrub p => exact (scrubPart_within (.refl _ s) (List.Subset.refl _)).jct_eq
  | free p => exact (freePart_within (.refl _ s) (List.Subset.refl _)).jct_eq

theorem applyChange_point (c : TableChange) (s : State) :
    (applyChange c s).jct = { s.jct with switchWait := true } ∧
      (applyChange c s).ilk.serial = (s.ilk.serial + 1) % 2 ^ 32 ∧
      (applyChange c s).ilk.changes = s.ilk.changes := by
  obtain ⟨serial, changes⟩ := changeWork_order c s
  rw [applyChange_eq]
  refine ⟨?_, ?_, changes⟩
  · simp only [changeWork_jct]
  · simp only [serial, wrap]

theorem releaseRec_order (r : Rec) (s : State) : SameOrder s (releaseRec r s) := by
  have noted : SameOrder s (noteSwitch r (popSource r.src s)) := by
    have popped : (popSource r.src s).ilk = s.ilk := (popSource_within (.refl _ s) (List.Subset.refl _)).ilk_eq
    refine SameOrder.trans (.of_ilk popped) ?_
    rw [noteSwitch]
    split <;> exact ⟨rfl, rfl⟩
  unfold releaseRec
  extract_lets s1 e r1 r2 r3 s2 s3
  have emitted : SameOrder s1 s2 := by
    dsimp only [s2]
    split
    · exact .of_ilk (noteEmission_within (.refl _ s1) (List.Subset.refl _)).ilk_eq
    · exact .of_ilk rfl
  have named : SameOrder s2 s3 := by
    dsimp only [s3]
    split
    · exact (SameTable.forEach _ _ (fun p x =>
        modPart_sameTable x p (fun x => { x with pint := x.pint ||| 4#3 }) fun _ => rfl) s2).order
    · exact .of_ilk rfl
  exact noted.trans (emitted.trans (named.trans (.of_ilk rfl)))

theorem junctionRelease_order (s : State) : SameOrder s (junctionRelease s) := by
  rw [junctionRelease]
  split
  · exact .of_ilk rfl
  · split
    · exact releaseRec_order _ s
    · exact .of_ilk rfl

end Sys2Proof.Machine

namespace Sys2Proof.Claims

open Sys2Proof.Machine

theorem tableChangesWait : TableChangesWait := by
  refine ⟨fun s pk p hissues hp hlive hmirror hrun hwait => ?_, fun s c r hcore hchanges => ?_⟩
  · subst hp
    intro c
    have acts : exec (.grant 16) s = .next (Machine.grant pk (ticketOf 16 pk) (taken 16 s)) :=
      congrArg next (issue_of_issues hissues)
    have live : ((taken 16 s).part (param pk 0 4)).state = 1 := hlive
    have mirrors : param pk 8 3 = 1 := hmirror
    have waits : changeWaits (taken 16 s) = true := by
      have given : changeWaits (taken 16 s) = changeWaits s := rfl
      rw [given, changeWaits, hrun]
      rcases hwait with h | h <;> simp [h]
    rw [acts, Machine.grant]
    simp only [live, mirrors, Nat.one_ne_zero, if_false, bne_self_eq_false, Bool.false_eq_true, if_true,
      tableChange_waits waits]
    refine congrArg Host.Outcome.next ?_
    have room : (({ taken 16 s with ilk := { (taken 16 s).ilk with
        changes := (taken 16 s).ilk.changes ++ [.mirror (param pk 0 4) (paramBit pk 31)] } } : State).siding
        ((taken 16 s).win 16).compl).state = 1 := taken_compl_live hissues
    rw [statusDone, complete_eq_told room]
    rfl
  · have acts : exec .junctionRelease s = .next (nextChange (junctionRelease s)) := by
      have unfolded : exec .junctionRelease s =
          .next (when s.core (fun s => nextChange (junctionRelease s)) s) := rfl
      rw [unfolded, hcore, when_true]
    obtain ⟨serial, changes⟩ := junctionRelease_order s
    have head : (junctionRelease s).ilk.changes = c :: r := changes.trans hchanges
    refine ⟨_, acts, fun waits => ?_, fun free => ?_⟩
    · simp only [nextChange, head, waits, if_true]
    · have turns : nextChange (junctionRelease s) = applyChange c { junctionRelease s with
          ilk := { (junctionRelease s).ilk with changes := r } } := by
        simp only [nextChange, head, free, Bool.false_eq_true, if_false]
      obtain ⟨jct, number, rest⟩ := applyChange_point c { junctionRelease s with
        ilk := { (junctionRelease s).ilk with changes := r } }
      rw [turns]
      refine ⟨by rw [jct], number.trans ?_, rest, by rw [jct]⟩
      rw [← serial]

/-! ### A partition is created -/

theorem testBit_maskOf (l : List Nat) (i : Nat) : (maskOf l).testBit i = decide (i ∈ l) := by
  induction l with
  | nil => simp [maskOf]
  | cons j r ih =>
    rw [maskOf, Nat.testBit_or, ih, Nat.testBit_two_pow]
    by_cases h : i = j <;> simp [h, eq_comm]

theorem ctxOwner_setCtxOwner {s : State} {mask p c : Nat} (hp : p < 16) (hc : c < s.ldg.ctx.length) :
    (setCtxOwner mask p s).ctxOwner c = if mask.testBit c then p else s.ctxOwner c := by
  have word : (setCtxOwner mask p s).ldg.ctx.getD c 0x1F00 =
      if mask.testBit c then pack [(8, 5, ownerCode p)] else s.ldg.ctx.getD c 0x1F00 := by
    simp [setCtxOwner, List.getD_eq_getElem?_getD, hc]
  have code : fld (pack [(8, 5, p)]) 8 5 = p := by
    rw [fld_pack (len := 5) (v := p) (by simp [Laid]) (by simp), Nat.mod_eq_of_lt (by omega)]
  rw [State.ctxOwner, word]
  split
  · rw [ownerCode, if_pos hp, ctxOwnerOf, code, if_pos hp]
  · rfl

theorem ctxOwner_le (s : State) (c : Nat) : s.ctxOwner c ≤ 16 := by
  rw [State.ctxOwner, ctxOwnerOf]
  split <;> omega

/-- A new completion siding, at its place. -/
theorem siding_makeCompl {sid : Nat} {s : State} (h : sid < s.sdg.desc.length) (owner code base : Nat) (i : Nat) :
    (i ≠ sid → (makeCompl sid owner code base s).siding i = s.siding i) ∧
    (let d := (makeCompl sid owner code base s).siding sid
     d.state = 1 ∧ d.owner = owner ∧ d.producer = 2 ∧ d.base = base ∧ d.intLevel = 2 ∧ d.intEn = true) := by
  refine ⟨fun hi => ?_, ?_⟩
  · simp [makeCompl, makeSiding, State.modSdg, hi.symm]
  · simp [makeCompl, makeSiding, State.modSdg, h]

/-- What a creation leaves in the table, the window and the contexts. -/
theorem createPart_creates {p mask compl : Nat} {s : State} (hp : p < 16) (hparts : s.ilk.parts.length = 16)
    (hwins : s.dsp.wins.length = 17) :
    let t := createPart p mask compl s
    t.part p = { Part.reset with state := 1 } ∧ (∀ q, q ≠ p → t.part q = s.part q) ∧
      (t.win p).isOpen = true ∧ (t.win p).compl = compl ∧ (t.win p).ready = [] ∧
      (∀ w, w ≠ p → t.win w = s.win w) ∧ t.sdg = s.sdg ∧ t.ldg.ctx = (setCtxOwner mask p s).ldg.ctx := by
  intro t
  have part : ∀ q, t.part q = (s.modPart p fun _ => { Part.reset with state := 1 }).part q := fun _ => rfl
  have win : ∀ w, t.win w = (s.modWin p fun x =>
      { x with isOpen := true, compl := compl, ready := [], asm := none, owes := 0, longs := 0 }).win w := fun _ => rfl
  have inTable : p < s.ilk.parts.length := by omega
  have inWindows : p < s.dsp.wins.length := by omega
  have self := (win p).trans (State.win_modWin_self s p _ inWindows)
  refine ⟨(part p).trans (State.part_modPart_self s p _ inTable),
    fun q hq => (part q).trans (State.part_modPart_ne s _ hq.symm), congrArg CmdWin.isOpen self,
    congrArg CmdWin.compl self, congrArg CmdWin.ready self,
    fun w hw => (win w).trans (State.win_modWin_ne s _ hw.symm), rfl, rfl⟩

/-- The state after the creation of partition `p` with the contexts `free` and the completion siding `sid`. -/
def created (p free sid code base : Nat) (s : State) : State :=
  applyChange (.create p free sid) (makeCompl sid p code base s)

theorem created_creates {p free sid code base : Nat} {s : State} (hp : p < 16) (hparts : s.ilk.parts.length = 16)
    (hwins : s.dsp.wins.length = 17) :
    let t := created p free sid code base s
    t.part p = { Part.reset with state := 1 } ∧ (∀ q, q ≠ p → t.part q = s.part q) ∧
      (t.win p).isOpen = true ∧ (t.win p).compl = sid ∧ (t.win p).ready = [] ∧ (∀ w, w ≠ p → t.win w = s.win w) ∧
      (∀ c < s.ldg.ctx.length, t.ctxOwner c = if free.testBit c then p else s.ctxOwner c) := by
  have same : ∀ q, (makeCompl sid p code base s).part q = s.part q := fun _ => rfl
  obtain ⟨self, others, opens, compl, ready, windows, -, ctxs⟩ :=
    createPart_creates (mask := free) (compl := sid) (s := makeCompl sid p code base s) hp hparts hwins
  refine ⟨self, others, opens, compl, ready, windows, fun c hc => ?_⟩
  have inRange : c < (makeCompl sid p code base s).ldg.ctx.length := hc
  exact (congrArg (fun l : List Word => ctxOwnerOf (l.getD c 0x1F00)) ctxs).trans (ctxOwner_setCtxOwner hp inRange)

theorem created_point (p free sid code base : Nat) (s : State) :
    (created p free sid code base s).jct.switchWait = true ∧
      (created p free sid code base s).ilk.serial = (s.ilk.serial + 1) % 2 ^ 32 ∧
      (created p free sid code base s).sdg = (makeCompl sid p code base s).sdg ∧
      (created p free sid code base s).ttb = s.ttb ∧ (created p free sid code base s).mtr = s.mtr := by
  obtain ⟨jct, serial, -⟩ := applyChange_point (.create p free sid) (makeCompl sid p code base s)
  have work := createPart_within (a1 := p) (a2 := free) (a3 := sid) (.refl _ (makeCompl sid p code base s))
    (List.Subset.refl _)
  have siding := makeCompl_within (a1 := sid) (a2 := p) (a3 := code) (a4 := base) (.refl _ s) (List.Subset.refl _)
  refine ⟨?_, serial.trans ?_, work.sdg_eq, work.ttb_eq.trans siding.ttb_eq, work.mtr_eq.trans siding.mtr_eq⟩
  · exact congrArg Junction.switchWait jct
  · rw [siding.ilk_eq]

/-- The contexts of a creation: those of the mask that Root still owns. -/
theorem freeMask_testBit {s : State} (h : s.ilk.changes = []) (mask : Nat) {c : Nat} (hc : c < 32) :
    (maskOf ((bitsOf 32 mask).filter fun c => decide (16 ≤ s.ctxOwner c) && !(comingMask s).testBit c)).testBit c =
      (mask.testBit c && decide (s.ctxOwner c = 16)) := by
  have none_ : comingMask s = 0 := by rw [comingMask, h]; rfl
  have root : (16 ≤ s.ctxOwner c) ↔ s.ctxOwner c = 16 := by
    have := ctxOwner_le s c
    omega
  rw [testBit_maskOf]
  simp [bitsOf, none_, hc, root, Bool.and_comm]

theorem partitionCreated : PartitionCreated := by
  refine ⟨fun s pk p sid base hissues hshaped hp hfree hpoint hsid hbase => ?_, fun s pk hissues hbusy => ?_⟩
  all_goals
    have acts : exec (.partCreate 16) s = .next (partCreate pk (ticketOf 16 pk) (taken 16 s)) :=
      congrArg next (issue_of_issues hissues)
  · obtain ⟨hsdg, hctx, hparts, hwins⟩ : s.sdg.desc.length = 256 ∧ s.ldg.ctx.length = 32 ∧ s.ilk.parts.length = 16 ∧
        s.dsp.wins.length = 17 := by
      simp only [State.shaped, Bool.and_eq_true, beq_iff_eq] at hshaped
      omega
    have hp16 : p < 16 := hp ▸ fld_lt _ 0 4
    have sidFree := List.find?_some hsid
    have sidRange : sid < 256 := List.mem_range.mp (List.mem_of_find?_eq_some hsid)
    simp only [Bool.and_eq_true, decide_eq_true_eq, beq_iff_eq] at sidFree
    generalize hfreeMask : maskOf ((bitsOf 32 (fld (pw pk 1) 0 32)).filter fun c =>
      decide (16 ≤ s.ctxOwner c) && !(comingMask s).testBit c) = free
    generalize hcode : min 10 (param pk 4 4) = code at *
    have soon : ((partSoon (taken 16 s) (param pk 0 4)).1 != 0) = false := by
      have given : partSoon (taken 16 s) (param pk 0 4) = partSoon s p := hp ▸ rfl
      rw [given, partSoon, hpoint.1]
      simp [hfree]
    have point : pointFree (makeCompl sid p code base (taken 16 s)) := hpoint
    have runs : partCreate pk (ticketOf 16 pk) (taken 16 s) =
        (created p free sid code base (taken 16 s)).complete (ticketOf 16 pk) statusDone sid (nat64 free) := by
      have find : (List.range 256).find? (fun i => decide (4 ≤ i) && ((taken 16 s).siding i).state == 0) = some sid :=
        hsid
      have place : placeSiding (taken 16 s) sid code = some base := hcode ▸ hbase
      have number : param pk 0 4 = p := hp.symm
      have mask : maskOf ((bitsOf 32 (fld (pw pk 1) 0 32)).filter fun c =>
        decide (16 ≤ (taken 16 s).ctxOwner c) && !(comingMask (taken 16 s)).testBit c) = free := hfreeMask
      rw [partCreate, createNow, soon, if_neg Bool.false_ne_true, mask, hcode]
      simp only [find, place, number]
      rw [tableChange_free point]
      rfl
    obtain ⟨self, others, opens, compl, ready, windows, ctxs⟩ := created_creates (free := free) (sid := sid)
      (code := code) (base := base) (s := taken 16 s) hp16 hparts (by simpa [taken] using hwins)
    obtain ⟨switched, serial, sidings, ttb, mtr⟩ := created_point p free sid code base (taken 16 s)
    generalize created p free sid code base (taken 16 s) = made at *
    obtain ⟨elsewhere, state, owner, producer, placed, level, enabled⟩ :=
      siding_makeCompl (s := taken 16 s) (by rw [← hsdg] at sidRange; exact sidRange) p code base (s.win 16).compl
    have complOf : (made.win 16).compl = (s.win 16).compl := by rw [windows 16 (by omega), taken_win_compl]
    have live1 : (s.siding (s.win 16).compl).state = 1 := hissues.2.2.2.2.2.2.2
    have apart : (s.win 16).compl ≠ sid := by
      intro same
      rw [same, sidFree.2] at live1
      exact absurd live1 (by decide)
    have madeSiding : ∀ i, made.siding i = (makeCompl sid p code base (taken 16 s)).siding i := fun i => by
      rw [State.siding, sidings]
      rfl
    have complLive : (made.siding (made.win 16).compl).state = 1 := by
      rw [complOf, madeSiding, elsewhere apart]
      exact live1
    have completes := complete_eq_told (pk := pk) (status := statusDone) (result := sid) (result2 := nat64 free)
      complLive
    have rest := told_within (w := 16) (pk := pk) (status := statusDone) (result := sid) (result2 := nat64 free)
      (.refl _ made) (List.Subset.refl _)
    have newSiding := (told_other_siding (s := made) (w := 16) (by rw [complOf]; exact apart.symm) pk statusDone sid
      (nat64 free)).trans (madeSiding sid)
    rw [Answers, acts, runs, completes]
    generalize told 16 pk statusDone sid (nat64 free) made = t at *
    have wins : ∀ w, t.win w = made.win w := fun w => by rw [State.win, rest.dsp_eq]; rfl
    have parts : ∀ q, t.part q = made.part q := fun q => by rw [State.part, rest.ilk_eq]; rfl
    refine ⟨_, rfl, (parts p).trans self, fun q hq => (parts q).trans (others q hq),
      (congrArg CmdWin.isOpen (wins p)).trans opens, (congrArg CmdWin.compl (wins p)).trans compl,
      (congrArg CmdWin.ready (wins p)).trans ready, newSiding ▸ state, newSiding ▸ owner, newSiding ▸ producer,
      newSiding ▸ placed, newSiding ▸ level, newSiding ▸ enabled, (congrArg Interlock.serial rest.ilk_eq).trans serial,
      (congrArg Junction.switchWait rest.jct_eq).trans switched, fun c hc => ?_, rest.ttb_eq.trans ttb,
      rest.mtr_eq.trans mtr⟩
    have owner_ : t.ctxOwner c = made.ctxOwner c := by rw [State.ctxOwner, rest.ldg_eq]; rfl
    have bits := freeMask_testBit hpoint.1 (fld (pw pk 1) 0 32) hc
    rw [hfreeMask] at bits
    have inRange : c < (taken 16 s).ldg.ctx.length := hctx.symm ▸ hc
    rw [owner_, ctxs c inRange, bits]
    simp only [Bool.and_eq_true, decide_eq_true_eq]
    rfl
  · have busy : ((partSoon (taken 16 s) (param pk 0 4)).1 != 0) = true := bne_iff_ne.mpr hbusy
    rw [acts, partCreate, createNow, busy, if_pos rfl]
    exact congrArg Host.Outcome.next (complete_eq_told (taken_compl_live hissues))

/-! ### A partition is detached, scrubbed and freed -/

theorem applyChange_ilk (c : TableChange) (s : State) :
    (applyChange c s).ilk = { (changeWork c s).ilk with serial := (s.ilk.serial + 1) % 2 ^ 32 } := by
  rw [applyChange_eq, (changeWork_order c s).1]
  rfl

theorem applyChange_dsp (c : TableChange) (s : State) : (applyChange c s).dsp = (changeWork c s).dsp := by
  rw [applyChange_eq]

/-- Every window is open or closed as before. -/
def SameOpen (s t : State) : Prop := ∀ w, (t.win w).isOpen = (s.win w).isOpen

theorem SameOpen.of_wins {s t : State} (h : t.dsp.wins = s.dsp.wins) : SameOpen s t := fun w => by
  rw [State.win, h]
  rfl

theorem SameOpen.trans {s t u : State} (h : SameOpen s t) (g : SameOpen t u) : SameOpen s u :=
  fun w => (g w).trans (h w)

theorem SameOpen.forEach {α : Type} (r : List α) (f : α → State → State) (hf : ∀ a x, SameOpen x (f a x)) (s : State) :
    SameOpen s (forEach r f s) :=
  forEach_keeps (SameOpen s) _ _ _ (.of_wins rfl) fun a x h => h.trans (hf a x)

theorem modWin_sameOpen (s : State) (n : Nat) (f : CmdWin → CmdWin) (hf : ∀ x, (f x).isOpen = x.isOpen) :
    SameOpen s (s.modWin n f) := fun w => by
  rw [State.win_modWin]
  split
  · exact hf _
  · rfl

theorem complete_sameOpen (s : State) (t : Ticket) (status result : Nat) (result2 : Word) :
    SameOpen s (s.complete t status result result2) := by
  rw [State.complete]
  split
  · exact .of_wins rfl
  · dsimp only
    split
    · exact .of_wins (State.pushItem_within (.refl _ s) (List.Subset.refl _)).wins_eq
    · exact modWin_sameOpen s _ (fun x => { x with lostRep := sat 16 (x.lostRep + 1) }) fun _ => rfl

theorem finish_sameOpen (s : State) (t : Ticket) (status result : Nat) (result2 : Word) :
    SameOpen s (s.finish t status result result2) := by
  have done := complete_sameOpen s t status result result2
  unfold State.finish
  extract_lets s1
  split
  · exact done
  · exact done.trans (modWin_sameOpen s1 _ (fun x =>
      { x with owes := x.owes - 1, longs := if t.later then x.longs else x.longs - 1 }) fun _ => rfl)

theorem abortHeld_sameOpen (q : HeldQ → Bool) (s : State) : SameOpen s (abortHeld q s) :=
  SameOpen.trans (t := setHeld (s.dsp.heldQ.filter fun h => !q h) s) (.of_wins rfl)
    (.forEach _ _ (fun (h : HeldQ) x => finish_sameOpen x h.ticket statusAborted 0 0) _)

theorem dropSession_sameOpen (o : Nat) (s : State) : SameOpen s (dropSession o s) := by
  unfold dropSession
  extract_lets x1 x2 x3 x4 s1 s2 x5 x6 s3 x7 x8 x9 s4 s5
  have before : Within [.myd, .desc, .gens, .exp] s s4 :=
    discardRest_within ((Within.setMyd (clearExport_within (noteDiscarded_within (.refl _ s))) _).setExp _)
  have ended : SameOpen s4 s5 := by
    dsimp only [s5]
    cases x1.closing with
    | none => exact .of_wins rfl
    | some t => exact finish_sameOpen s4 t statusAborted 0 0
  exact (SameOpen.of_wins before.wins_eq).trans (ended.trans (.of_wins rfl))

theorem leavePlan_sameOpen (k : Nat) (s : State) : SameOpen s (leavePlan k s) := by
  unfold leavePlan
  exact SameOpen.trans (.of_wins rfl) (abortHeld_sameOpen (fun h => h.unit == unitPlan k) _)

theorem freeObjects_sameOpen (p : Nat) (s : State) : SameOpen s (freeObjects p s) := by
  unfold freeObjects
  extract_lets keep x1 s1 s2 s3 x2 stream x3 s4
  have plans : SameOpen s1 s2 := .forEach _ _ (fun k x => leavePlan_sameOpen k x) s1
  have models : SameOpen s2 s3 := .forEach _ _ (fun k x => by
    have freed : Within [.plt, .models] x (freeModel k x) := freeModel_within (.refl _ x)
    exact (SameOpen.of_wins (congrArg Dispatcher.wins freed.dsp_eq)).trans
      (abortHeld_sameOpen (fun h => h.unit == unitModel k) _)) s2
  exact SameOpen.trans (.of_wins rfl) (plans.trans (models.trans (SameOpen.trans (.of_wins rfl)
    (.forEach _ (fun i s => applyE (.wbrQ i wbrQReset) (applyE (.wbrSel i wbrSelReset) s))
      (fun _ _ => .of_wins rfl) s4))))

theorem detachPart_closes {p : Nat} {s : State} (hp : p < s.dsp.wins.length) :
    ((detachPart p s).win p).isOpen = false := by
  unfold detachPart
  extract_lets mask s1 s2 s3 s4 s5
  have closed : (s4.win p).isOpen = false := by
    have inRange : p < s3.dsp.wins.length := by
      have same : Within [.myd, .ldg, .ilk, .gens] s s3 := modDetach_within (clearLatch_within (setUserRead_within
        (stopStreams_within (State.modPart_within (.refl _ s)))))
      rw [same.wins_eq]
      exact hp
    exact congrArg CmdWin.isOpen (State.win_modWin_self s3 p _ inRange)
  have held : SameOpen s4 s5 := (freeObjects_sameOpen p s4).trans (abortHeld_sameOpen _ _)
  split
  · exact ((dropSession_sameOpen p s5) p).trans ((held p).trans closed)
  · exact (held p).trans closed

/-- A live entry is in detach after the change that detaches it. -/
theorem detach_detaches {p : Nat} {s : State} (hp : p < 16) (hparts : s.ilk.parts.length = 16)
    (hwins : s.dsp.wins.length = 17) :
    ((applyChange (.detach p) s).part p).state = 2 ∧ ((applyChange (.detach p) s).win p).isOpen = false ∧
      (applyChange (.detach p) s).ilk.detaches = s.ilk.detaches.map fun d =>
        if d.p == p then { d with at_ := some s.now, mask := BitVec.ofNat 32 (ctxMaskOf s p) } else d := by
  have ilk : (applyChange (.detach p) s).ilk = { (modDetach p (fun d =>
      { d with at_ := some s.now, mask := BitVec.ofNat 32 (ctxMaskOf s p) })
      (s.modPart p fun x => { x with state := 2 })).ilk with serial := (s.ilk.serial + 1) % 2 ^ 32 } := by
    rw [applyChange_ilk, show changeWork (.detach p) s = detachPart p s from rfl, detachPart_ilk]
  have part : (applyChange (.detach p) s).part p = (s.modPart p fun x => { x with state := 2 }).part p := by
    rw [State.part, ilk]
    rfl
  refine ⟨?_, ?_, by rw [ilk]; rfl⟩
  · rw [part, State.part_modPart_self s p _ (by omega)]
  · rw [State.win, applyChange_dsp]
    exact detachPart_closes (by omega)

theorem detachBegins : DetachBegins := by
  refine ⟨fun s pk p hissues hshaped hp hdetach hpoint => ?_, fun s pk hissues hno => ?_⟩
  all_goals
    have acts : exec (.partDetach 16) s = .next (partDetach pk (ticketOf 16 pk) (taken 16 s)) :=
      congrArg next (issue_of_issues hissues)
  · obtain ⟨hparts, hwins⟩ : s.ilk.parts.length = 16 ∧ s.dsp.wins.length = 17 := by
      simp only [State.shaped, Bool.and_eq_true, beq_iff_eq] at hshaped
      omega
    have hp16 : p < 16 := hp ▸ fld_lt _ 0 4
    let d : Detach := {
      p := p, ticket := ticketOf 16 pk, at_ := none, tdDone := false, td := none, snapOk := none, mask := 0,
      scrub := false, scrubEnd := false, failed := false }
    let begun : State := (taken 16 s).startLong (ticketOf 16 pk)
    let noted : State := { begun with ilk := { begun.ilk with detaches := begun.ilk.detaches ++ [d] } }
    have runs : partDetach pk (ticketOf 16 pk) (taken 16 s) = applyChange (.detach p) noted := by
      have can : detachable (taken 16 s) p = true := hdetach
      have point : pointFree noted := hpoint
      rw [partDetach, show param pk 0 4 = p from hp.symm, detachNow, can, if_pos rfl]
      exact tableChange_free point _
    have windows : noted.dsp.wins.length = 17 := by
      have same : noted.dsp.wins.length = begun.dsp.wins.length := rfl
      rw [same]
      simpa [begun, State.startLong, ticketOf, State.modWin, taken] using hwins
    obtain ⟨state, closed, detaches⟩ := detach_detaches (s := noted) hp16 hparts windows
    obtain ⟨jct, serial, -⟩ := applyChange_point (.detach p) noted
    refine ⟨_, acts.trans (congrArg next runs), state, closed, ?_, fun e he hep => ?_, serial, ?_⟩
    · refine ⟨{ d with at_ := some s.ttb.time, mask := BitVec.ofNat 32 (ctxMaskOf noted p) }, ?_, rfl, rfl, rfl⟩
      rw [detaches]
      exact List.mem_map.mpr ⟨d, List.mem_append_right _ (List.mem_singleton_self d), if_pos (beq_self_eq_true p)⟩
    · rw [detaches]
      exact List.mem_map.mpr ⟨e, List.mem_append_left _ he, if_neg (by simp [hep])⟩
    · rw [jct]
  · have no : detachable (taken 16 s) (param pk 0 4) = false := hno
    rw [acts, partDetach, detachNow, no, if_neg Bool.false_ne_true]
    exact congrArg Host.Outcome.next (complete_eq_told (taken_compl_live hissues))

theorem scrubBegins : ScrubBegins := by
  intro s p d hcore hshaped hp hd hscrub hpoint hready hclosed
  obtain ⟨hparts, hwins⟩ : s.ilk.parts.length = 16 ∧ s.dsp.wins.length = 17 := by
    simp only [State.shaped, Bool.and_eq_true, beq_iff_eq] at hshaped
    omega
  let marked := modDetach p (fun d => { d with scrub := true }) s
  have acts : exec (.detachScrubStart p) s = .next (tableChange (.scrub p) marked) := by
    have unfolded : exec (.detachScrubStart p) s = .next (match detachOf s p with
      | some d => when (s.core && !d.scrub && readyToScrub s p)
          (fun s =>
            let s := if (s.session p).isOpen then dropSession p s else s
            tableChange (.scrub p) (modDetach p (fun d => { d with scrub := true }) s)) s
      | none => s) := rfl
    rw [unfolded, hd]
    simp only [hcore, hscrub, hready, hclosed, Bool.not_false, Bool.and_true, when_true, Bool.false_eq_true, if_false]
    rfl
  have point : pointFree marked := hpoint
  obtain ⟨u, same, base, wins⟩ := scrubBase_ilk p marked
  obtain ⟨jobs, kept⟩ := scrubFrom_ilk p 0 (scrubBase p marked)
  have windows := (scrubFrom_within (a1 := p) (a2 := 0) (.refl _ (scrubBase p marked)) (List.Subset.refl _)).dsp_eq
  have ilk : (applyChange (.scrub p) marked).ilk = { (scrubFrom p 0 (scrubBase p marked)).ilk with
      serial := (marked.ilk.serial + 1) % 2 ^ 32 } := applyChange_ilk (.scrub p) marked
  have dsp : (applyChange (.scrub p) marked).dsp = (scrubBase p marked).dsp :=
    (applyChange_dsp (.scrub p) marked).trans windows
  have parts : (applyChange (.scrub p) marked).ilk.parts = u.ilk.parts := by rw [ilk, jobs, base]
  have state : ∀ q, ((applyChange (.scrub p) marked).part q).state =
      ((s.modPart p fun x => { x with state := 3 }).part q).state := fun q => by
    rw [State.part, parts]
    exact same.2 q
  rw [tableChange_free point] at acts
  refine ⟨_, acts, ?_, ?_, ?_, fun e he hep => ?_, fun q hq => ?_⟩
  · rw [state, State.part_modPart_self s p _ (by omega)]
  · rw [State.win, dsp, wins, getD_modify]
    split
    · rfl
    · rename_i none_
      have outside : u.dsp.wins.length ≤ p := by simpa using none_
      rw [List.getD_eq_default _ _ outside]
      rfl
  · rw [ilk, jobs, base]
  · rw [ilk] at he
    obtain ⟨f, hf, number, scrub⟩ := kept e he
    have list : (scrubBase p marked).ilk.detaches = marked.ilk.detaches := by
      have unchanged := congrArg Interlock.detaches same.1
      rw [base]
      exact unchanged
    rw [list] at hf
    obtain ⟨g, -, rfl⟩ := List.mem_map.mp hf
    rw [scrub]
    by_cases mine : (g.p == p) = true
    · rw [if_pos mine]
    · rw [if_neg mine] at number
      exact absurd (hep ▸ number.symm) (by simpa using mine)
  · rw [state, State.part_modPart_ne s _ hq.symm]

theorem detachEnds : DetachEnds := by
  intro s p d hcore hshaped hp hd hstate hpoint hend hsnap
  have hparts : s.ilk.parts.length = 16 := by
    simp only [State.shaped, Bool.and_eq_true, beq_iff_eq] at hshaped
    omega
  have acts : exec (.detachComplete p) s = .next (applyChange (.free p) s) := by
    have unfolded : exec (.detachComplete p) s = .next (when s.core (detachComplete p) s) := rfl
    have soon : (partSoon s p).1 = 3 := by
      rw [partSoon, hpoint.1]
      exact hstate
    rw [unfolded, hcore, when_true, detachComplete, hd]
    simp only [hstate, soon, hend, hsnap, BEq.rfl, Bool.and_true, if_true, tableChange_free hpoint]
  have ilk : (applyChange (.free p) s).ilk = { s.ilk with
      detaches := s.ilk.detaches.filter fun x => x.p != p, rint := s.ilk.rint ||| 4#4,
      parts := s.ilk.parts.modify p fun _ => Part.reset, serial := (s.ilk.serial + 1) % 2 ^ 32 } := by
    rw [applyChange_ilk, show changeWork (.free p) s = freePart p s from rfl, freePart_ilk]
  have part : ∀ q, (applyChange (.free p) s).part q = (s.modPart p fun _ => Part.reset).part q := fun q => by
    rw [State.part, ilk]
    rfl
  refine ⟨_, acts, (part p).trans (State.part_modPart_self s p _ (by omega)), by rw [ilk], by rw [ilk], by rw [ilk],
    fun q hq => (part q).trans (State.part_modPart_ne s _ hq.symm)⟩

end Sys2Proof.Claims
end

section
open Sys2Proof Sys2Proof.Machine Sys2Proof.Claims

/-- Settles O20: every change of the table takes the next number and a switch-over point of its own, and what each does
to its entry is read off the Interlocking. -/
theorem partitionLife : Obligations.PartitionLife :=
  ⟨tableChangesWait, partitionCreated, detachBegins, scrubBegins, detachEnds⟩
end

section
/-! PROOFS. O23: what a station counts, and under which context and bank (R88, R89, R92-R94, R131). -/

namespace Sys2Proof.Machine

open Sys2Proof.Claims

/-! ### One station -/

theorem onlyStation_modStation {s : State} {n : Nat} (h : n < s.stn.length) (f : Station → Station) :
    onlyStation s (s.modStation n f) n (f (s.station n)) :=
  ⟨State.station_modStation_self s n f h, fun _ hm => State.station_modStation_ne s f hm.symm⟩

theorem onlyStation_trans {s t u : State} {n : Nat} {x y : Station} (h : onlyStation s t n x)
    (g : onlyStation t u n y) : onlyStation s u n y :=
  ⟨g.1, fun m hm => (g.2 m hm).trans (h.2 m hm)⟩

theorem exec_stationEdge {s : State} {n stamp : Nat} {inp : StnInputs} (h : countsAt s n stamp) :
    exec (.stationEdge n stamp inp) s = .next (countedEdge n stamp inp s) := by
  obtain ⟨core, -, addressed, powered, -, released, measured, -, fits, -, -⟩ := h
  have run : s.stationsRun = true := by
    simp only [State.core, Bool.and_eq_true] at core
    exact core.1
  have unfolded : exec (.stationEdge n stamp inp) s = .next (when s.stationsRun (stationEdge n stamp inp) s) := rfl
  rw [unfolded, run, when_true]
  simp [stationEdge, addressed, powered, released, measured, fits]

/-! ### Counts -/

theorem look_countFold {evs : List Nat} (h : evs.Nodup) {l : List (Nat × Nat)} (hl : canonical 0 l = true) (e : Nat) :
    look 0 e (evs.foldl (fun l e => store 0 e (look 0 e l + 1) l) l) = look 0 e l + (if e ∈ evs then 1 else 0) := by
  induction evs generalizing l with
  | nil => simp
  | cons a r ih =>
    obtain ⟨fresh, rest⟩ := List.nodup_cons.mp h
    rw [List.foldl_cons, ih rest (canonical_store hl)]
    by_cases ha : e = a
    · subst ha
      simp [look_store_self hl, fresh]
    · rw [look_store_other hl ha]
      simp [ha]

theorem canonical_countFold {evs : List Nat} {l : List (Nat × Nat)} (hl : canonical 0 l = true) :
    canonical 0 (evs.foldl (fun l e => store 0 e (look 0 e l + 1) l) l) = true := by
  induction evs generalizing l with
  | nil => exact hl
  | cons a r ih => exact ih (canonical_store hl)

/-- An event that is true adds 1 to its own delta. -/
theorem look_countEvents {ev : BitVec 512} {b : Bank} (h : canonical 0 b.deltas = true) {e : Nat} (he : e < 512) :
    look 0 e (countEvents ev.toNat b).deltas = look 0 e b.deltas + (if ev.getLsbD e then 1 else 0) := by
  have nodup : (bitsOf 512 ev.toNat).Nodup := List.Nodup.filter _ List.nodup_range
  rw [countEvents, look_countFold nodup h]
  simp [bitsOf, he, BitVec.getLsbD]

theorem canonical_countEvents {ev : Nat} {b : Bank} (h : canonical 0 b.deltas = true) :
    canonical 0 (countEvents ev b).deltas = true := by
  simp only [countEvents]
  exact canonical_countFold h

/-- No record is formed while trace is off. -/
theorem forms_traceOff {s : State} {n : Nat} (h : stnTraceEn (s.station n) = false) (c : Nat) :
    forms s n c = false := by
  simp [forms, h]

/-- What an edge notes of itself. -/
def edgeNotes (ev : BitVec 512) (stamp now : Nat) (inp : StnInputs) (x : Station) : Station :=
  { x with
    prevEv := ev, lastStamp := stamp, lastEdge := now, quiet := if quietInput inp then x.quiet + 1 else 0 }

/-- The counts of an edge. -/
def counted_ (ev : BitVec 512) (n : Nat) (s : State) : State :=
  if countsRun s && stnCountEn (s.station n) then
    s.modStation n fun x => { x with active := countEvents ev.toNat x.active }
  else s

/-- What the counts of an edge make of a station. -/
def countIn (ev : BitVec 512) (x : Station) : Station := { x with active := countEvents ev.toNat x.active }

theorem countIn_traceEn (ev : BitVec 512) (x : Station) : stnTraceEn (countIn ev x) = stnTraceEn x := by
  simp only [stnTraceEn, countIn]

theorem countIn_active (ev : BitVec 512) (x : Station) : (countIn ev x).active = countEvents ev.toNat x.active := by
  simp only [countIn]

theorem countIn_vacated (ev : BitVec 512) (x : Station) : (countIn ev x).vacated = x.vacated := by
  simp only [countIn]

theorem countEvents_ctx (ev : Nat) (b : Bank) : (countEvents ev b).ctx = b.ctx := by
  simp only [countEvents]

theorem counted_of {ev : BitVec 512} {n : Nat} {s : State} (h : countsRun s = true)
    (hcount : stnCountEn (s.station n) = true) : counted_ ev n s = s.modStation n (countIn ev) :=
  if_pos (by rw [h, hcount]; rfl)

theorem counted_off {ev : BitVec 512} {n : Nat} {s : State} (hcount : stnCountEn (s.station n) = false) :
    counted_ ev n s = s :=
  if_neg (by simp [hcount])

/-- A counted edge of a station whose trace is off and that has no beat: the tag, the counts, and its notes. -/
theorem countedEdge_traceOff {s u : State} {n stamp : Nat} {inp : StnInputs} (hres : (s.station n).resumes = false)
    (hsnoop : inp.snoop = none) (hacc : inp.acc = none) (hu : withSome inp.tag (fun t => takeTag n stamp t.toNat) s = u)
    (hoff : stnTraceEn ((counted_ (edgeEvents (s.station n) inp) n u).station n) = false) :
    countedEdge n stamp inp s = (counted_ (edgeEvents (s.station n) inp) n u).modStation n
      (edgeNotes (edgeEvents (s.station n) inp) stamp (counted_ (edgeEvents (s.station n) inp) n u).now inp) := by
  have awake : ((s.station n).resumes && (s.station n).st == .running) = false := by rw [hres, Bool.false_and]
  subst hu
  unfold countedEdge
  rw [awake, if_neg Bool.false_ne_true, hsnoop, hacc]
  extract_lets s0 ev t v c mask r
  have silent : forms v n c = false := forms_traceOff hoff c
  have same : r = v := by
    dsimp only [r]
    rw [silent, Bool.and_false, if_neg Bool.false_ne_true]
  change r.modStation n (edgeNotes ev stamp r.now inp) = v.modStation n (edgeNotes ev stamp v.now inp)
  rw [same]

end Sys2Proof.Machine

namespace Sys2Proof.Claims

open Sys2Proof.Machine

theorem edgeCounts : EdgeCounts := by
  intro s n stamp inp given hcount htrace htag hsnoop hacc hcanon
  obtain ⟨core, hn, -, -, -, -, -, resumed, -, -, bound⟩ := id given
  have run : countsRun s = true := by
    simp only [State.core, Bool.and_eq_true] at core
    simp [countsRun, core, bound]
  obtain ⟨ev, hev⟩ : ∃ ev, ev = edgeEvents (s.station n) inp := ⟨_, rfl⟩
  have counts := counted_of (ev := ev) (n := n) run hcount
  have first := onlyStation_modStation hn (countIn ev)
  have off : stnTraceEn ((counted_ ev n s).station n) = false := by
    rw [counts, first.1, countIn_traceEn]
    exact htrace
  have acts := countedEdge_traceOff (stamp := stamp) (u := s) resumed hsnoop hacc (by rw [htag]; rfl) (hev ▸ off)
  rw [← hev, counts] at acts
  have hn1 : n < (s.modStation n (countIn ev)).stn.length := by simpa using hn
  have both := onlyStation_trans first (onlyStation_modStation hn1
    (edgeNotes ev stamp (s.modStation n (countIn ev)).now inp))
  rw [first.1] at both
  rw [← hev]
  refine ⟨_, (exec_stationEdge given).trans (congrArg next acts), fun e he => ?_, ?_, ?_, ?_, ?_, both.2, rfl, rfl, rfl,
    rfl⟩
  all_goals simp only [both.1, edgeNotes, countIn_active, countIn_vacated, countEvents_ctx]
  · exact look_countEvents hcanon he
  · exact canonical_countEvents hcanon

/-! ### A taken tag -/

/-- The station as it notes a tag, before its context follows. -/
def tagNoted (tag : Nat) (x : Station) : Station := { x with curTag := tag, tagTaken := true, accIndex := 0 }

/-- A tag of a station whose trace and counts are off: its context follows, and the edge is noted. -/
theorem tagEdge {s u : State} {n stamp : Nat} {tag : BitVec 16} {inp : StnInputs} (h : countsAt s n stamp)
    (htag : inp.tag = some tag) (hsnoop : inp.snoop = none) (hacc : inp.acc = none)
    (htrace : stnTraceEn (s.station n) = false) (hcount : stnCountEn (s.station n) = false)
    (hu : changeCtx n (tagCtx (s.station n) tag.toNat) (s.modStation n (tagNoted tag.toNat)) = u)
    (hcfg : (u.station n).cfg = (s.station n).cfg) :
    exec (.stationEdge n stamp inp) s =
      .next (u.modStation n (edgeNotes (edgeEvents (s.station n) inp) stamp u.now inp)) := by
  have trace : stnTraceEn (u.station n) = false := by rw [stnTraceEn, hcfg]; exact htrace
  have count : stnCountEn (u.station n) = false := by rw [stnCountEn, hcfg]; exact hcount
  have taken_ : takeTag n stamp tag.toNat s = u := by
    simp only [takeTag]
    have same : changeCtx n (tagCtx (s.station n) tag.toNat)
        (s.modStation n fun x => { x with curTag := tag.toNat, tagTaken := true, accIndex := 0 }) = u := hu
    rw [same, forms_traceOff trace, if_neg Bool.false_ne_true]
  have resumed := h.2.2.2.2.2.2.2.1
  rw [exec_stationEdge h, countedEdge_traceOff (u := u) resumed hsnoop hacc (by rw [htag]; exact taken_)
    (by rw [counted_off count]; exact trace),
    counted_off count]

/-- What an edge with a tag alone leaves of a station, after its context has followed. -/
theorem tagEdge_station {s u : State} {n stamp : Nat} {tag : BitVec 16} (h : countsAt s n stamp)
    (htrace : stnTraceEn (s.station n) = false) (hcount : stnCountEn (s.station n) = false)
    (hu : changeCtx n (tagCtx (s.station n) tag.toNat) (s.modStation n (tagNoted tag.toNat)) = u)
    (hcfg : (u.station n).cfg = (s.station n).cfg) (hlen : u.stn.length = s.stn.length) :
    ∃ t ev,
      exec (.stationEdge n stamp { ev := 0, occ := [], snoop := none, tag := some tag, acc := none }) s = .next t ∧
      t.station n = edgeNotes ev stamp u.now { ev := 0, occ := [], snoop := none, tag := some tag, acc := none }
        (u.station n) ∧ t.sbx = u.sbx := by
  have inRange : n < u.stn.length := hlen ▸ h.2.1
  exact ⟨_, _, tagEdge h rfl rfl rfl htrace hcount hu hcfg, (onlyStation_modStation inRange _).1, rfl⟩

/-- What a context overrun marks (R92). -/
theorem ctxOverrunTo_marks {s : State} {n : Nat} (hcore : s.core = true) (hn : n < s.stn.length) (c : Nat) :
    (ctxOverrunTo n c s).station n = { s.station n with
      active := { (s.station n).active with
        lost := (s.station n).active.lost ++ (lostDeltas (s.station n).curCtx s.ttb.epoch (List.range 512) ++
          lostDeltas c s.ttb.epoch (List.range 512)) },
      lateCtx := some c, ctxOverrun := min 65535 ((s.station n).ctxOverrun + 1) } ∧
    (ctxOverrunTo n c s).sbx.inbox =
      s.sbx.inbox ++ [received s (occ 1 4 n ((s.station n).curCtx * 2 ^ 8 + c))] := by
  simp only [ctxOverrunTo, State.raise_core hcore]
  exact ⟨State.station_modStation_self _ n _ hn, rfl⟩

theorem tagSwitchesContext : TagSwitchesContext := by
  refine ⟨fun s n stamp tag given htrace hcount hfree hsince hctx => ?_,
    fun s n stamp tag given htrace hcount hempty hsince hctx => ?_,
    fun s n stamp tag given htrace hcount hfull hsince hctx => ?_⟩
  all_goals
    have hn := given.2.1
    have noted := onlyStation_modStation hn (tagNoted tag.toNat)
    have hn1 : n < (s.modStation n (tagNoted tag.toNat)).stn.length := by simpa using hn
    have other : ¬ tagCtx (s.station n) tag.toNat = ((s.modStation n (tagNoted tag.toNat)).station n).curCtx := by
      rw [noted.1]
      exact hctx
  · have used : justSwapped ((s.modStation n (tagNoted tag.toNat)).station n) = false := by
      rw [noted.1]
      have late : ¬ (tagNoted tag.toNat (s.station n)).lastStamp < (tagNoted tag.toNat (s.station n)).active.since :=
        Nat.not_lt.mpr hsince
      simp [justSwapped, late]
    have free : bankFree ((s.modStation n (tagNoted tag.toNat)).station n) = true := by
      rw [noted.1]
      exact decide_eq_true hfree
    have follows : changeCtx n (tagCtx (s.station n) tag.toNat) (s.modStation n (tagNoted tag.toNat)) =
        (s.modStation n (tagNoted tag.toNat)).modStation n (fun x =>
          { swapBank (tagCtx (s.station n) tag.toNat) s.ttb.epoch s.now false x with lateCtx := none }) := by
      simp only [changeCtx, if_neg other, used, Bool.false_eq_true, if_false, free, if_true]
      rfl
    have swapped := onlyStation_modStation hn1 (fun x =>
      { swapBank (tagCtx (s.station n) tag.toNat) s.ttb.epoch s.now false x with lateCtx := none })
    rw [noted.1] at swapped
    obtain ⟨t, ev, acts, stn, -⟩ := tagEdge_station given htrace hcount follows (by rw [swapped.1]; rfl) (by simp)
    rw [swapped.1] at stn
    exact ⟨t, acts, by rw [stn]; rfl, by rw [stn]; rfl, by rw [stn]; rfl, by rw [stn]; rfl, by rw [stn]; rfl,
      by rw [stn]; rfl⟩
  · have used : justSwapped ((s.modStation n (tagNoted tag.toNat)).station n) = true := by
      rw [noted.1]
      have early : (tagNoted tag.toNat (s.station n)).lastStamp < (tagNoted tag.toNat (s.station n)).active.since :=
        hsince
      have empty : (tagNoted tag.toNat (s.station n)).active.deltas = [] := hempty
      simp [justSwapped, early, empty]
    have follows : changeCtx n (tagCtx (s.station n) tag.toNat) (s.modStation n (tagNoted tag.toNat)) =
        (s.modStation n (tagNoted tag.toNat)).modStation n (fun x =>
          { relabel (tagCtx (s.station n) tag.toNat) x with
            lateCtx := none,
            used := if x.active.since = s.ttb.epochT then [tagCtx (s.station n) tag.toNat]
              else (relabel (tagCtx (s.station n) tag.toNat) x).used }) := by
      simp only [changeCtx, if_neg other, used, if_true]
      rfl
    have moved := onlyStation_modStation hn1 (fun x =>
      { relabel (tagCtx (s.station n) tag.toNat) x with
        lateCtx := none,
        used := if x.active.since = s.ttb.epochT then [tagCtx (s.station n) tag.toNat]
          else (relabel (tagCtx (s.station n) tag.toNat) x).used })
    rw [noted.1] at moved
    obtain ⟨t, ev, acts, stn, sbx⟩ := tagEdge_station given htrace hcount follows (by rw [moved.1]; rfl) (by simp)
    rw [moved.1] at stn
    exact ⟨t, acts, by rw [stn]; rfl, by rw [stn]; rfl, by rw [stn]; rfl, sbx⟩
  · have used : justSwapped ((s.modStation n (tagNoted tag.toNat)).station n) = false := by
      rw [noted.1]
      have late : ¬ (tagNoted tag.toNat (s.station n)).lastStamp < (tagNoted tag.toNat (s.station n)).active.since :=
        Nat.not_lt.mpr hsince
      simp [justSwapped, late]
    have full : bankFree ((s.modStation n (tagNoted tag.toNat)).station n) = false := by
      rw [noted.1]
      exact decide_eq_false (Nat.not_lt.mpr hfull)
    have core : (s.modStation n (tagNoted tag.toNat)).core = true := given.1
    have follows : changeCtx n (tagCtx (s.station n) tag.toNat) (s.modStation n (tagNoted tag.toNat)) =
        ctxOverrunTo n (tagCtx (s.station n) tag.toNat) (s.modStation n (tagNoted tag.toNat)) := by
      simp only [changeCtx, if_neg other, used, full, Bool.false_eq_true, if_false]
    obtain ⟨stn1, sbx1⟩ := ctxOverrunTo_marks core hn1 (tagCtx (s.station n) tag.toNat)
    rw [noted.1] at stn1 sbx1
    obtain ⟨t, ev, acts, stn, sbx⟩ := tagEdge_station given htrace hcount follows (by rw [stn1]; rfl)
      (by simp [ctxOverrunTo, State.raise_core core])
    rw [stn1] at stn
    refine ⟨t, acts, by rw [stn]; rfl, ?_, by rw [stn]; rfl, by rw [stn]; rfl, ?_⟩
    · rw [stn, ← List.append_assoc]
      rfl
    · rw [sbx, sbx1]
      rfl

/-! ### Banks and the measured delay -/

theorem stationsRun_of_core {s : State} (h : s.core = true) : s.stationsRun = true := by
  simp only [State.core, Bool.and_eq_true] at h
  exact h.1

theorem deltaBanks : DeltaBanks := by
  refine ⟨fun s n hrun hbound hn haddr hfree htime hused => ?_, fun s n b r hrun hn hbanks hlate => ?_⟩
  · have free : bankFree (s.station n) = true := decide_eq_true hfree
    have due : (s.station n).active.since + 8000 ≤ s.now := htime
    have acts : exec (.deltaBankTimer n) s =
        .next (s.modStation n (swapBank (s.station n).curCtx s.ttb.epoch s.now false)) := by
      have unfolded : exec (.deltaBankTimer n) s = .next (when (countsRun s && (s.station n).addressed &&
          bankFree (s.station n) && decide ((s.station n).active.since + 8000 ≤ s.now))
          (fun s' => s'.modStation n (swapBank (s.station n).curCtx s.ttb.epoch s.now false)) s) := rfl
      rw [unfolded, countsRun, hrun, hbound, haddr, free, decide_eq_true due]
      rfl
    obtain ⟨self, others⟩ := onlyStation_modStation hn (swapBank (s.station n).curCtx s.ttb.epoch s.now false)
    have known : (s.station n).used.contains (s.station n).curCtx = true := by simpa using hused
    refine ⟨_, acts, self.trans ?_, others⟩
    rw [swapBank, known, if_pos rfl]
    rfl
  · have acts : exec (.deltaBankHandoverEnd n []) s = .next (bankHandedOver n [] s) := by
      have unfolded : exec (.deltaBankHandoverEnd n []) s = .next (when s.stationsRun (bankHandedOver n []) s) := rfl
      rw [unfolded, hrun, when_true]
    have hands : bankHandedOver n [] s = s.modStation n fun x =>
        lateSwap s.ttb.epoch s.now { x with vacated := r, link := x.link ++ bankDeltas b [] } := by
      have sound : (b.deltas.map (·.1)).filter (fun e => ([] : List Nat).contains e) = [] := by simp
      simp only [bankHandedOver, hbanks, sound, forEach_nil]
    obtain ⟨self, others⟩ := onlyStation_modStation hn fun x =>
      lateSwap s.ttb.epoch s.now { x with vacated := r, link := x.link ++ bankDeltas b [] }
    refine ⟨_, acts.trans (congrArg next hands), self.trans ?_, others⟩
    simp only [lateSwap, hlate, bankDeltas, List.contains_nil, Bool.false_eq_true, if_false]

theorem delayMeasured : DelayMeasured := by
  intro s n d hcore hn haddr hmeasure
  have acts : exec (.stationDelayMeasured n d) s = .next (Machine.delayMeasured n d.toNat s) := by
    have unfolded : exec (.stationDelayMeasured n d) s =
      .next (when (s.core && (s.station n).addressed) (Machine.delayMeasured n d.toNat) s) := rfl
    rw [unfolded, hcore, haddr]
    rfl
  have quiet : (s.ttb.running && (0 : BitVec 512) != 0) = false := by simp
  have ends : Machine.delayMeasured n d.toNat s = s.modStation n fun x =>
      { x with
        measuring := none, pathDelay := d.toNat, curTag := 0, tagTaken := false,
        curCtx := stnDefaultCtx (s.station n), accIndex := 0, accStarts := [], prevEv := 0, lastHand := s.now,
        clearAt := s.now, lateCtx := none,
        active := { x.active with ctx := stnDefaultCtx (s.station n), epoch := s.ttb.epoch, since := s.now },
        used := if x.used.contains (stnDefaultCtx (s.station n)) then x.used
          else x.used ++ [stnDefaultCtx (s.station n)] } := by
    simp only [Machine.delayMeasured, hmeasure, quiet, Bool.false_eq_true, if_false]
  obtain ⟨self, others⟩ := onlyStation_modStation hn fun x =>
      { x with
        measuring := none, pathDelay := d.toNat, curTag := 0, tagTaken := false,
        curCtx := stnDefaultCtx (s.station n), accIndex := 0, accStarts := [], prevEv := 0, lastHand := s.now,
        clearAt := s.now, lateCtx := none,
        active := { x.active with ctx := stnDefaultCtx (s.station n), epoch := s.ttb.epoch, since := s.now },
        used := if x.used.contains (stnDefaultCtx (s.station n)) then x.used
          else x.used ++ [stnDefaultCtx (s.station n)] }
  refine ⟨_, acts.trans (congrArg next ends), ?_, ?_, ?_, ?_, ?_, ?_, others, rfl, rfl⟩ <;> rw [self]
  · rfl
  · rfl

end Sys2Proof.Claims

section
open Sys2Proof Sys2Proof.Machine Sys2Proof.Claims

/-- Settles O23: an edge, a bank's end and a measured delay each write one station, read off its one update. -/
theorem stationCounting : Obligations.StationCounting := ⟨edgeCounts, tagSwitchesContext, deltaBanks, delayMeasured⟩
end
end

section
/-! PROOFS. O24: what a station hands over, its parking, failure, reset and rail (R34-R36, R88, R102, R104, R105). -/

namespace Sys2Proof.Machine

open Sys2Proof.Claims

/-! ### The end of a flush -/

/-- A station without its banks, its contexts and what it has on its link. -/
def bankless (x : Station) : Station :=
  { x with
    vacated := [], active := Bank.reset, curCtx := 0, used := [], lateCtx := none, link := [], flushInc := false }

theorem settleLate_bankless (x : Station) : bankless (settleLate x) = bankless x := by
  unfold settleLate
  split <;> rfl

theorem settleLate_flushInc (x : Station) : (settleLate x).flushInc = x.flushInc := by
  unfold settleLate
  split <;> rfl

theorem settleLate_link (x : Station) : (settleLate x).link = x.link := by
  unfold settleLate
  split <;> rfl

theorem settleLate_addressed (x : Station) : (settleLate x).addressed = x.addressed := by
  unfold settleLate
  split <;> rfl

theorem settleLate_deltas (x : Station) : (settleLate x).active.deltas = x.active.deltas := by
  unfold settleLate
  split <;> rfl

/-- The final flush of a station writes that station's banks, and what it could not flush the Signal Box. -/
theorem finalFlush_eq (n : Nat) (s : State) :
    ∃ u f, Within [.inbox] s u ∧ finalFlush n s = u.modStation n f ∧ ∀ x, bankless (f x) = bankless x := by
  simp only [finalFlush]
  split
  · exact ⟨s, _, .refl _ s, rfl, fun x => settleLate_bankless _⟩
  · exact ⟨_, _, .forEach (fun h => State.raise_within h) (.refl _ s), rfl, fun x => settleLate_bankless _⟩

/-- What the final flush leaves as it is. -/
theorem finalFlush_keeps {n : Nat} {s : State} (h : n < s.stn.length) :
    bankless ((finalFlush n s).station n) = bankless (s.station n) ∧
      (∀ m, m ≠ n → (finalFlush n s).station m = s.station m) ∧
      (finalFlush n s).stn.length = s.stn.length ∧ Within [.stn, .inbox] s (finalFlush n s) := by
  obtain ⟨u, f, rest, acts, keeps⟩ := finalFlush_eq n s
  have stn := rest.stn_eq
  have same : ∀ m, u.station m = s.station m := fun m => by rw [State.station, stn]; rfl
  have inRange : n < u.stn.length := stn ▸ h
  rw [acts]
  refine ⟨?_, fun m hm => ?_, ?_, State.modStation_within (rest.mono (by decide))⟩
  · rw [State.station_modStation_self u n f inRange, same]
    exact keeps _
  · rw [State.station_modStation_ne u f hm.symm, same]
  · rw [State.modStation_length, stn]

theorem endFlush_keeps {n : Nat} {s : State} (h : n < s.stn.length) :
    bankless ((endFlush n s).station n) = bankless (s.station n) ∧
      (∀ m, m ≠ n → (endFlush n s).station m = s.station m) ∧
      (endFlush n s).stn.length = s.stn.length ∧ Within [.stn, .inbox] s (endFlush n s) := by
  rw [endFlush]
  split
  · exact finalFlush_keeps h
  · exact ⟨rfl, fun _ _ => rfl, rfl, .refl _ s⟩

/-! ### An edge of a station that has not left the parked state -/

theorem countIn_st (ev : BitVec 512) (x : Station) : (countIn ev x).st = x.st := by
  simp only [countIn]

/-- Nothing of the station changes but what it notes of accumulator beats. -/
def SameRegions (n : Nat) (u v : State) : Prop :=
  (v.station n).active = (u.station n).active ∧ (v.station n).st = (u.station n).st ∧
    (v.station n).trace = (u.station n).trace ∧ (v.station n).op = (u.station n).op ∧
    (∀ m, m ≠ n → v.station m = u.station m) ∧ v.jct = u.jct ∧ v.stn.length = u.stn.length

theorem SameRegions.refl (n : Nat) (u : State) : SameRegions n u u := ⟨rfl, rfl, rfl, rfl, fun _ _ => rfl, rfl, rfl⟩

theorem modStation_sameRegions (n : Nat) (s : State) (f : Station → Station)
    (hf : ∀ x, (f x).active = x.active ∧ (f x).st = x.st ∧ (f x).trace = x.trace ∧ (f x).op = x.op) :
    SameRegions n s (s.modStation n f) := by
  obtain ⟨active, st, trace, op⟩ := hf (s.station n)
  have away : ∀ m, m ≠ n → (s.modStation n f).station m = s.station m :=
    fun m hm => State.station_modStation_ne s f hm.symm
  by_cases h : n < s.stn.length
  · have self := State.station_modStation_self s n f h
    exact ⟨self ▸ active, self ▸ st, self ▸ trace, self ▸ op, away, rfl, State.modStation_length s n f⟩
  · have self : (s.modStation n f).station n = s.station n := by simp [State.station_modStation, h]
    exact ⟨self ▸ rfl, self ▸ rfl, self ▸ rfl, self ▸ rfl, away, rfl, State.modStation_length s n f⟩

theorem forms_parked {s : State} {n : Nat} (h : (s.station n).st = .parked) (c : Nat) : forms s n c = false := by
  simp [forms, h]

theorem takesOperands_parked {s : State} {n : Nat} (h : (s.station n).st = .parked) : takesOperands s n = false := by
  simp [takesOperands, h]

theorem takeSnoop_parked {s : State} {n : Nat} (h : (s.station n).st = .parked) (stamp : Nat) (b : SnoopIn) :
    takeSnoop n stamp b s = s := by
  simp only [takeSnoop, forms_parked h, takesOperands_parked h, Bool.and_false, Bool.false_eq_true, if_false]
  split
  · rfl
  · split <;> rfl

theorem takeAcc_parked {s : State} {n : Nat} (h : (s.station n).st = .parked) (stamp : Nat) (d : BitVec 1024) :
    SameRegions n s (takeAcc n stamp d s) := by
  simp only [takeAcc]
  split
  · exact .refl n s
  · have noted := modStation_sameRegions n s (fun x =>
      { x with
        accIndex := x.accIndex + 1,
        accStarts := if (s.station n).accIndex = 0 then
          (s.station n).accStarts ++ [((s.station n).curCtx, stamp)] else (s.station n).accStarts })
      fun _ => ⟨rfl, rfl, rfl, rfl⟩
    rw [takesOperands_parked (noted.2.1.trans h), Bool.and_false, if_neg Bool.false_ne_true]
    exact noted

/-- The beats of an edge of a parked station are neither recorded nor kept as operands. -/
theorem parkedBeats {n : Nat} (s : State) (h : (s.station n).st = .parked) (stamp : Nat) (inp : StnInputs) :
    SameRegions n s (withSome inp.acc (takeAcc n stamp) (withSome inp.snoop (takeSnoop n stamp) s)) := by
  have snoop : withSome inp.snoop (takeSnoop n stamp) s = s := by
    cases inp.snoop with
    | none => rfl
    | some b => exact takeSnoop_parked h stamp b
  rw [snoop]
  cases inp.acc with
  | none => exact .refl n s
  | some d => exact takeAcc_parked h stamp d

/-- A counted edge of a parked station without a tag: the counts, the beats, and its notes. -/
theorem countedEdge_parked {s v : State} {n stamp : Nat} {inp : StnInputs} (h : (s.station n).st = .parked)
    (htag : inp.tag = none) (hcounts : ((counted_ (edgeEvents (s.station n) inp) n s).station n).st = .parked)
    (hv : withSome inp.acc (takeAcc n stamp) (withSome inp.snoop (takeSnoop n stamp)
      (counted_ (edgeEvents (s.station n) inp) n s)) = v) :
    countedEdge n stamp inp s = v.modStation n (edgeNotes (edgeEvents (s.station n) inp) stamp v.now inp) := by
  subst hv
  have asleep : ((s.station n).resumes && (s.station n).st == .running) = false := by simp [h]
  unfold countedEdge
  rw [asleep, if_neg Bool.false_ne_true, htag]
  extract_lets s0 ev t u c mask r
  have silent : forms u n c = false := forms_parked hcounts c
  have same : r = u := by
    dsimp only [r]
    rw [silent, Bool.and_false, if_neg Bool.false_ne_true]
  change (withSome inp.acc (takeAcc n stamp) (withSome inp.snoop (takeSnoop n stamp) r)).modStation n
    (edgeNotes ev stamp (withSome inp.acc (takeAcc n stamp) (withSome inp.snoop (takeSnoop n stamp) r)).now inp) = _
  rw [same]
  rfl

/-- A flush that is lost of a station with nothing but its active bank (R35). -/
theorem flushLost_single {s : State} {n : Nat} (hn : n < s.stn.length) (hbanks : (s.station n).vacated = []) :
    ∃ x, (flushLost n s).station n = x ∧ (flushLost n s).stn.length = s.stn.length ∧ x.flushInc = true ∧
      x.active.deltas = [] ∧
      (∀ e < 512, lostDeltas (s.station n).active.ctx (s.station n).active.epoch [e] ⊆ x.link) ∧
      x.addressed = (s.station n).addressed ∧
      (s.core = true → received s (occ 1 5 n (s.station n).active.ctx) ∈ (flushLost n s).sbx.inbox) := by
  obtain ⟨lost, hlost⟩ : ∃ lost : Station → Station, lost = fun x => settleLate { x with
      flushInc := true, vacated := [],
      link := x.link ++ ((s.station n).vacated ++ [(s.station n).active]).flatMap fun b =>
        lostDeltas b.ctx b.epoch allEvents ++ bankDeltas { b with deltas := [] } [],
      active := { x.active with deltas := [], lost := [] } } := ⟨_, rfl⟩
  have acts : flushLost n s = (s.raise 1 5 n (s.station n).active.ctx).modStation n lost := by
    rw [flushLost, hlost, hbanks]
    rfl
  have stn : (s.raise 1 5 n (s.station n).active.ctx).stn = s.stn := (State.raise_within (.refl [.inbox] s)).stn_eq
  have self : ((s.raise 1 5 n (s.station n).active.ctx).modStation n lost).station n = lost (s.station n) := by
    rw [State.station_modStation_self _ n lost (stn ▸ hn), State.station, stn]
    rfl
  rw [acts]
  refine ⟨_, self, by rw [State.modStation_length, stn], ?_, ?_, fun e he d hd => ?_, ?_, fun hcore => ?_⟩
  · simp only [hlost, settleLate_flushInc]
  · simp only [hlost, settleLate_deltas]
  · simp only [hlost, settleLate_link, hbanks, List.nil_append, List.flatMap_cons, List.flatMap_nil, List.append_nil]
    obtain rfl := List.mem_singleton.mp hd
    exact List.mem_append_right _ (List.mem_append_left _ (List.mem_map_of_mem (List.mem_range.mpr he)))
  · simp only [hlost, settleLate_addressed]
  · rw [State.raise_core hcore]
    exact List.mem_append_right _ (List.mem_singleton_self _)

theorem settleDrops_none {x : Station} (htrace : x.dropTrace = false) (hop : x.dropOp = false) : settleDrops x = x := by
  cases x
  simp_all [settleDrops]

end Sys2Proof.Machine

namespace Sys2Proof.Claims

open Sys2Proof.Machine

/-- After its flush an addressed station that is released begins to measure its delay. -/
theorem stnRstRelease_measures {s : State} {n : Nat} (hn : n < s.stn.length) (hrst : (s.station n).inReset = true)
    (haddr : (s.station n).addressed = true) :
    ∃ t, exec (.stnRstRelease n) s = .next t ∧ (t.station n).inReset = false ∧
      (t.station n).measuring = some (64, 0) ∧ (∀ m, m ≠ n → t.station m = s.station m) := by
  have acts : exec (.stnRstRelease n) s = .next ((endFlush n s).modStation n fun x =>
      { (if x.addressed then beginMeasure x else x) with inReset := false, lastEdge := s.now }) :=
    congrArg next (if_neg (by simp [hrst]))
  obtain ⟨flush, apart, len, -⟩ := endFlush_keeps hn
  obtain ⟨self, others⟩ := onlyStation_modStation (s := endFlush n s) (len ▸ hn) fun x =>
    { (if x.addressed then beginMeasure x else x) with inReset := false, lastEdge := s.now }
  have addressed : ((endFlush n s).station n).addressed = true := (congrArg Station.addressed flush).trans haddr
  rw [addressed, if_pos rfl] at self
  exact ⟨_, acts, congrArg Station.inReset self, congrArg Station.measuring self,
    fun m hm => (others m hm).trans (apart m hm)⟩

theorem stationHandsOver : StationHandsOver := by
  refine ⟨fun s n r q hcore hn hhands hroom htrace => ?_,
    fun s n hcore hn hhands hempty hdrops hdt hdo hmeas htime => ?_⟩
  · have acts : exec (.stationRecordHandover n .ok) s = .next (recordHandover n .ok s) := by
      have unfolded : exec (.stationRecordHandover n .ok) s = .next (when (s.core && handsOver s n &&
        decide ((s.jct.stnIn.getD n []).length < 16)) (recordHandover n .ok) s) := rfl
      rw [unfolded, hcore, hhands, decide_eq_true hroom]
      rfl
    have hand := onlyStation_modStation hn fun x =>
      { x with trace := q, tLc := max x.tLc r.ts, lastHand := s.now, eccCorr := x.eccCorr, eccUncorr := x.eccUncorr }
    have ends : recordHandover n .ok s = { s.modStation n (fun x =>
        { x with trace := q, tLc := max x.tLc r.ts, lastHand := s.now, eccCorr := x.eccCorr, eccUncorr := x.eccUncorr })
        with jct := { s.jct with stnIn := s.jct.stnIn.modify n fun l => l ++
          [{ r with trailer := if r.type = 4 then none else some (trailerWord s none r.ts) }] } } := by
      simp only [recordHandover, htrace]
      rfl
    exact ⟨_, acts.trans (congrArg next ends), hand, rfl, rfl, rfl⟩
  · have due : tokenIsDue s (s.station n) = true := by
      have late : (s.station n).lastHand + stnLcNs (s.station n) ≤ s.now := htime
      simp [tokenIsDue, hmeas, late]
    have none_ : dueLoss n (s.station n) = s.station n := by
      simp only [dueLoss, settleDrops_none hdt hdo, hdrops]
    let token := fun x : Station => { x with tLc := max x.tLc x.lastStamp, lastHand := s.now, tokenDue := false }
    have formed := onlyStation_modStation hn (dueLoss n)
    rw [none_] at formed
    have hn1 : n < (s.modStation n (dueLoss n)).stn.length := by simpa using hn
    have acts : exec (.lineClearToken n) s = .next ((s.modStation n (dueLoss n)).modStation n token) := by
      have unfolded : exec (.lineClearToken n) s = .next (when (s.core && handsOver s n) (lineClearToken n) s) := rfl
      rw [unfolded, hcore, hhands, Bool.and_self, when_true]
      simp only [lineClearToken, due, formed.1, hempty, hdrops]
      rfl
    have sent := onlyStation_modStation hn1 token
    rw [formed.1] at sent
    exact ⟨_, acts, onlyStation_trans formed sent⟩

theorem parking : Parking := by
  refine ⟨fun s n hcore hn haddr hrun hrst htime => ?_, fun s n stamp hcore hn hpark hvio hrst hfits hupper => ?_,
    fun s n stamp inp hcore hn haddr hvio hpark hrst hmeas hfits hbound hcount htag => ?_⟩
  · have running := stationsRun_of_core hcore
    have still : ¬ s.now < (s.station n).lastEdge + 2000 := Nat.not_lt.mpr htime
    let parks := fun x : Station => { x with st := .parked, parkCount := sat 16 (x.parkCount + 1) }
    have acts : exec (.stationPark n) s = .next (finalFlush n (s.modStation n parks)) := by
      have unfolded : exec (.stationPark n) s = .next (when s.stationsRun (stationPark n) s) := rfl
      rw [unfolded, running, when_true]
      simp [stationPark, haddr, hrst, still, hrun, parks]
    obtain ⟨self, others⟩ := onlyStation_modStation hn parks
    have hn1 : n < (s.modStation n parks).stn.length := by simpa using hn
    obtain ⟨flush, apart, -, rest⟩ := finalFlush_keeps hn1
    rw [self] at flush
    refine ⟨_, acts, congrArg Station.st flush, congrArg Station.parkCount flush,
      (congrArg Station.trace flush).trans rfl,
      fun m hm => (apart m hm).trans (others m hm), ?_⟩
    exact rest.jct_eq
  · have fits := hfits
    have acts : exec (.stationUnpark n stamp) s = .next (s.modStation n fun x =>
      { x with
        st := .running, resumes := true, prevEv := 0, quiet := 0, lastEdge := s.now,
        lastHand := s.now, clearAt := s.now, lastStamp := max x.lastStamp stamp,
        active := { x.active with epoch := s.ttb.epoch, since := s.now } }) := by
      have unfolded : exec (.stationUnpark n stamp) s = .next (when s.stationsRun (stationUnpark n stamp) s) := rfl
      rw [unfolded, stationsRun_of_core hcore, when_true]
      have guard : ((s.station n).st == .parked && !(s.station n).vioOff && !(s.station n).inReset &&
          stampFits s { s.station n with lastStamp := 0 } stamp && decide (s.ttb.upper ≤ stamp / 2 ^ 33) &&
          decide (stamp / 2 ^ 33 ≤ s.ttb.upper + 1)) = true := by
        rw [hpark, hvio, hrst, fits, hupper, decide_eq_true (Nat.le_refl _), decide_eq_true (Nat.le_succ _)]
        rfl
      exact congrArg next (if_pos guard)
    exact ⟨_, acts, onlyStation_modStation hn _⟩
  · obtain ⟨ev, hev⟩ : ∃ ev, ev = edgeEvents (s.station n) inp := ⟨_, rfl⟩
    have running := stationsRun_of_core hcore
    have run : countsRun s = true := by simp [countsRun, running, hbound]
    have counts := counted_of (ev := ev) (n := n) run hcount
    obtain ⟨self, others⟩ := onlyStation_modStation hn (countIn ev)
    have stays : ((s.modStation n (countIn ev)).station n).st = .parked := by rw [self, countIn_st, hpark]
    have same := parkedBeats (s.modStation n (countIn ev)) stays stamp inp
    generalize beats : withSome inp.acc (takeAcc n stamp) (withSome inp.snoop (takeSnoop n stamp)
      (s.modStation n (countIn ev))) = v at same
    have acts : exec (.stationEdge n stamp inp) s = .next (v.modStation n (edgeNotes ev stamp v.now inp)) := by
      have unfolded : exec (.stationEdge n stamp inp) s = .next (when s.stationsRun (stationEdge n stamp inp) s) := rfl
      have edge : stationEdge n stamp inp s = countedEdge n stamp inp s := by
        simp [stationEdge, haddr, hvio, hrst, hmeas, hfits]
      rw [unfolded, running, when_true, edge, countedEdge_parked (v := v) hpark htag
        (by rw [← hev, counts]; exact stays)
        (by rw [← hev, counts]; exact beats), ← hev]
    obtain ⟨active, st, trace, op, apart, jct, len⟩ := same
    have inRange : n < v.stn.length := by rw [len]; simpa using hn
    obtain ⟨notes, away⟩ := onlyStation_modStation inRange (edgeNotes ev stamp v.now inp)
    rw [← hev]
    refine ⟨_, acts, ?_, ?_, ?_, ?_, fun m hm => (away m hm).trans ((apart m hm).trans (others m hm)), jct⟩
    · simp only [notes, edgeNotes, active, self, countIn_active]
    · simp only [notes, edgeNotes, st, stays]
    · simp only [notes, edgeNotes, trace, self, countIn]
    · simp only [notes, edgeNotes, op, self, countIn]

theorem stationFails : StationFails := by
  intro s n hcore hn hhands hrun hempty htime hclock
  let failed := fun x : Station =>
    { x with st := .failed, trace := [], op := [], drops := none, dropTrace := false, dropOp := false }
  have core : (s.modStation n failed).core = true := hcore
  have acts : exec (.stationFail n) s = .next ((s.modStation n failed).raise 1 6 n 0 [(s.station n).curCtx]) := by
    have unfolded : exec (.stationFail n) s = .next (when s.core (stationFail n) s) := rfl
    have late : max (s.station n).lastHand (s.station n).clearAt + 16 * stnLcNs (s.station n) ≤ s.now := htime
    have recent : s.now < (s.station n).lastEdge + 2000 := hclock
    have running : ((s.station n).st == .running) = true := by rw [hrun]; rfl
    rw [unfolded, hcore, when_true, stationFail]
    rw [hhands, running, hempty, decide_eq_true late, decide_eq_true recent]
    rfl
  obtain ⟨self, others⟩ := onlyStation_modStation hn failed
  rw [State.raise_core core] at acts
  refine ⟨_, acts, (congrArg Station.st self).trans rfl, (congrArg Station.trace self).trans rfl, ?_, others, rfl⟩
  have gone : ((s.modStation n failed).station n).st = .failed := (congrArg Station.st self).trans rfl
  have out : inMerge (s.modStation n failed) n = false := by simp [inMerge, gone]
  exact out

theorem stationResetAndRail : StationResetAndRail := by
  refine ⟨fun s n hn hrst => ?_, fun s n hn hrst haddr => ?_, fun s n hn => ?_, fun s n hn hvio haddr => ?_,
    fun s n hrun hn haddr hrst hquiet hdeltas hbanks => ?_⟩
  · have acts : exec (.stnRstAssert n) s = .next (s.modStation n fun x =>
        { (if x.addressed && bankFree x && countsRun s then swapBank x.curCtx s.ttb.epoch s.now false x else x) with
          inReset := true, quiet := 0 }) := congrArg next (if_neg (by simp [hrst]))
    obtain ⟨self, others⟩ := onlyStation_modStation hn fun x =>
      { (if x.addressed && bankFree x && countsRun s then swapBank x.curCtx s.ttb.epoch s.now false x else x) with
        inReset := true, quiet := 0 }
    refine ⟨_, acts, congrArg Station.inReset self, ?_, (congrArg Station.seq self).trans ?_, others⟩
    · rw [asParked, congrArg Station.inReset self]
      simp
    · dsimp only
      split <;> rfl
  · obtain ⟨t, acts, release, seq, apart⟩ := stnRstRelease_measures hn hrst haddr
    exact ⟨t, acts, release, seq, apart⟩
  · obtain ⟨self, others⟩ := onlyStation_modStation hn fun x => { x with vioOff := true }
    refine ⟨_, rfl, ⟨self, others⟩, ?_⟩
    rw [asParked, self]
    simp
  · have acts : exec (.vioStnOn n) s = .next ((endFlush n s).modStation n fun x =>
        { (if x.addressed then beginMeasure x else x) with vioOff := false, lastEdge := s.now }) :=
      congrArg next (if_neg (by simp [hvio]))
    obtain ⟨flush, apart, len, -⟩ := endFlush_keeps hn
    obtain ⟨self, others⟩ := onlyStation_modStation (s := endFlush n s) (len ▸ hn) fun x =>
      { (if x.addressed then beginMeasure x else x) with vioOff := false, lastEdge := s.now }
    have addressed : ((endFlush n s).station n).addressed = true := (congrArg Station.addressed flush).trans haddr
    rw [addressed, if_pos rfl] at self
    have seq : (bankless ((endFlush n s).station n)).seq = (bankless (s.station n)).seq := congrArg Station.seq flush
    exact ⟨_, acts, congrArg Station.vioOff self, congrArg Station.measuring self, congrArg Station.resumes self,
      congrArg Station.lastEdge self, (congrArg Station.seq self).trans seq,
      fun m hm => (others m hm).trans (apart m hm)⟩
  · have acts : exec (.stnRstRelease n) s = .next ((endFlush n s).modStation n fun x =>
        { (if x.addressed then beginMeasure x else x) with inReset := false, lastEdge := s.now }) :=
      congrArg next (if_neg (by simp [hrst]))
    have flushes : endFlush n s = flushLost n s := by
      have loud : ¬ (1024 ≤ (s.station n).quiet || ((s.station n).vacated ++ [(s.station n).active]).all
          (·.deltas.isEmpty)) = true := by
        simp [hbanks, hdeltas, hquiet]
      rw [endFlush, hrun, haddr, Bool.and_self, if_pos rfl, finalFlush]
      exact if_neg loud
    obtain ⟨x, stn, len, inc, deltas, link, addressed, inbox⟩ := flushLost_single hn hbanks
    obtain ⟨self, -⟩ := onlyStation_modStation (s := flushLost n s) (len ▸ hn) fun x =>
      { (if x.addressed then beginMeasure x else x) with inReset := false, lastEdge := s.now }
    rw [stn] at self
    rw [flushes] at acts
    have known : x.addressed = true := addressed.trans haddr
    rw [known, if_pos rfl] at self
    refine ⟨_, acts, (congrArg Station.flushInc self).trans inc,
      (congrArg (fun x : Station => x.active.deltas) self).trans deltas, fun e he d hd => ?_, ?_⟩
    · rw [congrArg Station.link self]
      exact link e he hd
    · have same : ((flushLost n s).modStation n fun x =>
        { (if x.addressed then beginMeasure x else x) with inReset := false, lastEdge := s.now }).sbx.inbox =
          (flushLost n s).sbx.inbox := rfl
      rw [same]
      cases hc : s.core with
      | true => exact ⟨received s (occ 1 5 n (s.station n).active.ctx), inbox hc, rfl⟩
      | false => exact ⟨_, List.mem_singleton_self _, rfl⟩

end Sys2Proof.Claims
end

section
open Sys2Proof Sys2Proof.Machine Sys2Proof.Claims

/-- Settles O24: the final flush leaves all of a station but its banks, and a parked station's edge counts alone. -/
theorem stationUpsets : Obligations.StationUpsets := ⟨stationHandsOver, parking, stationFails, stationResetAndRail⟩
end

section
/-! PROOFS. What the functions of the model may write. -/

namespace Sys2Proof.Machine

set_option Elab.async false

open Within

variable {l : List Place} {s t u : State}

theorem State.markFault_within (h : Within l s t) (hl : [.stats] ⊆ l := by decide) :
    Within l s (State.markFault t a1) :=
  .lift hl h fun h => .ite (State.modStat_within h) h

theorem enterFatal_within (h : Within l s t) (hl : [.stats, .dsp, .sbx, .inbox, .tkl] ⊆ l := by decide) :
    Within l s (enterFatal t) :=
  .lift hl h fun h => refresh_within (State.markFault_within (.ite (.upd (.upd h)) (.upd h)))

theorem fetchChunk_within (h : Within l s t) (hl : [.mem] ⊆ l := by decide) :
    Within l s (fetchChunk a1 a2 a3 a4 a5 a6 t) :=
  .lift hl h fun h => addJob_within h

theorem fetchChunks_within (h : Within l s t) (hl : [.mem] ⊆ l := by decide) :
    Within l s (fetchChunks a1 a2 a3 a4 a5 a6 t) :=
  .lift hl h fun h => .forEach (fun h1 => fetchChunk_within h1) h

theorem modFrameWin_within (h : Within l s t) (hl : [.wtp] ⊆ l := by decide) :
    Within l s (modFrameWin a1 a2 t) :=
  .lift hl h fun h => .upd h

theorem withdrawSample_within (h : Within l s t) (hl : [.stats, .recs, .wtp, .items] ⊆ l := by decide) :
    Within l s (withdrawSample a1 a2 t) :=
  .lift hl h fun h => State.unowe_within (modItem_within (State.modStat_within (.upd h)))

theorem withdrawAll_within (h : Within l s t) (hl : [.stats, .recs, .wtp, .items] ⊆ l := by decide) :
    Within l s (withdrawAll a1 t) :=
  .lift hl h fun h => .forEach (fun h1 => withdrawSample_within h1) h

theorem addItem_within (h : Within l s t) (hl : [.stats, .recs, .wtp, .items] ⊆ l := by decide) :
    Within l s (addItem a1 a2 a3 t) := by
  refine .lift hl h fun h => ?_
  unfold addItem
  split
  · exact h
  · exact .ite h (.ite (withdrawAll_within (State.modStat_within (.upd h))) (State.modStat_within (.upd h)))

theorem openWindow_within (h : Within l s t) (hl : [.stats, .recs, .wtp, .items] ⊆ l := by decide) :
    Within l s (openWindow a1 t) := by
  refine .lift hl h fun h => ?_
  unfold openWindow
  extract_lets x1 x2 x3 s1
  have h1' : Within _ t s1 := modFrameWin_within h
  split
  · exact .ite h1' (.forEach (fun h1 => addItem_within h1) h1')
  · exact h1'

theorem askChunks_within (h : Within l s t) (hl : [.items, .mem] ⊆ l := by decide) :
    Within l s (askChunks a1 t) :=
  .lift hl h fun h => fetchChunks_within (modItem_within h)

theorem fetchNext_within (h : Within l s t) (hl : [.items, .mem] ⊆ l := by decide) :
    Within l s (fetchNext a1 t) := by
  refine .lift hl h fun h => ?_
  unfold fetchNext
  split
  · exact h
  · exact .ite (askChunks_within h) h

theorem fetchReady_within (h : Within l s t) (hl : [.items, .mem] ⊆ l := by decide) :
    Within l s (fetchReady a1 t) :=
  .lift hl h fun h => .forEach (fun h1 => fetchNext_within h1) h

theorem leaveTrack_within (h : Within l s t) (hl : [.trk, .items, .mem] ⊆ l := by decide) :
    Within l s (leaveTrack a1 t) :=
  .lift hl h fun h => fetchReady_within (dropItem_within h)

theorem settleItem_within (h : Within l s t) (hl : [.recs, .trk, .wtp, .items, .wbr, .inbox, .mem] ⊆ l := by decide) :
    Within l s (settleItem a1 t) := by
  refine .lift hl h fun h => ?_
  unfold settleItem
  split
  · exact .ite (settleCoverage_within (leaveTrack_within h)) h
  · exact h

theorem readyItem_within (h : Within l s t) (hl : [.stats, .recs, .trk, .wtp, .items, .wbr, .inbox, .mem] ⊆ l := by
    decide) :
    Within l s (readyItem a1 a2 t) := by
  refine .lift hl h fun h => ?_
  unfold readyItem
  split
  · exact h
  · exact fetchReady_within (settleItem_within (.forEach (fun h1 => by
    split
    · exact State.emitVrd_within h1
    · exact .ite h1 (State.owe_within h1)) (noteDue_within (modItem_within h))))

theorem readyItems'_within (h : Within l s t) (hl : [.stats, .recs, .trk, .wtp, .items, .wbr, .inbox, .mem] ⊆ l :=
    by decide) :
    Within l s (readyItems' a1 t) :=
  .lift hl h fun h => .forEach (fun h1 => readyItem_within h1) h

theorem arriveIn_within (h : Within l s t) (hl : [.stats, .recs, .trk, .wtp, .items, .wbr, .inbox, .mem] ⊆ l := by
    decide) :
    Within l s (arriveIn a1 a2 a3 a4 a5 a6 a7 t) :=
  .lift hl h fun h => readyItems'_within (.forEach (fun h1 => .forEach (fun h2 => modItem_within h2) h1)
      (modFrameWin_within h))

theorem checkerBeat_within (h : Within l s t) (hl : [.stats, .recs, .trk, .wtp, .items, .wbr, .inbox, .mem] ⊆ l :=
    by decide) :
    Within l s (checkerBeat a1 a2 a3 a4 a5 a6 t) := by
  refine .lift hl h fun h => ?_
  unfold checkerBeat
  exact .forEach (fun h1 => by
    split
    · exact arriveIn_within h1
    · exact h1) h

theorem tapIn_within (h : Within l s t) (hl : [.stats, .recs, .trk, .wtp, .items, .wbr, .inbox, .mem] ⊆ l := by
    decide) :
    Within l s (tapIn a1 a2 a3 a4 a5 a6 a7 t) :=
  .lift hl h fun h => readyItems'_within (.forEach (fun h1 => .ite (modItem_within (modItem_within h1))
      (modItem_within h1)) (modFrameWin_within h))

theorem tapBeat_within (h : Within l s t) (hl : [.stats, .recs, .trk, .wtp, .items, .wbr, .inbox, .mem] ⊆ l := by
    decide) :
    Within l s (tapBeat a1 a2 a3 a4 a5 a6 t) := by
  refine .lift hl h fun h => ?_
  unfold tapBeat
  exact .forEach (fun h1 => by
    split
    · exact tapIn_within h1
    · exact h1) h

theorem windowRecord_within (h : Within l s t) (hl : [.stats, .recs, .wtp, .items, .slots, .inbox] ⊆ l := by decide) :
    Within l s (windowRecord a1 a2 a3 a4 a5 a6 t) := by
  refine .lift hl h fun h => ?_
  unfold windowRecord
  split
  · exact h
  · exact State.emitVrd_within (noteDue_within (noteCommit_within (State.modStat_within h)))

theorem closeWindow_within (h : Within l s t) (hl : [.stats, .recs, .trk, .wtp, .items, .slots, .wbr, .inbox, .mem]
    ⊆ l := by decide) :
    Within l s (closeWindow a1 a2 t) := by
  refine .lift hl h fun h => ?_
  unfold closeWindow
  exact settleCoverage_within (by
    split
    · exact .forEach (fun h1 => windowRecord_within h1) (.forEach (fun h1 => windowRecord_within h1) (.forEach (fun
        h1 => readyItem_within (modItem_within h1)) (modFrameWin_within h)))
    · exact .forEach (fun h1 => readyItem_within (modItem_within h1)) (modFrameWin_within h))

theorem actEcc_within (h : Within l s t) (hl : [.trk, .inbox] ⊆ l := by decide) :
    Within l s (actEcc a1 a2 t) := by
  refine .lift hl h fun h => ?_
  unfold actEcc
  split
  · exact h
  · exact State.raise_within (State.modTrack_within h)
  · exact State.raise_within (State.modTrack_within h)

theorem pilotBeat_within (h : Within l s t) (hl : [.frames] ⊆ l := by decide) :
    Within l s (pilotBeat a1 a2 a3 a4 a5 a6 t) :=
  .lift hl h fun h => .upd h

theorem pilotReadyTime_within (h : Within l s t) (hl : [.recs, .plt, .frames, .models, .inbox] ⊆ l := by decide) :
    Within l s (pilotReadyTime a1 t) := by
  refine .lift hl h fun h => ?_
  unfold pilotReadyTime
  split
  · exact h
  · exact .ite h (.ite (modFrame_within h) (skipFrame_within h))

theorem pilotFrameStart_within (h : Within l s t) (hl : [.trk, .frames, .mem] ⊆ l := by decide) :
    Within l s (pilotFrameStart a1 t) := by
  refine .lift hl h fun h => ?_
  unfold pilotFrameStart
  split
  · exact h
  · split
    · exact h
    · exact .ite h (fetchChunks_within (State.modTrack_within (modFrame_within h)))

theorem noteFrameClips_within (h : Within l s t) (hl : [.trk] ⊆ l := by decide) :
    Within l s (noteFrameClips a1 a2 t) := by
  refine .lift hl h fun h => ?_
  unfold noteFrameClips
  split
  · exact noteClips_within h
  · exact h

theorem judgeFrame_within (h : Within l s t) (hl : [.recs, .plt, .frames, .inbox] ⊆ l := by decide) :
    Within l s (judgeFrame a1 a2 a3 t) := by
  refine .lift hl h fun h => ?_
  unfold judgeFrame
  extract_lets x1 x2 x3 x4 s1 x5 s2 s3
  have h1' : Within _ t s1 := .upd h
  have h2' : Within _ t s2 := .upd h1'
  have h3' : Within _ t s3 := sendPlt_within h2'
  split
  · exact pilotEvent_within h3'
  · exact .ite (pilotEvent_within (sendPlt_within (modPStream_within h1'))) (pilotEvent_within (.upd
      (sendPlt_within (modPStream_within h1'))))

theorem pilotFrameJudge_within (h : Within l s t) (hl : [.recs, .plt, .frames, .inbox] ⊆ l := by decide) :
    Within l s (pilotFrameJudge a1 t) := by
  refine .lift hl h fun h => ?_
  unfold pilotFrameJudge
  split
  · exact h
  · split
    · exact h
    · exact .ite (judgeFrame_within h) (.ite (judgeFrame_within h) h)

theorem releasePilot_within (h : Within l s t) (hl : [.trk] ⊆ l := by decide) :
    Within l s (releasePilot a1 t) := by
  refine .lift hl h fun h => ?_
  unfold releasePilot
  split
  · exact State.modTrack_within h
  · exact h

theorem pilotOverrun_within (h : Within l s t) (hl : [.recs, .trk, .plt, .frames, .models, .inbox] ⊆ l := by decide) :
    Within l s (pilotOverrun a1 t) := by
  refine .lift hl h fun h => ?_
  unfold pilotOverrun
  split
  · exact h
  · exact skipFrame_within (State.raise_within (.upd (releasePilot_within h)))

theorem makeRoom_within (h : Within l s t) (hl : [.items] ⊆ l := by decide) :
    Within l s (makeRoom a1 a2 t) :=
  .lift hl h fun h => .upd h

theorem startItem_within (h : Within l s t) (hl : [.trk, .items, .mem] ⊆ l := by decide) :
    Within l s (startItem a1 a2 t) :=
  .lift hl h fun h => .ite (modItem_within (State.modTrack_within h)) (modItem_within (.ite (State.modTrack_within
      h) (askChunks_within (makeRoom_within (State.modTrack_within h)))))

theorem workItemStart_within (h : Within l s t) (hl : [.trk, .items, .mem] ⊆ l := by decide) :
    Within l s (workItemStart a1 t) := by
  refine .lift hl h fun h => ?_
  unfold workItemStart
  exact .ite h (by
    split
    · exact startItem_within h
    · exact h)

theorem discardChunk_within (h : Within l s t) (hl : [.trk, .inbox] ⊆ l := by decide) :
    Within l s (discardChunk a1 a2 a3 t) :=
  .lift hl h fun h => State.raise_within (State.modTrack_within h)

theorem withdrawLayer_within (h : Within l s t) (hl : [.stats, .recs, .trk, .wtp, .items, .wbr, .inbox, .mem] ⊆ l
    := by decide) :
    Within l s (withdrawLayer a1 a2 t) :=
  .lift hl h fun h => State.containing_within (fun h1 => .forEach (fun h2 => settleItem_within (withdrawAll_within
      h2)) h1) (.upd h)

theorem wstCorrected_within (h : Within l s t) (hl : [.trk, .inbox] ⊆ l := by decide) :
    Within l s (wstCorrected a1 t) :=
  .lift hl h fun h => State.raise_within (State.modTrack_within h)

theorem wstUncorrectable_within (h : Within l s t) (hl : [.trk] ⊆ l := by decide) :
    Within l s (wstUncorrectable a1 a2 t) :=
  .lift hl h fun h => State.modTrack_within h

theorem noteChunk_within (h : Within l s t) (hl : [.trk, .inbox] ⊆ l := by decide) :
    Within l s (noteChunk a1 a2 a3 a4 a5 t) := by
  refine .lift hl h fun h => ?_
  unfold noteChunk
  dsimp only
  split
  · exact State.modTrack_within (by
    split
    · exact h
    · exact wstCorrected_within h
    · exact wstUncorrectable_within h)
  · exact wstCorrected_within (State.modTrack_within (by
    split
    · exact h
    · exact wstCorrected_within h
    · exact wstUncorrectable_within h))
  · exact discardChunk_within (State.modTrack_within (by
    split
    · exact h
    · exact wstCorrected_within h
    · exact wstUncorrectable_within h))

theorem itemChunk_within (h : Within l s t) (hl : [.stats, .recs, .trk, .wtp, .items, .wbr, .inbox, .mem] ⊆ l := by
    decide) :
    Within l s (itemChunk a1 a2 a3 a4 a5 t) := by
  refine .lift hl h fun h => ?_
  unfold itemChunk
  dsimp only
  split
  · exact modItem_within (modItem_within (noteChunk_within h))
  · exact fetchChunk_within (modItem_within (noteChunk_within h))
  · exact withdrawLayer_within (modItem_within (noteChunk_within h))

theorem frameChunk_within (h : Within l s t) (hl : [.recs, .trk, .plt, .frames, .models, .inbox, .mem] ⊆ l := by
    decide) :
    Within l s (frameChunk a1 a2 a3 a4 a5 a6 t) := by
  refine .lift hl h fun h => ?_
  unfold frameChunk
  dsimp only
  split
  · exact modFrame_within (modFrame_within (noteChunk_within h))
  · exact fetchChunk_within (modFrame_within (noteChunk_within h))
  · exact skipFrame_within (releasePilot_within (modFrame_within (noteChunk_within h)))

theorem nextFrameChunk_within (h : Within l s t) (hl : [.recs, .trk, .plt, .frames, .models, .inbox, .mem] ⊆ l :=
    by decide) :
    Within l s (nextFrameChunk a1 a2 t) := by
  refine .lift hl h fun h => ?_
  unfold nextFrameChunk
  split
  · split
    · exact frameChunk_within h
    · exact h
  · exact h

theorem chunkDecrypt_within (h : Within l s t) (hl : [.stats, .recs, .trk, .wtp, .items, .plt, .frames, .models,
    .wbr, .inbox, .mem] ⊆ l := by decide) :
    Within l s (chunkDecrypt a1 a2 t) := by
  refine .lift hl h fun h => ?_
  unfold chunkDecrypt
  split
  · split
    · exact itemChunk_within h
    · exact h
  · exact nextFrameChunk_within h

theorem passFailed_within (h : Within l s t) (hl : [.stats, .jct, .recs, .trk, .wtp, .items, .slots, .plt, .frames,
    .models, .wbr, .inbox] ⊆ l := by decide) :
    Within l s (passFailed a1 a2 a3 a4 t) :=
  .lift hl h fun h => .ite (withdrawTrack_within h) (.ite (withdrawTrack_within h) (State.modTrack_within h))

theorem passAgreed_within (h : Within l s t) (hl : [.trk, .inbox] ⊆ l := by decide) :
    Within l s (passAgreed a1 a2 t) :=
  .lift hl h fun h => .ite (State.raise_within (State.modTrack_within h)) h

theorem spend_within (h : Within l s t) (hl : [.trk] ⊆ l := by decide) :
    Within l s (spend a1 a2 t).1 :=
  .lift hl h fun h => State.modTrack_within h

theorem passDone_within (h : Within l s t) (hl : [.stats, .recs, .trk, .wtp, .items, .wbr, .inbox, .mem] ⊆ l := by
    decide) :
    Within l s (passDone a1 a2 a3 a4 t) := by
  refine .lift hl h fun h => ?_
  unfold passDone
  split
  · exact .ite (settleItem_within (State.containing_within (fun h1 => withdrawSample_within h1) (noteClips_within
      (modItem_within (actEcc_within (State.modTrack_within (passAgreed_within h))))))) (modItem_within
      (actEcc_within (State.modTrack_within (passAgreed_within h))))
  · exact modItem_within (actEcc_within (State.modTrack_within (passAgreed_within h)))

theorem itemPass_within (h : Within l s t) (hl : [.stats, .jct, .recs, .trk, .wtp, .items, .slots, .plt, .frames,
    .models, .wbr, .inbox, .mem] ⊆ l := by decide) :
    Within l s (itemPass a1 a2 a3 t) :=
  .lift hl h fun h => .ite h (.ite (spend_within h) (.ite (passFailed_within (spend_within h)) (passDone_within
      (spend_within h))))

theorem frameSteps_within (h : Within l s t) (hl : [.trk, .frames, .inbox] ⊆ l := by decide) :
    Within l s (frameSteps a1 a2 a3 t) :=
  .lift hl h fun h => .ite (releasePilot_within (modFrame_within (noteFrameClips_within (modFrame_within
      (State.modTrack_within (passAgreed_within h)))))) (modFrame_within (State.modTrack_within (passAgreed_within
      h)))

theorem frameFailed_within (h : Within l s t) (hl : [.stats, .jct, .recs, .trk, .wtp, .items, .slots, .plt,
    .frames, .models, .wbr, .inbox] ⊆ l := by decide) :
    Within l s (frameFailed a1 a2 t) :=
  .lift hl h fun h => passFailed_within (State.modTrack_within h)

theorem framePass_within (h : Within l s t) (hl : [.stats, .jct, .recs, .trk, .wtp, .items, .slots, .plt, .frames,
    .models, .wbr, .inbox] ⊆ l := by decide) :
    Within l s (framePass a1 a2 a3 t) :=
  .lift hl h fun h => .ite h (.ite h (.ite (frameFailed_within h) (.ite (skipFrame_within (releasePilot_within
      (actEcc_within h))) (frameSteps_within (actEcc_within h)))))

theorem trackPass_within (h : Within l s t) (hl : [.stats, .jct, .recs, .trk, .wtp, .items, .slots, .plt, .frames,
    .models, .wbr, .inbox, .mem] ⊆ l := by decide) :
    Within l s (trackPass a1 a2 t) := by
  refine .lift hl h fun h => ?_
  unfold trackPass
  exact .ite h (by
    split
    · exact itemPass_within h
    · exact .withSome (fun h1 => framePass_within h1) h)

theorem loadFailed_within (h : Within l s t) (hl : [.desc, .wins] ⊆ l := by decide) :
    Within l s (loadFailed a1 a2 a3 t) :=
  .lift hl h fun h => State.finish_within h

theorem forgetPlan_within (h : Within l s t) (hl : [.wtp] ⊆ l := by decide) :
    Within l s (forgetPlan a1 t) :=
  .lift hl h fun h => .upd h

theorem planRead_within (h : Within l s t) (hl : [.desc, .wtp, .slots, .wins] ⊆ l := by decide) :
    Within l s (planRead a1 a2 a3 t) := by
  refine .lift hl h fun h => ?_
  unfold planRead
  exact .ite (State.finish_within h) (by
    split
    · exact .ite (State.finish_within (modPlanSlot_within (forgetPlan_within h))) (State.finish_within h)
    · exact loadFailed_within h)

theorem modMeas_within (h : Within l s t) (hl : [.wbr] ⊆ l := by decide) :
    Within l s (modMeas a1 a2 a3 t) :=
  .lift hl h fun h => .upd h

theorem lateBeat_within (h : Within l s t) (hl : [.recs, .wbr, .inbox] ⊆ l := by decide) :
    Within l s (lateBeat a1 a2 a3 a4 t) :=
  .lift hl h fun h => State.raise_within (.upd h)

theorem wbrBeat_within (h : Within l s t) (hl : [.recs, .wbr, .inbox] ⊆ l := by decide) :
    Within l s (wbrBeat a1 a2 a3 a4 a5 a6 t) := by
  refine .lift hl h fun h => ?_
  unfold wbrBeat
  dsimp only
  split
  · exact h
  · exact .ite (lateBeat_within h) (by
    split <;> exact modMeas_within h)

theorem routeBeat_within (h : Within l s t) (hl : [.stats, .recs, .trk, .wtp, .items, .frames, .wbr, .inbox, .mem]
    ⊆ l := by decide) :
    Within l s (routeBeat a1 a2 a3 a4 a5 a6 a7 a8 a9 a10 t) :=
  .lift hl h fun h => .ite (pilotBeat_within (.ite (wbrBeat_within (.ite (checkerBeat_within h) h)) (.ite
      (checkerBeat_within h) h))) (.ite (wbrBeat_within (.ite (checkerBeat_within h) h)) (.ite (checkerBeat_within
      h) h))

theorem routeItem_within (h : Within l s t) (hl : [.stats, .recs, .trk, .wtp, .items, .frames, .wbr, .inbox, .mem]
    ⊆ l := by decide) :
    Within l s (routeItem a1 a2 t) := by
  refine .lift hl h fun h => ?_
  unfold routeItem
  split
  · exact routeBeat_within h
  · exact tapBeat_within h
  · exact .forEach (fun h1 => .ite (tapBeat_within h1) (routeBeat_within h1)) h

end Sys2Proof.Machine
end

section
/-! PROOFS. What the functions of the model may write. -/

namespace Sys2Proof.Machine

set_option Elab.async false

open Within

variable {l : List Place} {s t u : State}

theorem State.startLong_within (h : Within l s t) (hl : [.wins] ⊆ l := by decide) :
    Within l s (State.startLong t a1) :=
  .lift hl h fun h => .ite h (State.modWin_within h)

theorem emitFlt_within (h : Within l s t) (hl : [.recs, .inbox] ⊆ l := by decide) :
    Within l s (emitFlt a1 a2 a3 a4 t) :=
  .lift hl h fun h => .ite (State.emit_within h) h

theorem State.setRec_within (h : Within l s t) (hl : [.sbx] ⊆ l := by decide) :
    Within l s (State.setRec t a1 a2) :=
  .lift hl h fun h => .upd h

theorem noteCoincident_within (h : Within l s t) (hl : [.recs, .sbx, .inbox] ⊆ l := by decide) :
    Within l s (noteCoincident a1 a2 a3 t) :=
  .lift hl h fun h => .ite (emitFlt_within (.upd h)) h

theorem merge_within (h : Within l s t) (hl : [.recs, .sbx, .inbox] ⊆ l := by decide) :
    Within l s (merge a1 a2 a3 a4 t) := by
  refine .lift hl h fun h => ?_
  unfold merge
  extract_lets x1 x2 x3 s1 x4 s2
  have h1' : Within _ t s1 := State.setRec_within h
  have h2' : Within _ t s2 := .upd h1'
  exact noteCoincident_within h2'

theorem newRecord_within (h : Within l s t) (hl : [.recs, .sbx, .inbox] ⊆ l := by decide) :
    Within l s (newRecord a1 a2 a3 t) :=
  .lift hl h fun h => emitFlt_within (State.setRec_within h)

theorem placeNew_within (h : Within l s t) (hl : [.recs, .sbx, .inbox] ⊆ l := by decide) :
    Within l s (placeNew a1 a2 t).1 := by
  refine .lift hl h fun h => ?_
  unfold placeNew
  dsimp only
  split
  · exact newRecord_within h
  · split
    · exact newRecord_within (.upd h)
    · exact merge_within h

theorem stopItem_within (h : Within l s t) (hl : [.stats, .recs, .trk, .wtp, .items, .slots, .wbr, .inbox] ⊆ l :=
    by decide) :
    Within l s (stopItem a1 t) :=
  .lift hl h fun h => .ite (.forEach (fun h1 => loseSample_within h1) h) (abandonItem_within h)

theorem stopFrame_within (h : Within l s t) (hl : [.recs, .trk, .plt, .frames, .models, .inbox] ⊆ l := by decide) :
    Within l s (stopFrame a1 t) :=
  .lift hl h fun h => skipFrame_within (releasePilot_within h)

theorem stopChecking_within (h : Within l s t) (hl : [.stats, .recs, .trk, .wtp, .items, .slots, .plt, .frames,
    .models, .wbr, .inbox] ⊆ l := by decide) :
    Within l s (stopChecking t) :=
  .lift hl h fun h => settleCoverage_within (.forEach (fun h1 => stopFrame_within h1) (.forEach (fun h1 =>
      stopItem_within h1) h))

theorem sbxReadrec_within (h : Within l s t) (hl : [.desc, .wins, .mem] ⊆ l := by decide) :
    Within l s (sbxReadrec a1 a2 t) :=
  .lift hl h fun h => .ite (State.complete_within h) (addJob_within (State.startLong_within h))

theorem injectContain_within (h : Within l s t) (hl : [.stats, .jct, .recs, .trk, .wtp, .items, .slots, .plt,
    .frames, .models, .wbr, .inbox] ⊆ l := by decide) :
    Within l s (injectContain a1 t) :=
  .lift hl h fun h => .ite (State.containing_within (fun h1 => removeTrack_within h1) h) h

theorem forceSafe_within (h : Within l s t) (hl : [.stats, .recs, .sbx, .inbox] ⊆ l := by decide) :
    Within l s (forceSafe t) :=
  .lift hl h fun h => .ite h (.ite (refresh_within (.upd h)) (refresh_within (placeNew_within
      (State.markFault_within (.upd h)))))

end Sys2Proof.Machine
end

section
/-! PROOFS. O26: operand beats, the merge order and overdue internal records (R97, R110, R111, R113, R117). -/

namespace Sys2Proof.Machine

open Sys2Proof.Claims

/-! ### The lowest frontier of the merge -/

/-- A source of the merge, with its frontier and the record at its head. -/
abbrev Source := Nat × (Nat × Nat) × Option Rec

theorem keyLt_iff (a b : Nat × Nat) : keyLt a b = true ↔ a.1 < b.1 ∨ (a.1 = b.1 ∧ a.2 < b.2) := by
  simp [keyLt]

theorem keyLt_irrefl (a : Nat × Nat) : keyLt a a = false := by
  simp [keyLt]

/-- No frontier lies below the lowest one. -/
theorem lowest_le {l : List Source} {x : Source} (h : lowest l = some x) :
    x ∈ l ∧ ∀ y ∈ l, keyLt y.2.1 x.2.1 = false := by
  induction l generalizing x with
  | nil => exact absurd h (by simp [lowest])
  | cons a r ih =>
    simp only [lowest] at h
    cases hr : lowest r with
    | none =>
      rw [hr] at h
      obtain rfl := Option.some.inj h
      have empty : r = [] := by
        cases r with
        | nil => rfl
        | cons b q =>
          simp only [lowest] at hr
          split at hr <;> [skip; split at hr] <;> exact absurd hr (Option.some_ne_none _)
      subst empty
      refine ⟨List.mem_singleton_self _, fun y hy => ?_⟩
      obtain rfl := List.mem_singleton.mp hy
      exact keyLt_irrefl _
    | some z =>
      rw [hr] at h
      obtain ⟨hz, least⟩ := ih hr
      dsimp only at h
      split at h
      next below =>
        obtain rfl := Option.some.inj h
        refine ⟨List.mem_cons_of_mem _ hz, fun y hy => ?_⟩
        rcases List.mem_cons.mp hy with rfl | hy
        · rw [keyLt_iff] at below
          rw [Bool.eq_false_iff, Ne, keyLt_iff]
          omega
        · exact least y hy
      next notBelow =>
        obtain rfl := Option.some.inj h
        refine ⟨List.mem_cons_self, fun y hy => ?_⟩
        rcases List.mem_cons.mp hy with rfl | hy
        · exact keyLt_irrefl _
        · have low := least y hy
          rw [Bool.eq_false_iff, Ne, keyLt_iff] at low ⊢
          rw [keyLt_iff] at notBelow
          omega

theorem lowest_isSome {l : List Source} {x : Source} (h : x ∈ l) : ∃ y, lowest l = some y := by
  cases l with
  | nil => exact absurd h (by simp)
  | cons a r =>
    simp only [lowest]
    split
    · exact ⟨a, rfl⟩
    · split
      · exact ⟨_, rfl⟩
      · exact ⟨a, rfl⟩

/-! ### What the table changes leave of the Marshalling Yard -/

/-- The records that the Marshalling Yard holds are as before. -/
def SameInq (s t : State) : Prop := t.myd.inq = s.myd.inq

theorem SameInq.of_myd {s t : State} (h : t.myd = s.myd) : SameInq s t := congrArg Yard.inq h

theorem SameInq.trans {s t u : State} (h : SameInq s t) (g : SameInq t u) : SameInq s u := Eq.trans g h

theorem SameInq.forEach {α : Type} (r : List α) (f : α → State → State) (hf : ∀ a x, SameInq x (f a x)) (s : State) :
    SameInq s (forEach r f s) :=
  forEach_keeps (SameInq s) _ _ _ (.of_myd rfl) fun a x h => h.trans (hf a x)

theorem dropSession_sameInq (o : Nat) (s : State) : SameInq s (dropSession o s) := by
  unfold dropSession
  extract_lets x d open_ waiting s1 s2 close yard s3 cut started exp s4 s5
  have cleared : SameInq s s3 := rfl
  have discarded : SameInq s3 s4 := .of_myd (discardRest_within (.refl _ _) (List.Subset.refl _)).myd_eq
  have told : SameInq s4 s5 :=
    .of_myd (Within.withSome (l := [.desc, .wins]) (fun h => State.finish_within h) (.refl _ s4)).myd_eq
  exact cleared.trans (discarded.trans told)

theorem endSession_sameInq (o cause : Nat) (s : State) : SameInq s (endSession o cause s) := by
  unfold endSession
  have dropped := dropSession_sameInq o s
  split
  · split <;> exact dropped
  · exact .of_myd rfl

theorem endSiding_sameInq (sid : Nat) (s : State) : SameInq s (endSiding sid s) := by
  refine .forEach _ _ (fun o x => ?_) s
  split
  · exact endSession_sameInq o 1 x
  · exact .of_myd rfl

theorem freeSiding_sameInq (sid : Nat) (s : State) : SameInq s (freeSiding sid s) := by
  unfold freeSiding
  extract_lets s1 d s2 s3 s4
  have ended : SameInq s s1 := by
    dsimp only [s1]
    split
    · exact endSiding_sameInq sid s
    · exact .of_myd rfl
  have rest : Within [.desc, .slots, .models, .wins, .exp] s1 s4 :=
    dropHeld_within (.forEach (fun h => discardItem_within h) (.forEach (fun h => State.finish_within h) (.refl _ s1)))
  have left : SameInq s4 ((forgetFlight sid (unnameSiding sid s4)).modSdg sid fun _ => Siding.reset) := rfl
  exact ended.trans (SameInq.trans (.of_myd rest.myd_eq) left)

theorem detachPart_sameInq (p : Nat) (s : State) : SameInq s (detachPart p s) := by
  unfold detachPart
  extract_lets mask s1 s2 s3 s4 s5
  have stopped : SameInq s (stopStreams p s1) := rfl
  have rest : Within [.ldg, .desc, .wtp, .slots, .plt, .models, .wbr, .ilk, .wins, .gens] (stopStreams p s1) s5 :=
    dropHeldOf_within (freeObjects_within (State.modWin_within (modDetach_within (clearLatch_within
      (setUserRead_within (.refl _ (stopStreams p s1)))))))
  have begun : SameInq s s5 := stopped.trans (.of_myd rest.myd_eq)
  split
  · exact begun.trans (dropSession_sameInq p s5)
  · exact begun

theorem scrubPart_sameInq (p : Nat) (s : State) : SameInq s (scrubPart p s) := by
  unfold scrubPart
  extract_lets s1 mine s2 s3 s4
  have freed : SameInq s s2 := SameInq.trans (t := s1) (.of_myd rfl) (.forEach _ _ (fun i x =>
    SameInq.trans (.of_myd (zeroSiding_within (.refl _ x) (List.Subset.refl _)).myd_eq) (freeSiding_sameInq i _)) s1)
  have keys : Within [.desc, .trk, .slots, .models, .ilk, .wins] s2 s3 :=
    .forEach (fun h => freeKey_within h) (.refl _ s2)
  have scrubs : Within [.ilk, .mem] { s4 with ilk := { s4.ilk with scrubActive := true, scrubPart := p } }
      (scrubFrom p 0 { s4 with ilk := { s4.ilk with scrubActive := true, scrubPart := p } }) :=
    scrubFrom_within (.refl _ _) (List.Subset.refl _)
  exact freed.trans (SameInq.trans (.of_myd keys.myd_eq) (.of_myd scrubs.myd_eq))

theorem applyChange_sameInq (c : TableChange) (s : State) : SameInq s (applyChange c s) := by
  cases c with
  | create p mask compl => exact .of_myd rfl
  | mirror p on => exact .of_myd rfl
  | detach p => exact detachPart_sameInq p s
  | scrub p => exact scrubPart_sameInq p s
  | free p => exact .of_myd (freePart_within (.refl _ s) (List.Subset.refl _)).myd_eq

theorem nextChange_keeps (s : State) :
    (nextChange s).myd.inq = s.myd.inq ∧ (nextChange s).jct.released = s.jct.released := by
  rw [nextChange]
  split
  · split
    · exact ⟨rfl, rfl⟩
    · exact ⟨applyChange_sameInq _ _, by rw [(applyChange_point _ _).1]⟩
  · exact ⟨rfl, rfl⟩

theorem nextChange_none {s : State} (h : s.ilk.changes = []) : nextChange s = s := by
  rw [nextChange, h]

/-! ### The record that leaves the merge -/

/-- The record that is released enters the Marshalling Yard with its attribution. -/
theorem releaseRec_enters (r : Rec) (s : State) :
    ∃ r', (releaseRec r s).myd.inq = s.myd.inq ++ [r'] ∧ (releaseRec r s).jct.released = r.ts ∧
      (r'.type, r'.ts, r'.src, r'.seq) = (r.type, r.ts, r.src, r.seq) := by
  unfold releaseRec
  extract_lets s1 e r1 r2 r3 s2 s3
  have popped : Within [.stats, .stn, .jct, .recs, .wtp, .ilk, .inbox] s s1 :=
    noteSwitch_within (popSource_within (.refl _ s))
  have emitted : Within [.stats, .stn, .jct, .recs, .wtp, .ilk, .inbox] s s2 := by
    dsimp only [s2]
    split
    · exact noteEmission_within popped
    · exact popped
  have named : Within [.stats, .stn, .jct, .recs, .wtp, .ilk, .inbox] s s3 := by
    dsimp only [s3]
    split
    · exact noteFaultNamed_within emitted
    · exact emitted
  have same : (r3.type, r3.ts, r3.src, r3.seq) = (r.type, r.ts, r.src, r.seq) := by
    dsimp only [r3, r2, r1]
    split <;> rfl
  exact ⟨r3, congrArg (fun y : Yard => y.inq ++ [r3]) named.myd_eq, congrArg (fun x => x.2.1) same, same⟩

theorem exec_junctionRelease {s : State} (h : s.core = true) :
    exec .junctionRelease s = .next (nextChange (junctionRelease s)) := by
  have unfolded : exec .junctionRelease s = .next (when s.core (fun s => nextChange (junctionRelease s)) s) := rfl
  rw [unfolded, h, when_true]

/-! ### Overdue records -/

theorem takeFirst_head {α : Type} {p : α → Bool} {x : α} {r : List α} (h : p x = true) :
    takeFirst p (x :: r) = some (x, r) := by
  rw [takeFirst, if_pos h]

end Sys2Proof.Machine

namespace Sys2Proof.Claims

open Sys2Proof.Machine

theorem settleDrops_op (x : Station) : (settleDrops x).op = x.op := rfl

theorem inRange_of_op {s : State} {n : Nat} {it : OpItem} {r : List OpItem} (h : (s.station n).op = it :: r) :
    n < s.stn.length := by
  by_contra outside
  have reset : s.station n = Station.reset := by
    rw [State.station, List.getD_eq_default _ _ (Nat.le_of_not_lt outside)]
  rw [reset] at h
  exact absurd h (by simp [Station.reset])

theorem operandBeats : OperandBeats := by
  have runs (s : State) (n : Nat) (e : Ecc) (hcore : s.core = true) (hhands : handsOver s n = true) :
      exec (.operandBeatDeliver n e) s = .next (operandDeliver n e s) := by
    have unfolded : exec (.operandBeatDeliver n e) s =
      .next (when (s.core && handsOver s n) (operandDeliver n e) s) := rfl
    rw [unfolded, hcore, hhands, Bool.and_self, when_true]
  have delivers (s : State) (n : Nat) (it : OpItem) (r : List OpItem) (hop : (s.station n).op = it :: r)
      (hacc : accepted s it = true) : operandDeliver n .ok s =
        routeItem n it (s.modStation n fun x => settleDrops { x with op := r }) := by
    rw [operandDeliver, hop]
    simp only [hacc, if_true]
    rfl
  refine ⟨fun s n it r hcore hhands hop hacc => ?_, fun s n stamp ctx w o p a at8 d r hcore hhands hop => ?_,
    fun s n it r e hop hacc => ?_⟩
  · have routed := routeItem_within (a1 := n) (a2 := it)
      (.refl _ (s.modStation n fun x => settleDrops { x with op := r })) (List.Subset.refl _)
    refine ⟨_, (runs s n .ok hcore hhands).trans (congrArg next (delivers s n it r hop hacc)), ?_⟩
    have self := State.station_modStation_self s n (fun x => settleDrops { x with op := r }) (inRange_of_op hop)
    exact (congrArg (fun l : List Station => (l.getD n Station.reset).op) routed.stn_eq).trans
      ((congrArg Station.op self).trans rfl)
  · exact ⟨_, (runs s n .ok hcore hhands).trans (congrArg next (delivers s n _ r hop rfl)), rfl⟩
  · have stays : operandDeliver n e s = s := by
      rw [operandDeliver, hop]
      simp only [hacc, Bool.false_eq_true, if_false]
    have unfolded : exec (.operandBeatDeliver n e) s =
      .next (when (s.core && handsOver s n) (operandDeliver n e) s) := rfl
    rw [unfolded]
    cases s.core && handsOver s n
    · rfl
    · rw [when_true, stays]

theorem mergeOrder : MergeOrder := by
  refine ⟨fun s i k r hcore hinq hdue hmem hleast => ?_, fun s hcore hchanges hwait => ?_⟩
  · have lowest_eq : lowest (sources s) = some (i, k, some r) := by
      obtain ⟨y, hy⟩ := lowest_isSome hmem
      obtain ⟨inside, low⟩ := lowest_le hy
      by_cases same : y = (i, k, some r)
      · rw [hy, same]
      · have below := hleast y inside same
        rw [low _ hmem] at below
        exact absurd below Bool.false_ne_true
    have released : junctionRelease s = releaseRec r s := by
      rw [junctionRelease, hinq, hdue, lowest_eq]
      rfl
    obtain ⟨r', enters, ts, same⟩ := releaseRec_enters r s
    obtain ⟨inq, jct⟩ := nextChange_keeps (releaseRec r s)
    refine ⟨_, (exec_junctionRelease hcore).trans (congrArg (fun u => next (nextChange u)) released), ?_, jct.trans ts⟩
    rw [inq, enters, hinq]
    exact congrArg (fun x => [x]) same
  · have stays : junctionRelease s = s := by
      rw [junctionRelease]
      split
      · rfl
      next open_ =>
        obtain ⟨empty, notDue⟩ : s.myd.inq = [] ∧ boundaryDue s = false := by
          simpa using open_
        split
        next i k r low =>
          obtain ⟨inside, least⟩ := lowest_le low
          rcases hwait with full | due | blocked
          · exact absurd empty full
          · exact absurd due (by simp [notDue])
          · obtain ⟨y, hy, below⟩ := blocked _ inside rfl
            rw [least y hy] at below
            exact absurd below Bool.false_ne_true
        · rfl
    rw [exec_junctionRelease hcore, stays, nextChange_none hchanges]

theorem internalRecordOverdue : InternalRecordOverdue := by
  intro s k o r hcore howed hsrc hcounted hpast
  have first : takeFirst (fun o : Owed => o.src == srcOfInput k && heldPast s o) s.jct.owed = some (o, r) := by
    rw [howed]
    exact takeFirst_head (by rw [hsrc, hpast, beq_self_eq_true]; rfl)
  have unfolded : exec (.internalRecordOverdue k) s = .next (when s.core (recordOverdue k) s) := rfl
  rw [unfolded, hcore, when_true, recordOverdue, first]
  simp only [State.countOverdue]
  have core : State.core { s with jct := { s.jct with owed := { o with counted := true } :: r } } = true := hcore
  rw [core]
  rfl

end Sys2Proof.Claims
end

section
open Sys2Proof Sys2Proof.Machine Sys2Proof.Claims

/-- Settles O26: the source that the merge takes next has the least frontier, and no table change touches what the
Marshalling Yard holds. -/
theorem mergeAndOperands : Obligations.MergeAndOperands := ⟨operandBeats, mergeOrder, internalRecordOverdue⟩
end

section
/-! PROOFS. O27: the streams of a fault record, the delivery of a record and the close of a payload (R119, R122, R340,
R347). -/

namespace Sys2Proof.Machine

open Sys2Proof.Claims

/-- A change of one element depends on what it makes of that element alone. -/
theorem modify_congr {α : Type} {l : List α} {i : Nat} {f g : α → α} (d : α) (h : f (l.getD i d) = g (l.getD i d)) :
    l.modify i f = l.modify i g := by
  refine List.ext_getElem? fun j => ?_
  rw [List.getElem?_modify, List.getElem?_modify]
  by_cases hij : i = j
  · subst hij
    simp only [if_true]
    cases hx : l[i]? with
    | none => rfl
    | some x =>
      rw [List.getD_eq_getElem?_getD, hx] at h
      exact congrArg some h
  · simp [hij]

/-! ### The streams of a fault record -/

theorem causeBits_sub {cls sub cause engine slot : Nat} (h : sub < 64) :
    causeBits cls sub cause engine slot false / 2 ^ 24 % 64 = sub := by
  have field := field_packN (top := 32) (lo := 24) (len := 6) (v := sub)
    (fs := [(30, 2, cls), (24, 6, sub), (16, 8, cause), (8, 8, engine), (5, 1, b2n false), (0, 5, slot)])
    (by simp [Laid]) (by simp)
  exact field.trans (Nat.mod_eq_of_lt h)

theorem causeBits_cause {cls sub cause engine slot : Nat} (h : cause < 256) :
    causeBits cls sub cause engine slot false / 2 ^ 16 % 256 = cause := by
  have field := field_packN (top := 32) (lo := 16) (len := 8) (v := cause)
    (fs := [(30, 2, cls), (24, 6, sub), (16, 8, cause), (8, 8, engine), (5, 1, b2n false), (0, 5, slot)])
    (by simp [Laid]) (by simp)
  exact field.trans (Nat.mod_eq_of_lt h)

theorem causeBits_engine {cls sub cause engine slot : Nat} (h : engine < 256) :
    causeBits cls sub cause engine slot false / 2 ^ 8 % 256 = engine := by
  have field := field_packN (top := 32) (lo := 8) (len := 8) (v := engine)
    (fs := [(30, 2, cls), (24, 6, sub), (16, 8, cause), (8, 8, engine), (5, 1, b2n false), (0, 5, slot)])
    (by simp [Laid]) (by simp)
  exact field.trans (Nat.mod_eq_of_lt h)

theorem baseStreams_fault {s : State} {r : Rec} (h : r.type = 8) : baseStreams s r = 16 :: fltNames s r := by
  rw [baseStreams, if_pos h]

/-- The tenants among two owners, each once. -/
theorem tenants_one (a : Nat) : ([a].filter (· < 16)).eraseDups = if a < 16 then [a] else [] := by
  by_cases h : a < 16
  · simp [h, List.eraseDups_cons]
  · simp [h]

theorem tenants_two {a b : Nat} (ha : a < 16) (hb : b < 16) :
    ([a, b].filter (· < 16)).eraseDups = if a = b then [a] else [a, b] := by
  by_cases h : a = b
  · simp [h, hb, List.eraseDups_cons]
  · have other : (b == a) = false := by simpa using fun g : b = a => h g.symm
    simp [ha, hb, h, other, List.eraseDups_cons]

/-! ### Delivery -/

/-- An item of a stream enters a live siding, which remembers the stream. -/
theorem feedSiding_live {s : State} {k : Nat} (h : (s.siding k).state = 1) (stream : Nat) (it : ProdItem) :
    feedSiding stream k it s = s.modSiding k fun x => { x with prodq := x.prodq ++ [it], stream := stream } := by
  have queued : s.pushItem k it = s.modSiding k fun d => { d with prodq := d.prodq ++ [it] } := by
    rw [State.pushItem]
    simp only [h, beq_self_eq_true, if_true]
  rw [feedSiding, queued]
  simp only [State.modSiding, List.modify_modify_eq]
  have live : (s.sdg.desc.getD k Siding.reset).state = 1 := h
  have joins : s.sdg.desc.modify k ((fun x : Siding => if x.state = 0 then x else { x with stream := stream }) ∘
      fun d : Siding => { d with prodq := d.prodq ++ [it] }) =
      s.sdg.desc.modify k fun x => { x with prodq := x.prodq ++ [it], stream := stream } :=
    modify_congr Siding.reset (if_neg (fun h => absurd (live.symm.trans h) (by decide)))
  rw [joins]

end Sys2Proof.Machine

namespace Sys2Proof.Claims

open Sys2Proof.Machine

theorem faultRecordStreams : FaultRecordStreams := by
  refine ⟨fun s r c n e cls slot hc hn he hcls hslot htype hinj hspec hbody => ?_,
    fun s r a b n cls slot ha hb hn hcls hslot htype hinj hspec hbody hoa hob => ?_,
    fun s r sid cause cls slot hsid h1 h3 hcls hslot htype hinj hspec => ?_⟩
  · have sub := hspec ▸ causeBits_sub (cls := cls) (sub := 4) (cause := 2) (engine := (e / 2 + n) % 64) (slot := slot)
      (by omega)
    have cause := hspec ▸ causeBits_cause (cls := cls) (sub := 4) (cause := 2) (engine := (e / 2 + n) % 64)
      (slot := slot) (by omega)
    have detail : (r.body.getD 0 0).toNat / 2 ^ 15 % 32 = c := by
      rw [hbody]
      simp [counterIndex]
      omega
    have names : fltNames s r = ([s.ctxOwner c].filter (· < 16)).eraseDups := by
      simp only [fltNames, sub, cause, hinj, detail, Bool.false_and, Bool.false_eq_true, Nat.reduceEqDiff, or_true,
        true_or, if_true, if_false]
    rw [baseStreams_fault htype, names, tenants_one]
    split <;> rfl
  · have sub := hspec ▸ causeBits_sub (cls := cls) (sub := 1) (cause := 4) (engine := n) (slot := slot) (by omega)
    have cause := hspec ▸ causeBits_cause (cls := cls) (sub := 1) (cause := 4) (engine := n) (slot := slot) (by omega)
    have before : (r.body.getD 0 0).toNat / 2 ^ 8 % 32 = a := by
      rw [hbody]
      simp
      omega
    have after : (r.body.getD 0 0).toNat % 32 = b := by
      rw [hbody]
      simp
      omega
    have names : fltNames s r = ([s.ctxOwner a, s.ctxOwner b].filter (· < 16)).eraseDups := by
      simp only [fltNames, sub, cause, hinj, before, after, Bool.false_and, Bool.false_eq_true, Nat.reduceEqDiff,
        or_self, if_true, if_false]
    rw [baseStreams_fault htype, names, tenants_two hoa hob]
    split <;> rfl
  · have sub := hspec ▸ causeBits_sub (cls := cls) (sub := 6) (cause := cause) (engine := sid) (slot := slot) (by omega)
    have engine := hspec ▸ causeBits_engine (cls := cls) (sub := 6) (cause := cause) (engine := sid) (slot := slot) hsid
    have names : fltNames s r = ([(s.siding sid).owner].filter (· < 16)).eraseDups := by
      simp only [fltNames, sub, engine, hinj, Bool.false_and, Bool.false_eq_true, Nat.reduceEqDiff, if_true, if_false]
    rw [baseStreams_fault htype, names, tenants_one]
    split <;> rfl

theorem recordDelivered : RecordDelivered := by
  have runs (s : State) (e : Ecc) : exec (.mydRecordDeliver e) s = .next (when s.core (recordDeliver e) s) := rfl
  refine ⟨fun s r q d k hcore hinq hdests hsid hexp hlive hempty htype => ?_, fun s r q d e hinq hmem hready => ?_⟩
  · intro item add count
    have ready : r.dests.all (destReady s) = true := by
      simp [hdests, destReady, hsid, hexp, hlive, hempty]
    let taken_ : State := { s with myd := { s.myd with inq := q } }
    have live : (taken_.siding k).state = 1 := hlive
    have words : copyWords taken_ d r = r.words (streamPartition d.stream) d.trailer := by
      simp only [copyWords, htype, if_false]
    have fed : deliverCopy r r d taken_ = countRecord d r (taken_.modSiding k add) := by
      simp only [deliverCopy, hsid, withSome, words, feedSiding_live live, exportCopy, hexp, Bool.not_false,
        Bool.true_or, if_true]
      rfl
    have counts : (fun x : Stream => if r.type = 5 then { x with count := 0 }
        else if countedInStream r then { x with count := wrap 32 (x.count + 1) } else x) = count := by
      funext x
      have counted : countedInStream r = !decide (r.type = 8 ∨ r.type = 4) := by
        rw [countedInStream, beq_false_of_ne htype, Bool.decide_or, Bool.false_or]
        rfl
      simp only [htype, if_false, counted, count, wrap]
      by_cases h : r.type = 8 ∨ r.type = 4
      · rw [decide_eq_true h, if_pos h]
        rfl
      · rw [decide_eq_false h, if_neg h]
        rfl
    rw [runs, hcore, when_true, recordDeliver, hinq]
    simp only [ready, if_true, checkedRec]
    rw [hdests]
    simp only [forEach, List.foldl_cons, List.foldl_nil]
    rw [fed, countRecord]
    simp only [counts]
    rfl
  · have waits : r.dests.all (destReady s) = false := by
      rw [List.all_eq_false]
      exact ⟨d, hmem, by simp [hready]⟩
    have stays : recordDeliver e s = s := by
      rw [recordDeliver, hinq]
      simp only [waits, Bool.false_eq_true, if_false]
    rw [runs]
    cases s.core
    · rfl
    · rw [when_true, stays]

theorem payloadCloses : PayloadCloses := by
  intro s i p hcore hpay htime hopen hlive item add shut
  have due : p.openAt + 100000 ≤ s.now := htime
  have acts : exec (.payloadClose i) s = .next (closePayload i s) := by
    have unfolded : exec (.payloadClose i) s = next (match (s.myd.streams.getD i Stream.reset).payload with
      | some p => when (s.core && decide (p.openAt + 100000 ≤ s.now)) (closePayload i) s
      | none => s) := rfl
    rw [unfolded, hpay]
    dsimp only
    rw [hcore, decide_eq_true due]
    rfl
  let shutState : State := { s with myd := { s.myd with streams := s.myd.streams.modify i shut } }
  have live : (shutState.siding (s.session (sessionOf i)).siding).state = 1 := hlive
  have queued : shutState.pushItem (s.session (sessionOf i)).siding item =
      shutState.modSiding (s.session (sessionOf i)).siding add := by
    rw [State.pushItem]
    simp only [live, beq_self_eq_true, if_true]
    rfl
  have closes : closePayload i s = shutState.pushItem (s.session (sessionOf i)).siding item := by
    rw [closePayload, hpay]
    exact if_pos hopen
  rw [acts, closes, queued]
  rfl

end Sys2Proof.Claims
end

section
open Sys2Proof Sys2Proof.Machine Sys2Proof.Claims

/-- Settles O27: the fields of the specific word name the tenant, and a live siding queues what it is given. -/
theorem delivery : Obligations.Delivery := ⟨faultRecordStreams, recordDelivered, payloadCloses⟩
end

section
/-! PROOFS. O29: deltas at their counters, chained pairs, and deltas that are lost or late (R131-R135, R138). -/

namespace Sys2Proof.Machine

open Sys2Proof.Claims

/-! ### The words of the Ledger -/

theorem lword_putLWord_self {s : State} {i : Nat} {w : LWord} (h : canonical LWord.zero s.ldg.words = true) :
    lword (putLWord i w s) i = w := look_store_self h

theorem lword_putLWord_other {s : State} {i j : Nat} {w : LWord} (h : canonical LWord.zero s.ldg.words = true)
    (hj : j ≠ i) : lword (putLWord i w s) j = lword s j := look_store_other h hj

theorem canonical_putLWord {s : State} {i : Nat} {w : LWord} (h : canonical LWord.zero s.ldg.words = true) :
    canonical LWord.zero (putLWord i w s).ldg.words = true := canonical_store h

/-! ### A delta at its counter -/

/-- The Ledger once station `n`'s first delta has left its queue. -/
abbrev popped (n : Nat) (s : State) : State :=
  { s with ldg := { s.ldg with inq := s.ldg.inq.modify n fun q => q.drop 1 } }

theorem exec_delta {s : State} {n : Nat} {d : Delta} {r : List Delta} (hcore : s.core = true)
    (hhead : s.ldg.inq.getD n [] = d :: r) (hmark : d.mark = false) :
    exec (.ledgerDeltaApply n ⟨.ok, .ok⟩) s = .next (applyDelta n d .ok .ok (popped n s)) := by
  have unfolded : exec (.ledgerDeltaApply n ⟨.ok, .ok⟩) s = .next (when s.core (ledgerDelta n ⟨.ok, .ok⟩) s) := rfl
  rw [unfolded, hcore, when_true, ledgerDelta, hhead]
  exact congrArg next (if_neg (by simp [hmark]))

/-- A late delta marks its counter and is counted. -/
def markLate (i : Nat) (v : State) : State :=
  let marked := putLWord i { lword v i with lost := true } v
  { marked with ldg := { marked.ldg with lateDelta := sat 8 (marked.ldg.lateDelta + 1) } }

/-- The counter of a delta. -/
theorem applyDelta_index {n : Nat} {d : Delta} (hn : n < 64) (hc : d.ctx < 32) (he : d.ev < 512) :
    counterIndex (d.ctx % 32) (n % 64) (d.ev % 512) = counterIndex d.ctx n d.ev := by
  rw [Nat.mod_eq_of_lt hn, Nat.mod_eq_of_lt hc, Nat.mod_eq_of_lt he]

section
variable {u : State} {n : Nat} {d : Delta} (hn : n < 64) (hc : d.ctx < 32) (he : d.ev < 512)
include hn hc he

theorem applyDelta_lost (hlost : d.lost = true) :
    applyDelta n d .ok .ok u = setLost (counterIndex d.ctx n d.ev) d.epoch u := by
  simp only [applyDelta, applyDelta_index hn hc he, ledgerEcc, hlost, if_true]

theorem applyDelta_odd (hlost : d.lost = false)
    (hchain : chainedIn (chainFor u d.epoch) (counterIndex d.ctx n d.ev) = true)
    (hodd : counterIndex d.ctx n d.ev % 2 = 1) : applyDelta n d .ok .ok u = u := by
  simp [applyDelta, applyDelta_index hn hc he, ledgerEcc, hlost, hchain, hodd]

theorem applyDelta_counts (hlost : d.lost = false)
    (hchain : chainedIn (chainFor u d.epoch) (counterIndex d.ctx n d.ev) = false ∨
      counterIndex d.ctx n d.ev % 2 = 0)
    (hlate : isLate u (counterIndex d.ctx n d.ev) d.epoch = false) :
    applyDelta n d .ok .ok u = addCount (counterIndex d.ctx n d.ev) d.count d.epoch .ok u := by
  have own : (chainedIn (chainFor u d.epoch) (counterIndex d.ctx n d.ev) &&
      counterIndex d.ctx n d.ev % 2 == 1) = false := by
    rcases hchain with h | h <;> simp [h]
  simp only [applyDelta, applyDelta_index hn hc he, ledgerEcc, hlost, own, hlate, Bool.false_eq_true, if_false]

theorem applyDelta_late (hlost : d.lost = false)
    (hchain : chainedIn (chainFor u d.epoch) (counterIndex d.ctx n d.ev) = false)
    (hlate : isLate u (counterIndex d.ctx n d.ev) d.epoch = true) :
    applyDelta n d .ok .ok u = (markLate (counterIndex d.ctx n d.ev)
      (addCount (counterIndex d.ctx n d.ev) d.count d.epoch .ok u)).raise
        4 3 (ixBank (counterIndex d.ctx n d.ev)) (counterIndex d.ctx n d.ev) := by
  simp only [applyDelta, applyDelta_index hn hc he, ledgerEcc, hlost, hchain, hlate, Bool.false_and, Bool.false_eq_true,
    if_false, if_true]
  rfl

end

/-- A counter outside the chained pairs takes the sum. -/
theorem addCount_alone {u : State} {i c e : Nat} (hchain : chainedIn (chainFor u e) i = false)
    (hfrozen : freezeFirst i e u = u) :
    addCount i c e .ok u = putLWord i { lword u i with
      count := BitVec.ofNat 48 ((lword u i).count.toNat + c),
      ovf := (lword u i).ovf || decide (2 ^ 48 ≤ (lword u i).count.toNat + c), owner := ownerBits u i } u := by
  simp only [addCount, carries, hchain, Bool.false_and, Bool.false_eq_true, if_false, hfrozen, Bool.not_false,
    Bool.and_true, Bool.and_false]

/-- The lower counter of a chained pair takes the sum, and the upper one the carry. -/
theorem addCount_pair {u : State} {i c e : Nat} (hchain : chainedIn (chainFor u e) i = true) (heven : i % 2 = 0)
    (hfrozen : ∀ j x, freezeFirst j e (putLWord i x u) = putLWord i x u) (hfirst : freezeFirst i e u = u) :
    ∃ x, x.count = BitVec.ofNat 48 ((lword u i).count.toNat + c) ∧ x.ovf = (lword u i).ovf ∧
      addCount i c e .ok u = if 2 ^ 48 ≤ (lword u i).count.toNat + c then
        putLWord (i + 1) { lword (putLWord i x u) (i + 1) with
          count := BitVec.ofNat 48 ((lword (putLWord i x u) (i + 1)).count.toNat + 1),
          ovf := (lword (putLWord i x u) (i + 1)).ovf ||
            decide ((lword (putLWord i x u) (i + 1)).count.toNat + 1 ≥ 2 ^ 48),
          owner := ownerBits (putLWord i x u) i } (putLWord i x u)
      else putLWord i x u := by
  have even : (i % 2 == 0) = true := by rw [heven]; rfl
  refine ⟨{ lword u i with
    count := BitVec.ofNat 48 ((lword u i).count.toNat + c), ovf := (lword u i).ovf,
    owner := ownerBits u i }, rfl, rfl, ?_⟩
  simp only [addCount, hchain, even, ledgerEcc, ite_self, hfirst, hfrozen, Bool.and_true, Bool.not_true,
    Bool.and_false, Bool.or_false, decide_eq_true_eq]

theorem chainFor_none {u : State} (h : u.ldg.sweep = none) (e : Nat) : chainFor u e = u.ldg.eff.chain := by
  rw [chainFor, h]

theorem freezeFirst_none {u : State} (h : u.ldg.sweep = none) (i e : Nat) : freezeFirst i e u = u := by
  rw [freezeFirst, h]

theorem isLate_none {u : State} (h : u.ldg.sweep = none) (i e : Nat) : isLate u i e = false := by
  rw [isLate, h]

theorem ownerBits_eq (u : State) (i : Nat) :
    ownerBits u i = if u.ctxOwner (ixCtx i) < 16 then BitVec.ofNat 4 (u.ctxOwner (ixCtx i)) else 15 := by
  rw [ownerBits, ownerCode]
  split <;> rfl

theorem counterIndex_mod_two {c n e : Nat} : counterIndex c n e % 2 = e % 2 := by
  rw [counterIndex]
  omega

theorem ofNat_add_toNat (x : BitVec 48) (c : Nat) : BitVec.ofNat 48 (x.toNat + c) = x + BitVec.ofNat 48 c := by
  rw [BitVec.ofNat_add, BitVec.ofNat_toNat, BitVec.setWidth_eq]

end Sys2Proof.Machine

namespace Sys2Proof.Claims

open Sys2Proof.Machine

theorem deltaCounted : DeltaCounted := by
  intro s n d r hcore hn _ hhead hmark hlost hsweep hc he hcan hchain
  have none_ : (popped n s).ldg.sweep = none := hsweep
  have chain : chainedIn (chainFor (popped n s) d.epoch) (counterIndex d.ctx n d.ev) = false := by
    rw [chainFor_none none_]
    exact hchain
  have acts := (exec_delta hcore hhead hmark).trans (congrArg next
    ((applyDelta_counts hn hc he hlost (.inl chain) (isLate_none none_ _ _)).trans
      (addCount_alone chain (freezeFirst_none none_ _ _))))
  obtain ⟨ctx, -, -⟩ := parts_counterIndex hc hn he
  have canon : canonical LWord.zero (popped n s).ldg.words = true := hcan
  refine ⟨_, acts, (lword_putLWord_self canon).trans ?_, fun j hj => lword_putLWord_other canon hj, rfl, rfl, rfl⟩
  rw [ofNat_add_toNat, ownerBits_eq, ctx]
  rfl

theorem chainedPairCounts : ChainedPairCounts := by
  refine ⟨fun s n e d r hcore hn _ hhead hmark hlost hsweep hc hev he hcount hcan hchain => ?_,
    fun s n d r hcore hn _ hhead hmark hlost hsweep hc he hodd hchain => ?_⟩
  · intro i value
    have hev512 : d.ev < 512 := by omega
    have none_ : (popped n s).ldg.sweep = none := hsweep
    have canon : canonical LWord.zero (popped n s).ldg.words = true := hcan
    have chain : chainedIn (chainFor (popped n s) d.epoch) i = true := by
      rw [chainFor_none none_]
      exact hchain
    have even : i % 2 = 0 := by
      have parity : i % 2 = d.ev % 2 := counterIndex_mod_two
      omega
    obtain ⟨x, count, ovf, adds⟩ := addCount_pair (c := d.count) chain even
      (fun j x => freezeFirst_none (u := putLWord i x (popped n s)) none_ j d.epoch) (freezeFirst_none none_ _ _)
    have acts := (exec_delta hcore hhead hmark).trans (congrArg next
      ((applyDelta_counts hn hc hev512 hlost (.inr even) (isLate_none none_ _ _)).trans adds))
    have lower : lword (putLWord i x (popped n s)) i = x := lword_putLWord_self canon
    have others : ∀ j, j ≠ i → lword (putLWord i x (popped n s)) j = lword s j := fun j hj =>
      lword_putLWord_other canon hj
    have upper : lword (putLWord i x (popped n s)) (i + 1) = lword s (i + 1) := others _ (by omega)
    have canon' : canonical LWord.zero (putLWord i x (popped n s)).ldg.words = true := canonical_putLWord canon
    have before : lword (popped n s) i = lword s i := rfl
    have low := (lword s i).count.isLt
    have high := (lword s (i + 1)).count.isLt
    have counted : x.count.toNat = ((lword s i).count.toNat + d.count) % 2 ^ 48 := by
      rw [count, BitVec.toNat_ofNat, before]
    rw [before] at acts ovf
    by_cases carry : 2 ^ 48 ≤ (lword s i).count.toNat + d.count
    · rw [if_pos carry] at acts
      have lower' := (lword_putLWord_other (i := i + 1) (j := i) (w := { lword (putLWord i x (popped n s)) (i + 1) with
        count := BitVec.ofNat 48 ((lword (putLWord i x (popped n s)) (i + 1)).count.toNat + 1),
        ovf := (lword (putLWord i x (popped n s)) (i + 1)).ovf ||
          decide ((lword (putLWord i x (popped n s)) (i + 1)).count.toNat + 1 ≥ 2 ^ 48),
        owner := ownerBits (putLWord i x (popped n s)) i }) canon' (by omega)).trans lower
      refine ⟨_, acts, ?_, (congrArg LWord.ovf lower').trans ovf, fun j hj hj1 =>
        (lword_putLWord_other canon' hj1).trans (others j hj)⟩
      dsimp only [value]
      rw [lower', lword_putLWord_self canon', upper, counted]
      simp only [BitVec.toNat_ofNat]
      omega
    · rw [if_neg carry] at acts
      refine ⟨_, acts, ?_, (congrArg LWord.ovf lower).trans ovf, fun j hj _ => others j hj⟩
      dsimp only [value]
      rw [lower, upper, counted]
      omega
  · have none_ : (popped n s).ldg.sweep = none := hsweep
    have chain : chainedIn (chainFor (popped n s) d.epoch) (counterIndex d.ctx n d.ev) = true := by
      rw [chainFor_none none_]
      exact hchain
    exact ⟨_, (exec_delta hcore hhead hmark).trans (congrArg next
      (applyDelta_odd hn hc he hlost chain (counterIndex_mod_two.trans hodd))), rfl⟩

theorem lostAndLateDeltas : LostAndLateDeltas := by
  refine ⟨fun s n d r hcore hn _ hhead hmark hlost hsweep hc he hcan => ?_,
    fun s n d r w hcore hn _ hhead hmark hlost hsweep hc he hcan hold hswept hchain => ?_⟩
  · have none_ : (popped n s).ldg.sweep = none := hsweep
    have canon : canonical LWord.zero (popped n s).ldg.words = true := hcan
    have sets : setLost (counterIndex d.ctx n d.ev) d.epoch (popped n s) = putLWord (counterIndex d.ctx n d.ev)
        { lword (popped n s) (counterIndex d.ctx n d.ev) with lost := true } (popped n s) := by
      rw [setLost, freezeFirst_none none_]
    exact ⟨_, (exec_delta hcore hhead hmark).trans (congrArg next ((applyDelta_lost hn hc he hlost).trans sets)),
      lword_putLWord_self canon, fun j hj => lword_putLWord_other canon hj⟩
  · have swept : (popped n s).ldg.sweep = some w := hsweep
    have chain : chainedIn (chainFor (popped n s) d.epoch) (counterIndex d.ctx n d.ev) = false := by
      rw [chainFor, swept]
      simpa [hold] using hchain
    have late : isLate (popped n s) (counterIndex d.ctx n d.ev) d.epoch = true := by
      rw [isLate, swept]
      simp [hold, hswept]
    have frozen : freezeFirst (counterIndex d.ctx n d.ev) d.epoch (popped n s) = popped n s := by
      rw [freezeFirst, swept]
      simp [hold]
    have canon : canonical LWord.zero (popped n s).ldg.words = true := hcan
    have acts := applyDelta_late hn hc he hlost chain late
    obtain ⟨v, hv⟩ : ∃ v, v = addCount (counterIndex d.ctx n d.ev) d.count d.epoch .ok (popped n s) := ⟨_, rfl⟩
    rw [← hv] at acts
    rw [addCount_alone chain frozen] at hv
    have adds : canonical LWord.zero v.ldg.words = true := hv ▸ canonical_putLWord canon
    have self := lword_putLWord_self (i := counterIndex d.ctx n d.ev)
      (w := { lword v (counterIndex d.ctx n d.ev) with lost := true }) adds
    have core : (markLate (counterIndex d.ctx n d.ev) v).core = true := hv ▸ hcore
    have lateCount : v.ldg.lateDelta = s.ldg.lateDelta := hv ▸ rfl
    have inbox : v.sbx = s.sbx := hv ▸ rfl
    rw [State.raise_core core] at acts
    refine ⟨_, (exec_delta hcore hhead hmark).trans (congrArg next acts), congrArg LWord.lost self,
      (congrArg LWord.count self).trans ?_, fun j hj => (lword_putLWord_other adds hj).trans ?_, ?_, ?_⟩
    · rw [hv, lword_putLWord_self canon]
      exact ofNat_add_toNat _ _
    · rw [hv, lword_putLWord_other canon hj]
      rfl
    · exact congrArg (fun x => min 255 (x + 1)) lateCount
    · have told : (markLate (counterIndex d.ctx n d.ev) v).sbx.inbox = s.sbx.inbox := congrArg SignalBox.inbox inbox
      simp only [List.length_append, told, List.length_singleton]

end Sys2Proof.Claims
end

section
open Sys2Proof Sys2Proof.Machine Sys2Proof.Claims

/-- Settles O29: without a sweep a delta adds to its word alone, and the carry of a chained pair to the next one. -/
theorem counterUpdates : Obligations.CounterUpdates := ⟨deltaCounted, chainedPairCounts, lostAndLateDeltas⟩
end

section
/-! PROOFS. O30: the patrol, the sweep and the snapshot timeout (R130, R137, R141). -/

namespace Sys2Proof.Machine

open Sys2Proof.Claims

theorem exec_patrol {s : State} (hcore : s.core = true) {i : Nat} (hi : i < 1048576) (e : Ecc) :
    exec (.ledgerPatrol i e) s = .next (ledgerEcc i e s) := by
  have unfolded : exec (.ledgerPatrol i e) s =
      .next (when (s.core && decide (i < 1048576)) (ledgerEcc i e) s) := rfl
  rw [unfolded, hcore, decide_eq_true hi, Bool.and_self, when_true]

/-- A word outside the chained pairs is rewritten alone. -/
theorem rewriteWord_alone {s : State} {i : Nat} (hcore : s.core = true) (h : chainedIn s.ldg.eff.chain i = false) :
    ∃ v, v = putLWord i { lword s i with count := 0, lost := true } s ∧ rewriteWord i s = { v with
      ldg := { v.ldg with eccUncorr := sat 16 (s.ldg.eccUncorr + 1), lastBank := ixBank i },
      sbx := { s.sbx with inbox := s.sbx.inbox ++ [received s (occ 4 2 (ixBank i) i)] } } := by
  obtain ⟨v, hv⟩ : ∃ v, v = putLWord i { lword s i with count := 0, lost := true } s := ⟨_, rfl⟩
  refine ⟨v, hv, ?_⟩
  have alone : ¬ chainedIn v.ldg.eff.chain i = true := by
    rw [hv]
    exact Bool.eq_false_iff.mp h
  have told : rewriteWord i s = State.raise { v with
      ldg := { v.ldg with eccUncorr := sat 16 (v.ldg.eccUncorr + 1), lastBank := ixBank i } } 4 2 (ixBank i) i := by
    simp only [rewriteWord, ← hv]
    rw [if_neg alone]
  have core : State.core { v with
      ldg := { v.ldg with eccUncorr := sat 16 (v.ldg.eccUncorr + 1), lastBank := ixBank i } } = true := hv ▸ hcore
  rw [told, State.raise_core core, hv]
  rfl

/-! ### The frozen value of a word without a due snapshot -/

/-- With no snapshot under way a word takes the changes of T and nothing is written. -/
theorem takeFrozen_noSnaps {s : State} {w : Sweep} {i : Nat} (hsweep : s.ldg.sweep = some w)
    (hsnaps : s.ldg.snaps = []) :
    ∃ v, v = putLWord i (changeAtT w s.ldg.eff.chain i (lword s i)) s ∧ takeFrozen i s = { v with
      ldg := { v.ldg with sweep := some { w with taken := if i < w.pos then w.taken else i :: w.taken } } } := by
  refine ⟨_, rfl, ?_⟩
  rw [takeFrozen, hsweep, hsnaps]
  rfl

theorem settleSnaps_none {s : State} (h : s.ldg.snaps = []) : settleSnaps s = s := by
  have none_ : { s with ldg := { s.ldg with snaps := [] } } = s := by rw [← h]
  simp only [settleSnaps, h, List.find?_nil, withSome, List.map_nil, sendSnaps]
  exact none_

end Sys2Proof.Machine

namespace Sys2Proof.Claims

open Sys2Proof.Machine

theorem patrol : Patrol := by
  refine ⟨fun s i hi => ?_, fun s i hcore hi => ?_, fun s i hcore hi hchain hcan => ?_⟩
  · have unfolded : exec (.ledgerPatrol i .ok) s =
        .next (when (s.core && decide (i < 1048576)) (ledgerEcc i .ok) s) := rfl
    rw [unfolded]
    cases s.core && decide (i < 1048576) <;> rfl
  · have core : State.core { s with ldg := { s.ldg with eccCorr := sat 32 (s.ldg.eccCorr + 1) } } = true := hcore
    rw [exec_patrol hcore hi, ledgerEcc, State.raise_core core]
    rfl
  · obtain ⟨v, hv, rewrites⟩ := rewriteWord_alone hcore hchain
    refine ⟨_, (exec_patrol hcore hi .uncorrectable).trans (congrArg next rewrites), ?_, fun j hj => ?_, ?_, rfl⟩
    · exact (congrArg (lword · i) hv).trans (lword_putLWord_self hcan)
    · exact (congrArg (lword · j) hv).trans (lword_putLWord_other hcan hj)
    · rfl

theorem sweepTraverse : SweepTraverse := by
  refine ⟨fun s w hcore hsweep hstarted hmarks => ?_, fun s w hcore hsweep hstarted hpos htaken hsnaps hcan => ?_⟩
  · have begins : (marksIn s s.ldg.marks || decide (w.t + 16000 ≤ s.now)) = true := by
      rcases hmarks with h | h
      · rw [h, Bool.true_or]
      · rw [decide_eq_true (show w.t + 16000 ≤ s.now from h), Bool.or_true]
    have unfolded : exec .sweepTraverseStart s = next (match s.ldg.sweep with
      | some w => if s.core && !w.started && (marksIn s s.ldg.marks || decide (w.t + 16000 ≤ s.now)) then
          startTraverse s else s
      | none => s) := rfl
    rw [unfolded, hsweep]
    dsimp only
    rw [hcore, hstarted, begins]
    simp only [startTraverse, hsweep]
    rfl
  · obtain ⟨v, hv, takes⟩ := takeFrozen_noSnaps (i := w.pos) hsweep hsnaps
    have inside : ¬ 1048576 ≤ w.pos := by omega
    have visits : sweepVisit .ok s = { v with ldg := { v.ldg with sweep := some { w with
        pos := w.pos + 1, taken := (if w.pos < w.pos then w.taken else w.pos :: w.taken).filter
          fun j => j != w.pos } } } := by
      have quiet : v.ldg.snaps = [] := hv ▸ hsnaps
      rw [sweepVisit, hsweep]
      simp only [hstarted, inside, ledgerEcc, htaken, List.contains_nil, takes, Bool.not_true, decide_false,
        Bool.or_self, Bool.false_eq_true, if_false]
      exact settleSnaps_none quiet
    have acts : exec (.sweepWordVisit .ok) s = .next (sweepVisit .ok s) := by
      have unfolded : exec (.sweepWordVisit .ok) s = .next (when s.core (sweepVisit .ok) s) := rfl
      rw [unfolded, hcore, when_true]
    have same : v.sbx = s.sbx := hv ▸ rfl
    refine ⟨_, acts.trans (congrArg next visits), rfl, ?_, fun j hj => ?_, same⟩
    · exact (congrArg (lword · w.pos) hv).trans (lword_putLWord_self hcan)
    · exact (congrArg (lword · j) hv).trans (lword_putLWord_other hcan hj)

theorem snapshotTimeout : SnapshotTimeout := by
  intro s x hcore hsnaps hdone hwith hslot htime
  have here : s.ldg.snaps.find? (fun y => y.slot == x.slot && !y.withdrawn && !y.done) = some x := by
    rw [hsnaps]
    simp [hdone, hwith]
  have notRoot : ¬ x.slot = 16 := by omega
  obtain ⟨u, hu⟩ : ∃ u : State, u = State.unowe { s with ldg := { s.ldg with
    snaps := [{ x with withdrawn := true }], withdrawn := sat 16 (s.ldg.withdrawn + 1) } } 0 x.slot := ⟨_, rfl⟩
  have core : u.core = true := hu ▸ hcore
  have withdraws : withdrawSnap x.slot 2 s = u.raise 4 4 x.slot (x.epoch * 2 ^ 32 + 2) := by
    have marked : modSnap x.slot (fun x => { x with withdrawn := true }) s =
        { s with ldg := { s.ldg with snaps := [{ x with withdrawn := true }] } } := by
      rw [modSnap, hsnaps]
      simp
    rw [withdrawSnap, here]
    simp only [marked, notRoot, if_false]
    rw [hu]
  have snaps : u.ldg.snaps = [{ x with withdrawn := true }] := hu ▸ rfl
  have settles : ∀ v : State, v.ldg.snaps = [{ x with withdrawn := true }] → settleSnaps v = v := fun v hv => by
    have same : { v with ldg := { v.ldg with snaps := [{ x with withdrawn := true }] } } = v := by rw [← hv]
    have other : (x.slot == 16) = false := by simpa using notRoot
    simp only [settleSnaps, hv, List.find?_cons, other, Bool.false_and, List.find?_nil, withSome, List.map_cons,
      List.map_nil, Bool.not_true, Bool.and_false, Bool.false_eq_true, if_false, same, sendSnaps, Bool.true_or, if_true]
  have acts : exec (.snapshotTimeout x.slot) s = .next (u.raise 4 4 x.slot (x.epoch * 2 ^ 32 + 2)) := by
    have unfolded : exec (.snapshotTimeout x.slot) s = next (match s.ldg.snaps.find? fun y => y.slot == x.slot with
      | some y => when (s.core && !y.done && decide (y.t + 1000000 ≤ s.now))
          (fun s => settleSnaps (withdrawSnap x.slot 2 s)) s
      | none => s) := rfl
    have slot : s.ldg.snaps.find? (fun y => y.slot == x.slot) = some x := by
      rw [hsnaps]
      simp
    rw [unfolded, slot]
    dsimp only
    rw [hcore, hdone, decide_eq_true (show x.t + 1000000 ≤ s.now from htime)]
    refine congrArg next ?_
    change settleSnaps (withdrawSnap x.slot 2 s) = _
    rw [withdraws]
    exact settles _ ((congrArg Ledger.snaps (State.raise_within (.refl [.inbox] u)).ldg_eq).trans snaps)
  rw [State.raise_core core] at acts
  refine ⟨_, acts, snaps, ?_, ?_, ?_⟩
  · exact congrArg (fun v : State => v.ldg.withdrawn) hu
  · have inbox : u.sbx = s.sbx := hu ▸ rfl
    have time : u.ttb = s.ttb := hu ▸ rfl
    simp only [received, inbox, time]
  · have words : u.ldg.words = s.ldg.words := hu ▸ rfl
    exact words

end Sys2Proof.Claims
end

section
open Sys2Proof Sys2Proof.Machine Sys2Proof.Claims

/-- Settles O30: each step of the upkeep rewrites one word of the store, or none. -/
theorem counterUpkeep : Obligations.CounterUpkeep := ⟨patrol, sweepTraverse, snapshotTimeout⟩
end

section
/-! PROOFS. O31: counter reads, counter configuration and user reads (R129, R134, R142-R146, R283). -/

namespace Sys2Proof.Machine

open Sys2Proof.Claims

/-- The pairs that a run of one pair names in quarter `q` of a station's chain map. -/
def runMask (k q : Nat) : Nat :=
  maskOf ((List.range 64).filter fun j => decide (k ≤ 64 * q + j ∧ 64 * q + j < k + 1))

theorem runMask_first {k : Nat} (hk : k < 64) : runMask k 0 = 2 ^ k := by
  refine Nat.eq_of_testBit_eq fun i => ?_
  rw [runMask, testBit_maskOf, Nat.testBit_two_pow]
  refine decide_eq_decide.mpr ?_
  simp only [List.mem_filter, List.mem_range, decide_eq_true_eq]
  omega

theorem runMask_later {k q : Nat} (hk : k < 64) (hq : 0 < q) : runMask k q = 0 := by
  have empty : (List.range 64).filter (fun j => decide (k ≤ 64 * q + j ∧ 64 * q + j < k + 1)) = [] := by
    refine List.filter_eq_nil_iff.mpr fun j _ => ?_
    rw [decide_eq_true_eq]
    omega
  rw [runMask, empty]
  rfl

/-- LDG_CHAIN of one pair in the first quarter writes one word of the chain map. -/
theorem ldgChain_single {pk : List Word} {t : Ticket} {s : State} {n k : Nat} (hn : param pk 16 6 = n)
    (named : n < s.dsp.enumCount) (hk : param pk 8 8 = k) (hk64 : k < 64) (hone : param pk 0 8 = 0) :
    ldgChain pk t s = (s.pendE (.ldgChain (4 * n) (BitVec.ofNat 64 (if paramBit pk 31 then 2 ^ k else 0))
      (BitVec.ofNat 64 (2 ^ k)))).complete t statusDone 1 0 := by
  have count : min (0 + 1) (256 - k) = 1 := by omega
  have quarter : ∀ q, maskOf ((List.range 64).filter fun j => decide (k ≤ 64 * q + j ∧ 64 * q + j < k + 1)) =
      runMask k q := fun _ => rfl
  have some_ : ¬ 2 ^ k = 0 := (Nat.two_pow_pos k).ne'
  have four : List.range 4 = [0, 1, 2, 3] := rfl
  simp only [ldgChain, hn, Nat.not_le.mpr named, if_false, hk, hone, count, quarter, four, forEach_cons, forEach_nil,
    runMask_first hk64, runMask_later hk64 (Nat.zero_lt_succ _), some_, if_true, Nat.add_zero]

end Sys2Proof.Machine

namespace Sys2Proof.Claims

open Sys2Proof.Machine

theorem counterReads : CounterReads := by
  refine ⟨fun s w i pk hissues hi hmay => ?_, fun s w i pk hissues hi hmay => ?_, fun s w pk e hissues hmay => ?_⟩
  · have acts : exec (.ldgRead w .ok) s = .next (ldgRead .ok pk (ticketOf w pk) (taken w s)) :=
      congrArg next (issue_of_issues hissues)
    have may : mayRead (taken w s) w (param pk 0 20) = true := (congrArg (mayRead s w) hi.symm).trans hmay
    have reads : ldgRead .ok pk (ticketOf w pk) (taken w s) = (taken w s).complete (ticketOf w pk) 0 i
        (readFormat (s.ctxOwner (i / 32768 % 32)) (shownWord s i)) := by
      rw [hi]
      exact if_pos may
    rw [acts, reads]
    exact congrArg Host.Outcome.next (complete_eq_told (taken_compl_live hissues))
  · have acts : exec (.ldgReadPair w ⟨.ok, .ok⟩) s = .next (ldgReadPair ⟨.ok, .ok⟩ pk (ticketOf w pk) (taken w s)) :=
      congrArg next (issue_of_issues hissues)
    have may : mayRead (taken w s) w (param pk 0 20 / 2 * 2) = true := hi ▸ hmay
    have reads : ldgReadPair ⟨.ok, .ok⟩ pk (ticketOf w pk) (taken w s) = (taken w s).complete (ticketOf w pk) 0
        ((shownWord s (i + 1)).count.toNat / 65536)
        (pack [(0, 48, (shownWord s i).count.toNat), (48, 16, (shownWord s (i + 1)).count.toNat)]) := by
      rw [hi]
      exact if_pos may
    rw [acts, reads]
    exact congrArg Host.Outcome.next (complete_eq_told (taken_compl_live hissues))
  · have acts : exec (.ldgRead w e) s = .next (ldgRead e pk (ticketOf w pk) (taken w s)) :=
      congrArg next (issue_of_issues hissues)
    have barred : ¬ mayRead (taken w s) w (param pk 0 20) = true := Bool.eq_false_iff.mp hmay
    have reads : ldgRead e pk (ticketOf w pk) (taken w s) = (taken w s).complete (ticketOf w pk) 3 0 0 := if_neg barred
    rw [acts, reads]
    exact congrArg Host.Outcome.next (complete_eq_told (taken_compl_live hissues))

theorem ownedMask_tenant {s : State} {w mask : Nat} (h : w < 16) :
    ownedMask s w mask = maskOf ((bitsOf 32 mask).filter fun c => s.ctxOwner c == w) :=
  if_neg (by omega)

theorem counterConfiguration : CounterConfiguration := by
  refine ⟨fun s pk n k hissues hn named hk hk64 hone => ?_, fun s w pk hissues hw => ?_, fun s w pk hissues hw => ?_⟩
  · have acts : exec (.ldgChain 16) s = .next (ldgChain pk (ticketOf 16 pk) (taken 16 s)) :=
      congrArg next (issue_of_issues hissues)
    rw [acts, ldgChain_single (s := taken 16 s) hn.symm named hk.symm hk64 hone]
    exact congrArg Host.Outcome.next (complete_eq_told (s := (taken 16 s).pendE _) (taken_compl_live hissues))
  · intro m a
    have acts : exec (.ldgSnapcfg w) s = .next (ldgSnapcfg pk (ticketOf w pk) (taken w s)) :=
      congrArg next (issue_of_issues hissues)
    have tenant : ¬ w = 16 := by omega
    have slot : ¬ 17 ≤ w := by omega
    have mask : ownedMask (taken w s) w (fld (pw pk 2) 0 32) = m := ownedMask_tenant hw
    have sets : ldgSnapcfg pk (ticketOf w pk) (taken w s) = ((taken w s).pendE (.ldgSnap w a
        (pack [(32, 32, m), (16, 1, fld (pk.getD 0 0) 31 1), (8, 8, max 1 (fld (pk.getD 0 0) 8 8))]))).complete
        (ticketOf w pk) 0 m a := by
      simp only [ldgSnapcfg, ticketOf, tenant, slot, if_false, mask]
      rfl
    rw [acts, sets]
    exact congrArg Host.Outcome.next (complete_eq_told (s := (taken w s).pendE _) (taken_compl_live hissues))
  · intro m
    have acts : exec (.ldgClear w) s = .next (ldgClear pk (ticketOf w pk) (taken w s)) :=
      congrArg next (issue_of_issues hissues)
    have mask : ownedMask (taken w s) w (param pk 0 32) = m := ownedMask_tenant hw
    have clears : ldgClear pk (ticketOf w pk) (taken w s) = ((taken w s).pendE
        (.ldgClear (BitVec.ofNat 32 m))).complete (ticketOf w pk) 0 m 0 := by
      simp only [ldgClear, ticketOf, mask]
      rfl
    rw [acts, clears]
    exact congrArg Host.Outcome.next (complete_eq_told (s := (taken w s).pendE _) (taken_compl_live hissues))

theorem userReads : UserReads := by
  refine ⟨fun s p i hcore hi => ?_, fun s p i hcore hi hmay hinc => ?_, fun s p i e hcore hi hmay hinc => ?_⟩
  · intro sel data sels
    have acts : exec (.ldgUreadData p .ok) s = .next (ureadData p .ok s) := congrArg next (if_pos hcore)
    have read : (if userMayRead s p i then setRegData (readCounter s i) s else setRegData deniedRead s) =
        setRegData data s := by
      by_cases h : userMayRead s p i = true
      · rw [if_pos h, show data = readCounter s i from if_pos h]
      · rw [if_neg h, show data = deniedRead from if_neg h]
    have answers : ureadData p .ok s = advanceSel p 1 (setRegData data s) := by
      rw [← read, ureadData, ← hi]
      rfl
    rw [acts, answers]
    by_cases h : bit sel 20 = true
    · rw [show sels = s.ldg.userSel.set p (put sel 0 20 (i + 1)) from if_pos h, hi]
      exact congrArg next (if_pos h)
    · rw [show sels = s.ldg.userSel from if_neg h]
      exact congrArg next (if_neg h)
  · intro odd
    have acts : exec (.ldgUreadPairLo p ⟨.ok, .ok⟩) s = .next (ureadPairLo p ⟨.ok, .ok⟩ s) :=
      congrArg next (if_pos hcore)
    have answers : ureadPairLo p ⟨.ok, .ok⟩ s = advanceSel p 2 (setRegData (readCounter s i)
        { s with ldg := { s.ldg with userHi := s.ldg.userHi.set p odd } }) := by
      rw [ureadPairLo, ← hi]
      exact congrArg (advanceSel p 2) (if_pos hmay)
    have still : ¬ bit (s.ldg.userSel.getD p 0) 20 = true := Bool.eq_false_iff.mp hinc
    rw [acts, answers]
    exact congrArg next (if_neg still)
  · intro sel
    have acts : exec (.ldgUreadPairLo p e) s = .next (ureadPairLo p e s) := congrArg next (if_pos hcore)
    have answers : ureadPairLo p e s = advanceSel p 2 (setRegData deniedRead
        { s with ldg := { s.ldg with userHi := s.ldg.userHi.set p deniedRead } }) := by
      rw [ureadPairLo, ← hi]
      exact congrArg (advanceSel p 2) (if_neg (Bool.eq_false_iff.mp hmay))
    rw [acts, answers]
    exact congrArg next (if_pos hinc)

end Sys2Proof.Claims
end

section
open Sys2Proof Sys2Proof.Machine Sys2Proof.Claims

/-- Settles O31: each command takes the branch of the sender's right to the context, and each read its index. -/
theorem counterCommands : Obligations.CounterCommands := ⟨counterReads, counterConfiguration, userReads⟩
end

section
/-! PROOFS. O32: the tallies of the Sealed Meter add and latch (R319, R324, R326). -/

namespace Sys2Proof.Machine

/-- A list of tallies after a count at each place of `is`. -/
theorem tallies_counted {d : Delta} {is : List Nat} (nodup : is.Nodup) {s : State}
    (inside : ∀ i ∈ is, i < s.mtr.tally.length)
    (hlost : d.lost = false) (hdue : s.mtr.latchDue = none) (hlatch : s.mtr.latchT = 0) :
    ∃ ts, forEach is (tallyDelta d) s = { s with mtr := { s.mtr with tally := ts } } ∧
      ∀ i, ts.getD i Tally.reset =
        if i ∈ is then addTally d.count (s.mtr.tally.getD i Tally.reset) else s.mtr.tally.getD i Tally.reset := by
  induction is generalizing s with
  | nil => exact ⟨s.mtr.tally, rfl, fun i => by simp⟩
  | cons k r ih =>
    obtain ⟨apart, nodup⟩ := List.nodup_cons.mp nodup
    have adds : tallyDelta d k s =
        { s with mtr := { s.mtr with tally := s.mtr.tally.modify k (addTally d.count) } } := by
      simp [tallyDelta, inForming, afterLatch, hdue, hlatch, hlost, modMeter]
    obtain ⟨ts, acts, value⟩ := ih (s := tallyDelta d k s) nodup
      (fun i hi => by rw [adds]; simpa using inside i (List.mem_cons_of_mem _ hi))
      (by rw [adds]; exact hdue) (by rw [adds]; exact hlatch)
    refine ⟨ts, ?_, fun i => ?_⟩
    · rw [forEach_cons, acts, adds]
    · have here := inside k List.mem_cons_self
      rw [value i, adds]
      by_cases hik : i = k
      · subst hik
        simp [apart, here]
      · simp [hik, Ne.symm hik]

end Sys2Proof.Machine

namespace Sys2Proof.Claims

open Sys2Proof.Machine

theorem tallyAdds : TallyAdds := by
  intro s n d r hcore hn hq hlink hmark hlost hrun hlabel hdue hlatch hlen hc he
  obtain ⟨u, hu⟩ : ∃ u : State, u = { s.modStation n (fun x => { x with link := r }) with
    ldg := { s.ldg with inq := s.ldg.inq.modify n fun q => q ++ [d] } } := ⟨_, rfl⟩
  have mtr : u.mtr = s.mtr := hu ▸ rfl
  have taps : tapDelta n .ok s = forEach (mappedTallies u n d) (tallyDelta d) u := by
    have takes : ledgerTakes (s.modStation n fun x => { x with link := r }) d = true := by
      simp [ledgerTakes, hcore, hrun, hlabel]
    rw [tapDelta, hlink]
    simp only [takes, if_true, hmark, Bool.false_eq_true, if_false]
    rw [hu]
    cases (mappedTallies _ n d).head? <;> rfl
  have acts : exec (.tallyDeltaAdd n .ok) s = .next (tapDelta n .ok s) := by
    have unfolded : exec (.tallyDeltaAdd n .ok) s = .next (when s.stationsRun (tapDelta n .ok) s) := rfl
    rw [unfolded, stationsRun_of_core hcore, when_true]
  have mapped : ∀ i < 256, (i ∈ mappedTallies u n d ↔ mapsTo (s.mtr.map.getD i 0) n d.ctx d.ev = true) := fun i hi => by
    rw [mappedTallies, List.mem_filter, List.mem_range, mtr, Nat.mod_eq_of_lt hc, Nat.mod_eq_of_lt he]
    exact and_iff_right hi
  obtain ⟨ts, adds, value⟩ := tallies_counted (d := d) (is := mappedTallies u n d) (s := u)
    (List.nodup_range.filter _) (fun i hi => by
      rw [mtr, hlen]
      exact List.mem_range.mp (List.mem_of_mem_filter hi))
    hlost (mtr ▸ hdue) (mtr ▸ hlatch)
  refine ⟨_, acts.trans (congrArg next (taps.trans adds)), ?_, ?_, fun i hi => ?_⟩
  · have self := State.station_modStation_self s n (fun x => { x with link := r }) hn
    have same : u.station n = (s.modStation n fun x => { x with link := r }).station n := hu ▸ rfl
    exact (congrArg Station.link same).trans (congrArg Station.link self)
  · have inq : u.ldg.inq = s.ldg.inq.modify n fun q => q ++ [d] := hu ▸ rfl
    exact inq
  · refine (value i).trans ?_
    rw [mtr]
    by_cases h : mapsTo (s.mtr.map.getD i 0) n d.ctx d.ev = true
    · have full : decide (2 ^ 56 ≤ (s.mtr.tally.getD i Tally.reset).count + d.count + 1) =
          decide (2 ^ 56 - 1 ≤ (s.mtr.tally.getD i Tally.reset).count + d.count) := decide_eq_decide.mpr (by omega)
      rw [if_pos ((mapped i hi).mpr h), if_pos h, addTally, full]
      rfl
    · rw [if_neg (fun hm => h ((mapped i hi).mp hm)), if_neg h]

theorem tallyLatched : TallyLatched := by
  intro s t0 e hporst hdue hmarks
  have latches : (marksIn s s.mtr.marks || decide (t0 + 16000 ≤ s.now)) = true := by
    rcases hmarks with h | h
    · rw [h, Bool.true_or]
    · rw [decide_eq_true (show t0 + 16000 ≤ s.now from h), Bool.or_true]
  have unfolded : exec .tallyLatch s = next (match s.mtr.latchDue with
    | some (t, e) => when (s.pins.porstN && (marksIn s s.mtr.marks || decide (t + 16000 ≤ s.now))) (latchTallies t e) s
    | none => s) := rfl
  rw [unfolded, hdue]
  dsimp only
  rw [hporst, latches]
  rfl

end Sys2Proof.Claims
end

section
open Sys2Proof Sys2Proof.Machine Sys2Proof.Claims

/-- Settles O32, by induction on the tallies that map the counter of a delta. -/
theorem tallies : Obligations.Tallies := ⟨tallyAdds, tallyLatched⟩
end

section
/-! PROOFS. O33: the seal, and the start, reset and stall of the meter core (R320-R322, R331-R333). -/

namespace Sys2Proof.Machine

open Sys2Proof.Claims

/-! ### What an audit record leaves -/

/-- The meter without its audit trail and its waiting faults. -/
def trailless (m : Meter) : Meter := { m with audit := [], audSeq := 0, chain := [], queue := [] }

theorem trailless_field {α : Type} (f : Meter → α) (hf : ∀ m, f (trailless m) = f m) {m n : Meter}
    (h : trailless m = trailless n) : f m = f n :=
  (hf m).symm.trans ((congrArg f h).trans (hf n))

theorem meterRaise_trailless (c e d : Nat) (s : State) : trailless (meterRaise c e d s).mtr = trailless s.mtr := by
  unfold meterRaise
  split
  · rw [(State.raise_within (.refl [.inbox] s)).mtr_eq]
  · rfl

theorem audit_trailless (k d : Nat) (s : State) : trailless (audit k d s).mtr = trailless s.mtr := by
  unfold audit
  extract_lets m a s1
  have noted : trailless s1.mtr = trailless s.mtr := rfl
  split
  · exact noted
  · exact (meterRaise_trailless _ _ _ s1).trans noted

theorem audit_kind (k d : Nat) (s : State) : (audit k d s).mtr.audit.head?.map (·.kind) = some k := by
  obtain ⟨x, first, fields⟩ := Option.map_eq_some_iff.mp (audit_head k d s)
  rw [first, Option.map_some, (Prod.mk.inj fields).1]

/-- Outside the meter an audit record can only tell the Signal Box. -/
theorem audit_ilk (k d : Nat) (s : State) : (audit k d s).ilk = s.ilk :=
  (audit_within (.refl _ s) (List.Subset.refl _)).ilk_eq

/-! ### The key of the signer -/

theorem sealWith_seals (e : List Byte) (s : State) :
    (sealWith e s).mtr.state = 3 ∧ (sealWith e s).mtr.key = some (signerKey e) ∧
      (sealWith e s).mtr.fp = s.mtr.fp ∧ (sealWith e s).ilk = s.ilk ∧ (sealWith e s).mtr.map = s.mtr.map ∧
      (sealWith e s).mtr.audit.head?.map (·.kind) = some 3 := by
  unfold sealWith
  extract_lets k s1 h
  have rest := audit_trailless 3 (leAt h 0 8) s1
  have key : (audit 3 (leAt h 0 8) s1).mtr.key = some k :=
      (trailless_field Meter.key (fun _ => rfl) rest).trans rfl
  have fp : (audit 3 (leAt h 0 8) s1).mtr.fp = s1.mtr.fp :=
      (trailless_field Meter.fp (fun _ => rfl) rest).trans rfl
  have map : (audit 3 (leAt h 0 8) s1).mtr.map = s1.mtr.map :=
      (trailless_field Meter.map (fun _ => rfl) rest).trans rfl
  exact ⟨rfl, key, fp, audit_ilk 3 (leAt h 0 8) s1, map, audit_kind 3 (leAt h 0 8) s1⟩

/-- An attempt at key generation with a healthy source that holds 48 bytes. -/
theorem tryClosing_seals {s : State} (hruns : meterRuns s = true) (hstate : s.mtr.state = 2) (hcore : s.core = true)
    (htrng : s.ilk.trng = 1) (hbytes : 48 ≤ s.ilk.entropy.length) :
    tryClosing s = sealWith (s.ilk.entropy.take 48) { modMeter (fun m => { m with tryAt := s.now }) s with
      ilk := { s.ilk with entropy := s.ilk.entropy.drop 48 } } := by
  have healthy : (s.core && s.ilk.trng == 1) = true := by
    rw [hcore, htrng]
    rfl
  have served : (meterRuns s && s.mtr.state == 2 && s.core && s.ilk.trng == 1 &&
      decide (48 ≤ s.ilk.entropy.length)) = true := by
    rw [hruns, hstate, hcore, htrng, decide_eq_true hbytes]
    rfl
  have tries : tryClosing s = serveMeter (modMeter (fun m => { m with tryAt := s.now }) s) := if_pos healthy
  exact tries.trans (if_pos served)

theorem meterRuns_porst {s : State} (h : meterRuns s = true) : s.pins.porstN = true := by
  simp only [meterRuns, Bool.and_eq_true] at h
  exact h.1.1

theorem exec_sealClose {s : State} (hruns : meterRuns s = true) (hopen : s.mtr.sealOpen = true)
    (hstate : s.mtr.state = 1) :
    exec .sealClose s = .next (tryClosing { s with mtr := { s.mtr with
      sealOpen := false, state := 2, closeTold := false,
      fp := sha256 (wordsBytes s.mtr.map ++ wordBytes s.ttb.cfg ++ runningHash s.mtr) } }) := by
  have unfolded : exec .sealClose s = .next (when s.pins.porstN sealClosed s) := rfl
  have runs : meterRuns (modMeter (fun m => { m with sealOpen := false }) s) = true := hruns
  have open_ : (modMeter (fun m => { m with sealOpen := false }) s).mtr.state = 1 := hstate
  rw [unfolded, meterRuns_porst hruns, when_true, sealClosed]
  simp only [hopen, runs, if_true, closeSeal, open_]
  rfl

/-- The seal is not open: a meter that is not open stays as it is. -/
theorem closeSeal_other {s : State} (h : s.mtr.state ≠ 1) : closeSeal s = s := if_neg h

end Sys2Proof.Machine

namespace Sys2Proof.Claims

open Sys2Proof.Machine

theorem sealOpensAndCloses : Seal := by
  refine ⟨fun s hruns hopen => ?_, fun s hruns hopen hstate hcore htrng hbytes => ?_,
    fun s hruns hopen hstate hcore htrng => ?_, fun s hruns hstate htime hcore htrng hbytes => ?_⟩
  · let opened : State := modMeter (fun m => { m with key := none, seals := sat 32 (m.seals + 1) })
      (modMeter (fun m => { m with sealOpen := true }) s)
    have acts : exec .sealOpen s =
        .next (modMeter (fun m => { m with state := 1, latchedIn := false }) (audit 2 0 opened)) := by
      have unfolded : exec .sealOpen s = .next (when s.pins.porstN sealOpened s) := rfl
      have runs : meterRuns (modMeter (fun m => { m with sealOpen := true }) s) = true := hruns
      rw [unfolded, meterRuns_porst hruns, when_true, sealOpened]
      simp only [hopen, Bool.false_eq_true, if_false, runs, if_true]
      rfl
    have rest := audit_trailless 2 0 opened
    have key : (audit 2 0 opened).mtr.key = none :=
      (trailless_field Meter.key (fun _ => rfl) rest).trans rfl
    have seals : (audit 2 0 opened).mtr.seals = min (2 ^ 32 - 1) (s.mtr.seals + 1) :=
      (trailless_field Meter.seals (fun _ => rfl) rest).trans rfl
    have sealOpen : (audit 2 0 opened).mtr.sealOpen = true :=
      (trailless_field Meter.sealOpen (fun _ => rfl) rest).trans rfl
    have map : (audit 2 0 opened).mtr.map = s.mtr.map :=
      (trailless_field Meter.map (fun _ => rfl) rest).trans rfl
    have tally : (audit 2 0 opened).mtr.tally = s.mtr.tally :=
      (trailless_field Meter.tally (fun _ => rfl) rest).trans rfl
    exact ⟨_, acts, key, rfl, seals, sealOpen, map, tally, audit_kind 2 0 opened⟩
  · have acts := exec_sealClose hruns hopen hstate
    rw [tryClosing_seals (s := { s with mtr := { s.mtr with
      sealOpen := false, state := 2, closeTold := false,
      fp := sha256 (wordsBytes s.mtr.map ++ wordBytes s.ttb.cfg ++ runningHash s.mtr) } })
      hruns rfl hcore htrng hbytes] at acts
    obtain ⟨state, key, fp, ilk, map, kind⟩ := sealWith_seals (s.ilk.entropy.take 48)
      { modMeter (fun m => { m with tryAt := s.now }) { s with mtr := { s.mtr with
          sealOpen := false, state := 2, closeTold := false,
          fp := sha256 (wordsBytes s.mtr.map ++ wordBytes s.ttb.cfg ++ runningHash s.mtr) } } with
        ilk := { s.ilk with entropy := s.ilk.entropy.drop 48 } }
    exact ⟨_, acts, state, key, fp, congrArg Interlock.entropy ilk, map, kind⟩
  · let closing : State := { s with mtr := { s.mtr with
      sealOpen := false, state := 2, closeTold := true, tryAt := s.now,
      fp := sha256 (wordsBytes s.mtr.map ++ wordBytes s.ttb.cfg ++ runningHash s.mtr) } }
    have waits : tryClosing { s with mtr := { s.mtr with
        sealOpen := false, state := 2, closeTold := false,
        fp := sha256 (wordsBytes s.mtr.map ++ wordBytes s.ttb.cfg ++ runningHash s.mtr) } } =
        closing.raise 2 0x14 0 s.mtr.seals := by
      have sick : ¬ (s.core && s.ilk.trng == 1) = true := by simp [htrng]
      refine (if_neg sick).trans ((if_neg Bool.false_ne_true).trans (if_pos ?_))
      exact hcore
    have core : closing.core = true := hcore
    have acts := (exec_sealClose hruns hopen hstate).trans (congrArg next waits)
    rw [State.raise_core core] at acts
    exact ⟨_, acts, rfl, rfl, rfl, rfl⟩
  · have acts : exec .meterClosingRetry s = .next (tryClosing s) := by
      have unfolded : exec .meterClosingRetry s = .next (when
        (meterRuns s && s.mtr.state == 2 && decide (s.mtr.tryAt + 10000000 ≤ s.now)) tryClosing s) := rfl
      rw [unfolded, hruns, hstate, decide_eq_true (show s.mtr.tryAt + 10000000 ≤ s.now from htime)]
      rfl
    rw [tryClosing_seals hruns hstate hcore htrng hbytes] at acts
    obtain ⟨state, key, -⟩ := sealWith_seals (s.ilk.entropy.take 48)
      { modMeter (fun m => { m with tryAt := s.now }) s with ilk := { s.ilk with entropy := s.ilk.entropy.drop 48 } }
    exact ⟨_, acts, state, key⟩

theorem meterCore : MeterCore := by
  refine ⟨fun s hporst hready hrst => ?_, fun s => rfl, fun s hporst hrst hready himg hseal hstate => ?_,
    fun s hruns hcore => ?_⟩
  · let begun : State := modMeter (fun m => { m with ready := true }) s
    have acts : exec .meterReady s = .next (modMeter (fun m => { m with state := if m.sealOpen then 1 else 0 })
        (audit 1 s.mtr.version begun)) := by
      have unfolded : exec .meterReady s =
        .next (when (s.pins.porstN && !s.mtr.ready && !s.mtr.inReset) meterReady s) := rfl
      rw [unfolded, hporst, hready, hrst]
      rfl
    have rest := audit_trailless 1 s.mtr.version begun
    have ready : (audit 1 s.mtr.version begun).mtr.ready = true :=
      (trailless_field Meter.ready (fun _ => rfl) rest).trans rfl
    have level : (audit 1 s.mtr.version begun).mtr.sealOpen = s.mtr.sealOpen :=
      (trailless_field Meter.sealOpen (fun _ => rfl) rest).trans rfl
    have state : (if (audit 1 s.mtr.version begun).mtr.sealOpen then 1 else 0) = if s.mtr.sealOpen then 1 else 0 := by
      rw [level]
    exact ⟨_, acts, ready, state, audit_head 1 s.mtr.version begun⟩
  · let begun : State := modMeter (fun m => chooseImage { m with inReset := false })
      { s with pins := { s.pins with mtrRstN := true } }
    have chosen : begun.mtr = { s.mtr with
        inReset := false, romImage := true, version := 0x0103_0000, imgHash := [] } :=
      if_neg (Bool.eq_false_iff.mp himg)
    have rest : trailless (audit 7 begun.mtr.version begun).mtr = trailless { s.mtr with
        inReset := false, romImage := true, version := 0x0103_0000, imgHash := [] } :=
      (audit_trailless 7 begun.mtr.version begun).trans (congrArg trailless chosen)
    have sealed_ : (audit 7 begun.mtr.version begun).mtr.sealOpen = false :=
      (trailless_field Meter.sealOpen (fun _ => rfl) rest).trans hseal
    have state : (audit 7 begun.mtr.version begun).mtr.state = s.mtr.state :=
      (trailless_field Meter.state (fun _ => rfl) rest).trans rfl
    have ready : begun.mtr.ready = true := (congrArg Meter.ready chosen).trans hready
    have acts : exec .mtrRstRelease s = .next (audit 7 begun.mtr.version begun) := by
      have guard : (s.pins.porstN && s.mtr.inReset) = true := by rw [hporst, hrst]; rfl
      have releases : meterRelease { s with pins := { s.pins with mtrRstN := true } } =
          audit 7 begun.mtr.version begun := by
        have notOpened : ¬ ((audit 7 begun.mtr.version begun).mtr.sealOpen &&
            (audit 7 begun.mtr.version begun).mtr.state != 1) = true := by simp [sealed_]
        have closes : (!(audit 7 begun.mtr.version begun).mtr.sealOpen) = true := by simp [sealed_]
        exact (if_pos ready).trans ((if_neg notOpened).trans ((if_pos closes).trans
          (closeSeal_other (fun h => hstate (state.symm.trans h)))))
      exact congrArg next ((if_pos guard).trans releases)
    have pins : (audit 7 begun.mtr.version begun).pins = begun.pins :=
      (audit_within (.refl _ begun) (List.Subset.refl _)).pins_eq
    have inReset : (audit 7 begun.mtr.version begun).mtr.inReset = false :=
      (trailless_field Meter.inReset (fun _ => rfl) rest).trans rfl
    have rom : (audit 7 begun.mtr.version begun).mtr.romImage = true :=
      (trailless_field Meter.romImage (fun _ => rfl) rest).trans rfl
    have key : (audit 7 begun.mtr.version begun).mtr.key = s.mtr.key :=
      (trailless_field Meter.key (fun _ => rfl) rest).trans rfl
    have tally : (audit 7 begun.mtr.version begun).mtr.tally = s.mtr.tally :=
      (trailless_field Meter.tally (fun _ => rfl) rest).trans rfl
    exact ⟨_, acts, (congrArg Pins.mtrRstN pins).trans rfl, inReset, rom, state, key, tally,
      audit_kind 7 begun.mtr.version begun⟩
  · have unfolded : exec .meterCoreStall s = .next (when (meterRuns s) (meterRaise 0x15 0 0) s) := rfl
    rw [unfolded, hruns, when_true, meterRaise, if_pos hcore, State.raise_core hcore]

end Sys2Proof.Claims
end

section
open Sys2Proof Sys2Proof.Machine Sys2Proof.Claims

/-- Settles O33: an audit record touches the trail alone, so each change of the seal keeps what it set before it. -/
theorem sealedMeter : Obligations.SealedMeter := ⟨sealOpensAndCloses, meterCore⟩
end

section
/-! PROOFS. O34: meter configuration and the meter image (R78, R323, R324, R331). -/

namespace Sys2Proof.Machine

open Sys2Proof.Claims

/-- The state in which tally `k` has its new mapping, before the audit record. -/
def mapped (k : Nat) (w : Word) (s : State) : State :=
  modMeter (fun m =>
    { m with map := m.map.set k w, tally := m.tally.set k Tally.reset, forming := m.forming.set k Tally.reset }) s

/-- A mapping that changes is set, its tally is reset, and an audit record follows. -/
theorem applyMap_changed {s : State} {k : Nat} {x : Word} (h : clampMap x ≠ s.mtr.map.getD k 0) :
    ∃ d, applyMap k x s = audit 4 d (mapped k (clampMap x) s) :=
  ⟨_, if_neg h⟩

theorem applyTtbCfg_changed {s : State} {x : Word} (h : clampTtbCfg x ≠ s.ttb.cfg) :
    applyTtbCfg x s = audit 5 (clampTtbCfg x).toNat { s with ttb := { s.ttb with cfg := clampTtbCfg x } } :=
  if_neg h

/-- What a refused write leaves of the configuration, and the record that it leaves. -/
theorem refuseWrite_leaves (src : Nat) (s : State) :
    (refuseWrite src s).mtr.map = s.mtr.map ∧ (refuseWrite src s).mtr.tally = s.mtr.tally ∧
      (refuseWrite src s).mtr.audit.head?.map (·.kind) = some 8 := by
  unfold refuseWrite
  extract_lets r
  obtain ⟨map, tally, kind⟩ : r.mtr.map = s.mtr.map ∧ r.mtr.tally = s.mtr.tally ∧
      r.mtr.audit.head?.map (·.kind) = some 8 := by
    dsimp only [r]
    split
    next m' merged =>
      have only := mergeRefusal_eq merged
      obtain ⟨x, first, fields⟩ := Option.map_eq_some_iff.mp (mergeRefusal_head merged)
      refine ⟨by rw [only], by rw [only], ?_⟩
      rw [first, Option.map_some, (Prod.mk.inj fields).1]
    · have rest := audit_trailless 8 (src * 2 ^ 62 + 1) s
      exact ⟨trailless_field Meter.map (fun _ => rfl) rest, trailless_field Meter.tally (fun _ => rfl) rest,
        audit_kind 8 (src * 2 ^ 62 + 1) s⟩
  have raised : Within [.inbox] r r := .refl _ r
  have told := meterRaise_trailless 0x16 0 (src * 2 ^ 62 + 1) r
  have trail : (meterRaise 0x16 0 (src * 2 ^ 62 + 1) r).mtr.audit = r.mtr.audit := by
    unfold meterRaise
    split
    · rw [(State.raise_within raised).mtr_eq]
    · rfl
  exact ⟨(trailless_field Meter.map (fun _ => rfl) told).trans map,
    (trailless_field Meter.tally (fun _ => rfl) told).trans tally, trail ▸ kind⟩

theorem refuseWrite_within {l : List Place} {s t : State} (src : Nat) (h : Within l s t)
    (hl : [.inbox, .mtr] ⊆ l := by decide) : Within l s (refuseWrite src t) := by
  refine .lift hl h fun h => ?_
  unfold refuseWrite
  refine meterRaise_within ?_
  split
  · exact .upd h
  · exact audit_within h

theorem setTtbCfg_within {l : List Place} {s t : State} (w : Word) (h : Within l s t) (hl : [.ttb] ⊆ l := by decide) :
    Within l s { t with ttb := { t.ttb with cfg := w } } :=
  .lift hl h fun h => .upd h

theorem meterWrite_open {s : State} (hcore : s.core = true) (h : meterOpen s = true) (act : State → State) :
    meterWrite 0xFF act s = act s := by
  rw [meterWrite, hcore, h]
  rfl

theorem meterWrite_shut {s : State} (hcore : s.core = true) (h : meterOpen s = false) (act : State → State) :
    meterWrite 0xFF act s = refuseWrite 1 s := by
  rw [meterWrite, hcore, h]
  rfl

end Sys2Proof.Machine

namespace Sys2Proof.Claims

open Sys2Proof.Machine

/-- A command that has written the meter alone is told as from the state before it. -/
theorem complete_sdg {s u : State} {op w : Nat} {pk : List Word} (hissues : Issues op w pk s)
    (h : Within [.ttb, .inbox, .mtr] (taken w s) u) (status result : Nat) (result2 : Word) :
    (u.complete (ticketOf w pk) status result result2).sdg = (told w pk status result result2 s).sdg := by
  have wins : u.win w = (taken w s).win w := congrArg (fun l : List CmdWin => l.getD w CmdWin.reset) h.wins_eq
  have live : (u.siding (u.win w).compl).state = 1 := by
    rw [State.siding, h.sdg_eq, wins]
    exact taken_compl_live hissues
  rw [complete_eq_told live]
  exact told_sdg_congr (s := s) (t := u) (h.sdg_eq.trans rfl) ((congrArg CmdWin.compl wins).trans (taken_win_compl w s))
    pk status result result2

theorem complete_mtr (u : State) (t : Ticket) (status result : Nat) (result2 : Word) :
    (u.complete t status result result2).mtr = u.mtr :=
  (State.complete_within (.refl _ u) (List.Subset.refl _)).mtr_eq

theorem complete_ttb (u : State) (t : Ticket) (status result : Nat) (result2 : Word) :
    (u.complete t status result result2).ttb = u.ttb :=
  (State.complete_within (.refl _ u) (List.Subset.refl _)).ttb_eq

theorem getD_set_self {α : Type} {l : List α} {k : Nat} {x : α} (d : α) (h : k < l.length) :
    (l.set k x).getD k d = x := by
  simp [List.getD_eq_getElem?_getD, h]

theorem mtrMap_open {s : State} {pk : List Word} {k : Nat} (hissues : Issues 0xA2 16 pk s) (hopen : meterOpen s = true)
    (hk : k = fld (pk.getD 0 0) 0 8) (hmap : s.mtr.map.length = 256)
    (hx : clampMap (pk.getD 1 0) ≠ s.mtr.map.getD k 0) :
    Answers (.mtrMap 16) s fun t =>
      t.mtr.map = s.mtr.map.set k (clampMap (pk.getD 1 0)) ∧ t.mtr.tally = s.mtr.tally.set k Tally.reset ∧
      (t.mtr.audit.head?.map (·.kind)) = some 4 ∧
      t.sdg = (told 16 pk 0 k (clampMap (pk.getD 1 0)) s).sdg := by
  have acts : exec (.mtrMap 16) s = .next (mtrMap pk (ticketOf 16 pk) (taken 16 s)) :=
    congrArg next (issue_of_issues hissues)
  have open_ : meterOpen (taken 16 s) = true := hopen
  have index : param pk 0 8 = k := hk.symm
  have inRange : k < s.mtr.map.length := by
    have small := fld_lt (pk.getD 0 0) 0 8
    omega
  obtain ⟨d, sets⟩ := applyMap_changed (s := taken 16 s) (k := k) (x := pk.getD 1 0) hx
  obtain ⟨u, hu⟩ : ∃ u, u = audit 4 d (mapped k (clampMap (pk.getD 1 0)) (taken 16 s)) := ⟨_, rfl⟩
  have rest : trailless u.mtr = trailless (mapped k (clampMap (pk.getD 1 0)) (taken 16 s)).mtr :=
    hu ▸ audit_trailless 4 d _
  have map : u.mtr.map = s.mtr.map.set k (clampMap (pk.getD 1 0)) :=
    (trailless_field Meter.map (fun _ => rfl) rest).trans rfl
  have tally : u.mtr.tally = s.mtr.tally.set k Tally.reset :=
    (trailless_field Meter.tally (fun _ => rfl) rest).trans rfl
  have only : Within [.ttb, .inbox, .mtr] (taken 16 s) u := hu ▸ audit_within (.upd (.refl _ _))
  have answers : mtrMap pk (ticketOf 16 pk) (taken 16 s) =
      u.complete (ticketOf 16 pk) 0 k (clampMap (pk.getD 1 0)) := by
    have read : u.mtr.map.getD k 0 = clampMap (pk.getD 1 0) := by rw [map, getD_set_self _ inRange]
    rw [mtrMap, if_pos open_, index, show pw pk 1 = pk.getD 1 0 from rfl, sets, ← hu]
    dsimp only
    rw [read]
    rfl
  refine ⟨_, acts.trans (congrArg next answers), (congrArg Meter.map (complete_mtr ..)).trans map,
    (congrArg Meter.tally (complete_mtr ..)).trans tally, ?_, complete_sdg hissues only _ _ _⟩
  rw [complete_mtr, hu]
  exact audit_kind 4 d _

theorem ttbSet_open {s : State} {pk : List Word} (hissues : Issues 0xA3 16 pk s) (hopen : meterOpen s = true)
    (hx : clampTtbCfg (pk.getD 1 0) ≠ s.ttb.cfg) :
    Answers (.ttbSet 16) s fun t =>
      t.ttb = { s.ttb with cfg := clampTtbCfg (pk.getD 1 0) } ∧ (t.mtr.audit.head?.map (·.kind)) = some 5 ∧
      t.sdg = (told 16 pk 0 0 (clampTtbCfg (pk.getD 1 0)) s).sdg := by
  have acts : exec (.ttbSet 16) s = .next (ttbSet pk (ticketOf 16 pk) (taken 16 s)) :=
    congrArg next (issue_of_issues hissues)
  have open_ : meterOpen (taken 16 s) = true := hopen
  have sets := applyTtbCfg_changed (s := taken 16 s) (x := pk.getD 1 0) hx
  obtain ⟨u, hu⟩ : ∃ u, u = audit 5 (clampTtbCfg (pk.getD 1 0)).toNat
    { taken 16 s with ttb := { (taken 16 s).ttb with cfg := clampTtbCfg (pk.getD 1 0) } } := ⟨_, rfl⟩
  have only : Within [.ttb, .inbox, .mtr] (taken 16 s) u := by
    rw [hu]
    exact audit_within (setTtbCfg_within _ (.refl _ _))
  have ttb : u.ttb = { s.ttb with cfg := clampTtbCfg (pk.getD 1 0) } := by
    rw [hu]
    exact (audit_within (.refl _ _) (List.Subset.refl _)).ttb_eq
  have cfg : u.ttb.cfg = clampTtbCfg (pk.getD 1 0) := congrArg Timetable.cfg ttb
  have answers : ttbSet pk (ticketOf 16 pk) (taken 16 s) =
      u.complete (ticketOf 16 pk) 0 0 (clampTtbCfg (pk.getD 1 0)) := by
    rw [ttbSet, if_pos open_, show pw pk 1 = pk.getD 1 0 from rfl, sets, ← hu, ← cfg]
    rfl
  refine ⟨_, acts.trans (congrArg next answers), (complete_ttb ..).trans ttb, ?_, complete_sdg hissues only _ _ _⟩
  rw [complete_mtr, hu]
  exact audit_kind 5 _ _

theorem mtrMapWrite_open {s : State} {k : Nat} {x : BitVec 64} (hcore : s.core = true) (hopen : meterOpen s = true)
    (hk : k < 256) (hx : clampMap x ≠ s.mtr.map.getD k 0) :
    Answers (.mtrMapWrite k x 0xFF) s fun t =>
      t.mtr.map = s.mtr.map.set k (clampMap x) ∧ t.mtr.tally = s.mtr.tally.set k Tally.reset ∧ t.ttb = s.ttb := by
  obtain ⟨d, sets⟩ := applyMap_changed hx
  have acts : exec (.mtrMapWrite k x 0xFF) s = .next (audit 4 d (mapped k (clampMap x) s)) := by
    have unfolded : exec (.mtrMapWrite k x 0xFF) s =
        .next (when (decide (k < 256)) (meterWrite 0xFF (applyMap k x)) s) := rfl
    rw [unfolded, decide_eq_true hk, when_true, meterWrite_open hcore hopen, sets]
  have rest := audit_trailless 4 d (mapped k (clampMap x) s)
  exact ⟨_, acts, (trailless_field Meter.map (fun _ => rfl) rest).trans rfl,
    (trailless_field Meter.tally (fun _ => rfl) rest).trans rfl,
    (audit_within (.refl _ (mapped k (clampMap x) s)) (List.Subset.refl _)).ttb_eq⟩

theorem ttbCfgWrite_open {s : State} {x : BitVec 64} (hcore : s.core = true) (hopen : meterOpen s = true)
    (hx : clampTtbCfg x ≠ s.ttb.cfg) :
    Answers (.ttbCfgWrite x 0xFF) s fun t => t.ttb = { s.ttb with cfg := clampTtbCfg x } ∧ t.mtr.map = s.mtr.map := by
  have acts : exec (.ttbCfgWrite x 0xFF) s = .next (audit 5 (clampTtbCfg x).toNat
      { s with ttb := { s.ttb with cfg := clampTtbCfg x } }) := by
    have unfolded : exec (.ttbCfgWrite x 0xFF) s = .next (meterWrite 0xFF (applyTtbCfg x) s) := rfl
    rw [unfolded, meterWrite_open hcore hopen, applyTtbCfg_changed hx]
  have rest := audit_trailless 5 (clampTtbCfg x).toNat { s with ttb := { s.ttb with cfg := clampTtbCfg x } }
  exact ⟨_, acts, (audit_within (.refl _ _) (List.Subset.refl _)).ttb_eq,
    (trailless_field Meter.map (fun _ => rfl) rest).trans rfl⟩

theorem mtrMapWrite_shut {s : State} {k : Nat} (x : BitVec 64) (hcore : s.core = true) (hshut : meterOpen s = false)
    (hk : k < 256) :
    Answers (.mtrMapWrite k x 0xFF) s fun t =>
      t.mtr.map = s.mtr.map ∧ t.mtr.tally = s.mtr.tally ∧ (t.mtr.audit.head?.map (·.kind)) = some 8 := by
  have acts : exec (.mtrMapWrite k x 0xFF) s = .next (refuseWrite 1 s) := by
    have unfolded : exec (.mtrMapWrite k x 0xFF) s =
        .next (when (decide (k < 256)) (meterWrite 0xFF (applyMap k x)) s) := rfl
    rw [unfolded, decide_eq_true hk, when_true, meterWrite_shut hcore hshut]
  exact ⟨_, acts, refuseWrite_leaves 1 s⟩

theorem mtrMap_shut {s : State} {pk : List Word} (hissues : Issues 0xA2 16 pk s) (hshut : meterOpen s = false) :
    Answers (.mtrMap 16) s fun t => t.mtr.map = s.mtr.map ∧ t.sdg = (told 16 pk 5 0 0 s).sdg := by
  have acts : exec (.mtrMap 16) s = .next (mtrMap pk (ticketOf 16 pk) (taken 16 s)) :=
    congrArg next (issue_of_issues hissues)
  have shut : ¬ meterOpen (taken 16 s) = true := Bool.eq_false_iff.mp hshut
  have answers : mtrMap pk (ticketOf 16 pk) (taken 16 s) =
      (refuseWrite 0 (taken 16 s)).complete (ticketOf 16 pk) 5 0 0 := if_neg shut
  obtain ⟨map, -, -⟩ := refuseWrite_leaves 0 (taken 16 s)
  exact ⟨_, acts.trans (congrArg next answers), (congrArg Meter.map (complete_mtr ..)).trans map,
    complete_sdg hissues (refuseWrite_within 0 (.refl _ _)) _ _ _⟩

theorem meterConfiguration : MeterConfiguration :=
  ⟨fun _ _ _ hissues hopen hk hmap _ hx => mtrMap_open hissues hopen hk hmap hx,
    fun _ _ hissues hopen hx => ttbSet_open hissues hopen hx,
    fun _ _ _ hcore hopen hk hx => mtrMapWrite_open hcore hopen hk hx,
    fun _ _ hcore hopen hx => ttbCfgWrite_open hcore hopen hx,
    fun _ _ x hcore hshut hk => mtrMapWrite_shut x hcore hshut hk,
    fun _ _ hissues hshut => mtrMap_shut hissues hshut⟩

theorem meterImage : MeterImage := by
  refine ⟨fun s x hcore hopen hbit => ?_, fun s x hcore hopen hlen => ?_⟩
  · have unfolded : exec (.mtrImgCtlBegin x 0xFF) s =
        .next (meterWrite 0xFF (fun s => if bit x 0 then emptyStore s else s) s) := rfl
    rw [unfolded, meterWrite_open hcore hopen]
    exact congrArg next (if_pos hbit)
  · have unfolded : exec (.mtrImgDataWrite x 0xFF) s = .next (meterWrite 0xFF (appendStore x) s) := rfl
    have bytes : (s.mtr.img ++ wordBytes x).length = s.mtr.img.length + 8 := List.length_append
    have fits : (s.mtr.img ++ wordBytes x).take storeSize = s.mtr.img ++ wordBytes x := by
      refine List.take_of_length_le ?_
      rw [bytes, storeSize]
      omega
    have short : ∀ m : Meter, m.img.length < 128 → (m.imgValid || m.imgFail ||
        decide (m.img.length < 128 + min 65536 (imageLen m.img)) || decide (m.img.length < 128)) = true := by
      intro m hm
      rw [decide_eq_true hm, Bool.or_true]
    rw [unfolded, meterWrite_open hcore hopen, appendStore]
    refine congrArg next ?_
    simp only [modMeter, fits]
    exact if_pos (short _ (bytes ▸ hlen))

end Sys2Proof.Claims
end

section
open Sys2Proof Sys2Proof.Machine Sys2Proof.Claims

/-- Settles O34: a change writes the configuration and then an audit record, a refusal the audit trail alone. -/
theorem meterConfigured : Obligations.MeterConfigured := ⟨meterConfiguration, meterImage⟩
end

section
/-! PROOFS. O36: a producer's item enters a siding word by word (R149, R151). -/

namespace Sys2Proof.Machine

theorem exec_sidingWordWrite {s : State} (hcore : s.core = true) (sid : Nat) :
    exec (.sidingWordWrite sid) s = .next (sidingWordWrite sid s) := by
  have unfolded : exec (.sidingWordWrite sid) s = .next (when s.core (sidingWordWrite sid) s) := rfl
  rw [unfolded, hcore, when_true]

theorem exec_sidingItemClose {s : State} (hcore : s.core = true) (sid : Nat) :
    exec (.sidingItemClose sid) s = .next (sidingItemClose sid s) := by
  have unfolded : exec (.sidingItemClose sid) s = .next (when s.core (sidingItemClose sid) s) := rfl
  rw [unfolded, hcore, when_true]

/-- A length word without its two marks (Table 08-2). -/
theorem lengthWord_plain (k : ItemKind) (src seq words : Nat) :
    lengthWord false false k src seq words = Claims.lengthOf (kindCode k) src seq words := by
  simp [lengthWord, Claims.lengthOf, pack, packN, b2n]

/-- With no room no word goes in. -/
theorem sidingWordWrite_full {s : State} {sid : Nat} (habandoned : (s.siding sid).abandoned = false)
    (hfree : (s.siding sid).free = 0) : sidingWordWrite sid s = s := by
  unfold sidingWordWrite
  simp only [habandoned, hfree]
  split
  · rfl
  · simp

end Sys2Proof.Machine

section
open Sys2Proof Sys2Proof.Machine Sys2Proof.Claims

/-- Settles O36: each word takes the branch that the siding's state gives it. -/
theorem sidingProducer : Obligations.SidingProducer := by
  refine ⟨fun s sid it r hcore hq hlive habandoned hopen hfree => ?_,
    fun s sid it r hcore hq hlive habandoned hopen hstored hfree => ?_, fun s sid habandoned hfree => ?_,
    fun s sid it r hcore hq hlive habandoned hopen hstored => ?_,
    fun s sid it r hcore hq hlive habandoned hstored => ?_⟩
  · have room : ¬ (s.siding sid).free < 1 := Nat.not_lt.mpr hfree
    rw [exec_sidingWordWrite hcore, sidingWordWrite, hq]
    simp [hlive, habandoned, hopen, room]
  · rw [exec_sidingWordWrite hcore, sidingWordWrite, hq]
    simp [hlive, habandoned, hopen, hstored, hfree]
  · have unfolded : exec (.sidingWordWrite sid) s = .next (when s.core (sidingWordWrite sid) s) := rfl
    rw [unfolded]
    cases s.core
    · rfl
    · rw [when_true, sidingWordWrite_full habandoned hfree]
  · rw [exec_sidingItemClose hcore, sidingItemClose, hq]
    simp [hlive, habandoned, hopen, hstored, lengthWord_plain]
  · rw [exec_sidingItemClose hcore, sidingItemClose, hq]
    simp [hlive, habandoned, hstored]
end
end

section
/-! PROOFS. O37: a withdrawn item of a kind that no producer writes comes back as a record (R160, Table 08-4). -/

namespace Sys2Proof.Machine

/-- A siding of Root with one whole item of kind 3 at rd_ptr: a length word of one content word, and that word. -/
def fillerAtRead : State :=
  { State.reset with
    pins := { Pins.reset with porstN := true }
    sdg := { State.reset.sdg with
      desc := State.reset.sdg.desc.set 0 { Siding.reset with state := 1, autoRel := false, wr := 2 }
      pool := [(0, 0x3000000000000001#64)] } }

end Sys2Proof.Machine
end

section
open Sys2Proof Sys2Proof.Machine Sys2Proof.Claims

/-- Refutes O37: the item at rd_ptr has kind 3, and its replacement is a LOSS record, of kind 0. -/
theorem not_sidingPop : ¬ Obligations.SidingPop := by
  rintro ⟨-, -, -, -, -, withdraws⟩
  have runs : fillerAtRead.core = true := by decide +kernel
  have slot : slotSiding fillerAtRead 16 0 = some 0 := by decide +kernel
  obtain ⟨t, acts, -, kind, -⟩ := withdraws fillerAtRead 16 0 0 1 runs slot (by decide +kernel) rfl rfl
    (by decide +kernel) (by decide +kernel) rfl (Nat.le_refl 1) (by decide +kernel)
  have pops : exec (.sdgPop 16 0 [] [1]) fillerAtRead = .next (sdgPop 16 0 ⟨[], [1]⟩ fillerAtRead) :=
    congrArg next (if_pos runs)
  have same : sdgPop 16 0 ⟨[], [1]⟩ fillerAtRead = t := Host.Outcome.next.inj (pops.symm.trans acts)
  have record : fld (sdgPop 16 0 ⟨[], [1]⟩ fillerAtRead).pins.regData 60 2 = 0 := by decide +kernel
  have filler :
      fld (look 0 ((fillerAtRead.siding 0).index (fillerAtRead.siding 0).rd) fillerAtRead.sdg.pool) 60 2 = 3 := by
    decide +kernel
  rw [same, kind, filler] at record
  exact absurd record (by decide)
end

section
/-! PROOFS. O39: SDG_REWIND and SDG_RELEASE (R155, R156, R162). -/

namespace Sys2Proof.Machine

open Sys2Proof.Claims

theorem State.siding_modSdg_self {s : State} {i : Nat} (f : Siding → Siding) (h : i < s.sdg.desc.length) :
    (s.modSdg i f).siding i = { f (s.siding i) with xoff := xoffOf i (f (s.siding i)) } :=
  State.siding_modSiding_self s i _ h

theorem State.siding_modSdg_ne {s : State} {i j : Nat} (f : Siding → Siding) (h : i ≠ j) :
    (s.modSdg i f).siding j = s.siding j :=
  State.siding_modSiding_ne s _ h

/-- The packet of a siding command is taken, and its sender reaches the siding. -/
theorem taken_mayName {w sid : Nat} {s : State} (h : mayName w sid s) : mayName w sid (taken w s) := h

/-- After an update of a siding that keeps its state the completion siding of the window is live. -/
theorem compl_live_modSiding {op w : Nat} {pk : List Word} {s : State} (hissues : Issues op w pk s) (sid : Nat)
    {f : Siding → Siding} (hf : ∀ d, (f d).state = d.state) :
    (((taken w s).modSiding sid f).siding (((taken w s).modSiding sid f).win w).compl).state = 1 :=
  (State.state_siding_modSiding _ sid _ hf).trans (taken_compl_live hissues)

/-- A completion touches the queue of the completion siding alone. -/
theorem siding_told_other {s : State} {w i : Nat} (pk : List Word) (status result : Nat) (result2 : Word)
    (h : i ≠ (s.win w).compl) : (told w pk status result result2 s).siding i = s.siding i := by
  rw [told]
  split
  · exact State.siding_modSiding_ne s _ (Ne.symm h)
  · rfl

/-- A siding without its producer's queue. -/
def unqueued (d : Siding) : Siding := { d with prodq := [] }

theorem siding_told_unqueued (s : State) (w i : Nat) (pk : List Word) (status result : Nat) (result2 : Word) :
    unqueued ((told w pk status result result2 s).siding i) = unqueued (s.siding i) := by
  rw [told]
  split
  · have moved := State.siding_modSiding s (s.win w).compl i (fun d => { d with prodq := d.prodq ++ [
      { kind := .completion, src := 0x7F, seq := fld (pk.getD 0 0) 40 12,
        words := [pack [(56, 8, status), (40, 12, fld (pk.getD 0 0) 40 12), (32, 8, fld (pk.getD 0 0) 56 8),
          (0, 32, result)], result2] }] })
    refine (congrArg unqueued moved).trans ?_
    split <;> rfl
  · rfl

theorem told_pool (s : State) (w : Nat) (pk : List Word) (status result : Nat) (result2 : Word) :
    (told w pk status result result2 s).sdg.pool = s.sdg.pool := by
  rw [told]
  split <;> rfl

/-- A target between rel_ptr and rd_ptr is taken as it stands. -/
theorem clampRelease_between {d : Siding} {t : Nat} (hlt : t < d.ptrMod) (h : d.dist d.rel t ≤ d.dist d.rel d.rd) :
    clampRelease d t = t := by
  rw [clampRelease, Nat.mod_eq_of_lt hlt]
  exact if_pos h

theorem clampMemRd_between {d : Siding} {t : Nat}
    (h : (t + 2 ^ 32 - d.memRd % 2 ^ 32) % 2 ^ 32 ≤ (d.memWr + 2 ^ 32 - d.memRd % 2 ^ 32) % 2 ^ 32) :
    clampMemRd d t = t := if_pos h

/-- What a release leaves of a siding, and what it makes of the mark. -/
theorem releaseTo_releases (s : State) (target : Nat) (d : Siding) :
    (releaseTo s target d).rel = target ∧ (releaseTo s target d).rd = d.rd ∧ (releaseTo s target d).wr = d.wr ∧
      (releaseTo s target d).mark = d.mark ∧ (releaseTo s target d).state = d.state ∧
      (releaseTo s target d).memRd = d.memRd ∧
      (releaseTo s target d).markValid =
        (d.markValid && !(d.markValid && decide (d.dist d.rel d.mark < d.dist d.rel target))) ∧
      (releaseTo s target d).markLost =
        (d.markLost || (d.markValid && decide (d.dist d.rel d.mark < d.dist d.rel target))) := by
  unfold releaseTo
  extract_lets lost d'
  cases hl : lost with
  | true =>
    have here : d' = { d with markValid := false, markLost := true } := if_pos hl
    have passed : (d.markValid && decide (d.dist d.rel d.mark < d.dist d.rel target)) = true := hl
    simp [moveRel, here, passed]
  | false =>
    have here : d' = d := if_neg (Bool.eq_false_iff.mp hl)
    have kept : (d.markValid && decide (d.dist d.rel d.mark < d.dist d.rel target)) = false := hl
    simp [moveRel, here, kept]

end Sys2Proof.Machine

namespace Sys2Proof.Claims

open Sys2Proof.Machine

theorem sidingRewind : SidingRewind := by
  refine ⟨fun s w sid pk hissues hsid hmay hport hmark => ?_, fun s w sid pk hissues hsid hmay hport hmark => ?_⟩
  · have acts : exec (.sdgRewind w) s = .next (sdgRewind pk (ticketOf w pk) (taken w s)) :=
      congrArg next (issue_of_issues hissues)
    have port : ((taken w s).siding sid).consumer = 0 := hport
    have valid : ((taken w s).siding sid).markValid = true := hmark
    rw [acts, sdgRewind, onSiding_of_mayName _ hsid (taken_mayName hmay)]
    simp only [port, bne_self_eq_false, Bool.false_eq_true, if_false, valid, if_true]
    exact congrArg next (complete_eq_told (compl_live_modSiding hissues sid fun _ => rfl))
  · have acts : exec (.sdgRewind w) s = .next (sdgRewind pk (ticketOf w pk) (taken w s)) :=
      congrArg next (issue_of_issues hissues)
    have port : ((taken w s).siding sid).consumer = 0 := hport
    have invalid : ((taken w s).siding sid).markValid = false := hmark
    rw [acts, sdgRewind, onSiding_of_mayName _ hsid (taken_mayName hmay)]
    simp only [port, bne_self_eq_false, Bool.false_eq_true, if_false, invalid]
    exact congrArg next (complete_eq_told (compl_live_modSiding hissues sid fun _ => rfl))

theorem sdgRelease_port {s : State} {w sid target : Nat} {pk : List Word} (hissues : Issues 0x43 w pk s)
    (hsid : fld (pk.getD 0 0) 0 8 = sid) (hmay : mayName w sid s) (hport : (s.siding sid).consumer = 0)
    (htarget : target = if bit (pk.getD 0 0) 31 then (s.siding sid).rd else fld (pk.getD 0 0) 8 20)
    (hlt : target < (s.siding sid).ptrMod)
    (hbetween : (s.siding sid).dist (s.siding sid).rel target ≤
      (s.siding sid).dist (s.siding sid).rel (s.siding sid).rd) :
    exec (.sdgRelease w) s = .next (told w pk 0 target (BitVec.ofNat 64 (s.siding sid).memRd)
      ((taken w s).modSdg sid (releaseTo (taken w s) target))) := by
  have acts : exec (.sdgRelease w) s = .next (sdgRelease pk (ticketOf w pk) (taken w s)) :=
    congrArg next (issue_of_issues hissues)
  have port : ((taken w s).siding sid).consumer = 0 := hport
  have aims : (if paramBit pk 31 then ((taken w s).siding sid).rd
      else clampRelease ((taken w s).siding sid) (param pk 8 20)) = target := by
    by_cases h : bit (pk.getD 0 0) 31 = true
    · rw [if_pos h] at htarget
      exact (if_pos h).trans htarget.symm
    · rw [if_neg h] at htarget
      refine (if_neg h).trans ?_
      rw [show param pk 8 20 = target from htarget.symm]
      exact clampRelease_between hlt hbetween
  obtain ⟨rel, -, -, -, state, -⟩ := releaseTo_releases (taken w s) target (s.siding sid)
  have told_ : (((taken w s).modSdg sid (releaseTo (taken w s) target)).siding sid).rel = target := by
    have self := State.siding_modSdg_self (s := taken w s) (releaseTo (taken w s) target) (siding_lt_of_mayName hmay)
    exact (congrArg Siding.rel self).trans rel
  rw [acts, sdgRelease, onSiding_of_mayName _ hsid (taken_mayName hmay)]
  simp only [port, if_true, aims, told_]
  refine congrArg next (complete_eq_told (compl_live_modSiding hissues sid fun d => ?_))
  exact (releaseTo_releases (taken w s) target d).2.2.2.2.1

theorem sidingRelease : SidingRelease := by
  refine ⟨fun s w sid target pk hissues hsid hmay hport htarget hlt hbetween => ?_,
    fun s w sid target pk hissues hsid hmay hmem hflag hzero htarget hbetween => ?_⟩
  · have acts := sdgRelease_port hissues hsid hmay hport htarget hlt hbetween
    obtain ⟨rel, rd, wr, mark, -, -, valid, lost⟩ := releaseTo_releases (taken w s) target (s.siding sid)
    obtain ⟨u, hu⟩ : ∃ u, u = (taken w s).modSdg sid (releaseTo (taken w s) target) := ⟨_, rfl⟩
    rw [← hu] at acts
    have compl : (u.win w).compl = (s.win w).compl := hu ▸ taken_win_compl w s
    have self : u.siding sid = { releaseTo (taken w s) target (s.siding sid) with
        xoff := xoffOf sid (releaseTo (taken w s) target (s.siding sid)) } :=
      hu ▸ State.siding_modSdg_self _ (siding_lt_of_mayName hmay)
    have same := (siding_told_unqueued u w sid pk 0 target (BitVec.ofNat 64 (s.siding sid).memRd)).trans
      (congrArg unqueued self)
    have pool : u.sdg.pool = s.sdg.pool := hu ▸ rfl
    refine ⟨_, acts, (congrArg Siding.rel same).trans rel, (congrArg Siding.rd same).trans rd,
      (congrArg Siding.wr same).trans wr, (congrArg Siding.mark same).trans mark, (told_pool ..).trans pool,
      ⟨(congrArg Siding.markValid same).trans valid, (congrArg Siding.markLost same).trans lost⟩, fun i hi hc => ?_⟩
    rw [siding_told_other _ _ _ _ (compl ▸ hc), hu]
    exact State.siding_modSdg_ne _ (Ne.symm hi)
  · have acts : exec (.sdgRelease w) s = .next (sdgRelease pk (ticketOf w pk) (taken w s)) :=
      congrArg next (issue_of_issues hissues)
    have mem : ((taken w s).siding sid).consumer = 1 := hmem
    have flag : paramBit pk 31 = false := hflag
    have zero : param pk 8 20 = 0 := hzero
    have given : fld (pw pk 1) 0 32 = target := htarget.symm
    have sets : (taken w s).modSiding sid (fun d => { d with memRd := clampMemRd d target }) =
        (taken w s).modSiding sid fun d => { d with memRd := target } := by
      have clamps : (taken w s).sdg.desc.modify sid (fun d => { d with memRd := clampMemRd d target }) =
          (taken w s).sdg.desc.modify sid fun d => { d with memRd := target } :=
        modify_congr Siding.reset (congrArg (fun r => { s.siding sid with memRd := r }) (clampMemRd_between hbetween))
      simp only [State.modSiding, clamps]
    have read : (((taken w s).modSiding sid fun d => { d with memRd := target }).siding sid).memRd = target := by
      rw [State.siding_modSiding_self _ _ _ (siding_lt_of_mayName (taken_mayName hmay))]
    rw [acts, sdgRelease, onSiding_of_mayName _ hsid (taken_mayName hmay)]
    simp only [mem, Nat.one_ne_zero, if_false, beq_self_eq_true, flag, zero, Bool.not_false, given,
      sets, read]
    exact congrArg next (complete_eq_told (compl_live_modSiding hissues sid fun _ => rfl))

end Sys2Proof.Claims
end

section
open Sys2Proof Sys2Proof.Machine Sys2Proof.Claims

/-- Settles O39: the sender reaches its siding, one update moves the pointer, and the completion follows. -/
theorem sidingRewindRelease : Obligations.SidingRewindRelease := ⟨sidingRewind, sidingRelease⟩
end

section
/-! PROOFS. O40: SDG_FLUSH, and the drain of a memory siding (R157, R162). -/

namespace Sys2Proof.Machine

open Sys2Proof.Claims

/-! ### A flush applied to a siding without an open item -/

theorem visible_closed {d : Siding} (h : d.itemOpen = false) : d.visible = d.wr := by
  rw [Siding.visible, h, if_neg Bool.false_ne_true]

/-- A flush with discard takes the readers to the visible end. -/
def Siding.discarded (f : Flush) (d : Siding) : Siding :=
  { d with
    rd := d.wr, rel := d.wr, relLeft := 0, replay := [], markValid := false, markLost := false,
    flushes := [{ f with point := d.wr, left := 0, moved := f.moved + d.level, applied := true }] }

/-- A flush without discard waits for the words up to the visible end. -/
def Siding.flushing (f : Flush) (d : Siding) : Siding :=
  { d with flushes := [{ f with point := d.wr, left := d.level, applied := true }] }

theorem applyFlush_closed {s : State} {sid : Nat} {f : Flush} (hopen : (s.siding sid).itemOpen = false)
    (honly : (s.siding sid).flushes.length = 1) (hsid : sid < s.sdg.desc.length) :
    (applyFlush sid f s).siding sid = {
      (if f.discard then (s.siding sid).discarded f else (s.siding sid).flushing f) with
      xoff := xoffOf sid (if f.discard then (s.siding sid).discarded f else (s.siding sid).flushing f) } ∧
      (∀ i, i ≠ sid → (applyFlush sid f s).siding i = s.siding i) ∧
      (applyFlush sid f s).sdg.pool = s.sdg.pool ∧ (applyFlush sid f s).dsp = s.dsp ∧
      (applyFlush sid f s).sdg.desc.length = s.sdg.desc.length := by
  have rest : (s.siding sid).flushes.drop 1 = [] := List.drop_eq_nil_of_le (by omega)
  obtain ⟨g, hg⟩ : ∃ g : Siding → Siding, applyFlush sid f s = s.modSdg sid g ∧
      g (s.siding sid) = if f.discard then (s.siding sid).discarded f else (s.siding sid).flushing f := by
    unfold applyFlush
    simp only [hopen, Bool.false_eq_true, if_false, visible_closed hopen]
    refine ⟨_, rfl, ?_⟩
    simp only [rest]
    rfl
  obtain ⟨acts, value⟩ := hg
  rw [acts]
  refine ⟨?_, fun i hi => State.siding_modSdg_ne g (Ne.symm hi), rfl, rfl, State.modSiding_length ..⟩
  rw [State.siding_modSdg_self g hsid, value]

theorem siding_finish (s : State) (t : Ticket) (status result : Nat) (result2 : Word) (i : Nat) :
    (s.finish t status result result2).siding i = (s.complete t status result result2).siding i := by
  unfold State.finish
  extract_lets u
  split <;> rfl

theorem finish_pool (s : State) (t : Ticket) (status result : Nat) (result2 : Word) :
    (s.finish t status result result2).sdg.pool = s.sdg.pool :=
  (State.finish_within (.refl _ s) (List.Subset.refl _)).pool_eq

/-- A flush at the head that has reached its point completes, and none follows. -/
theorem flushComplete_last {s : State} {sid : Nat} {f : Flush} (hflush : (s.siding sid).flushes = [f])
    (happlied : f.applied = true) (hleft : f.left = 0) (hready : (f.discard || !(s.siding sid).abandoned) = true) :
    flushComplete sid s = (s.modSiding sid fun d => { d with flushes := [] }).finish f.ticket 0 f.point
      (BitVec.ofNat 64 f.moved) := by
  unfold flushComplete
  simp only [hflush, happlied, hleft, hready, Bool.not_true, Bool.false_eq_true, if_false, decide_true, Bool.and_self,
    if_true]
  rfl

theorem flushComplete_waits {s : State} {sid : Nat} {f : Flush} {r : List Flush}
    (hflush : (s.siding sid).flushes = f :: r) (happlied : f.applied = true) (hleft : f.left ≠ 0) :
    flushComplete sid s = s := by
  unfold flushComplete
  simp only [hflush, happlied, hleft, Bool.not_true, Bool.false_eq_true, if_false, decide_false, Bool.false_and]

/-- A window that holds a packet is one of the block's. -/
theorem taken_lt {op w : Nat} {pk : List Word} {s : State} (h : Issues op w pk s) :
    w < (taken w s).dsp.wins.length := by
  obtain ⟨-, head, -⟩ := h
  by_contra outside
  have none_ : s.dsp.wins.length ≤ w := by simpa [taken] using outside
  have reset : s.win w = CmdWin.reset := List.getD_eq_default _ _ none_
  rw [headPacket, reset] at head
  exact absurd head (by simp [CmdWin.reset])

/-- The flush that an SDG_FLUSH of window `w` asks for. -/
def flushOf (w : Nat) (pk : List Word) : Flush :=
  { ticket := ticketOf w pk, discard := bit (pk.getD 0 0) 8, point := 0, left := 0, moved := 0, applied := false }

/-- A siding whose first flush has been asked for. -/
def flushAsked (w sid : Nat) (pk : List Word) (s : State) : State :=
  ((taken w s).startLong (ticketOf w pk)).modSiding sid fun d => { d with flushes := d.flushes ++ [flushOf w pk] }

/-- With no earlier flush SDG_FLUSH applies its own at once, and completes it at once with discard. -/
theorem sdgFlush_first {s : State} {w sid : Nat} {pk : List Word} (hissues : Issues 0x44 w pk s)
    (hsid : fld (pk.getD 0 0) 0 8 = sid) (hmay : mayName w sid s) (hnone : (s.siding sid).flushes = []) :
    exec (.sdgFlush w) s = .next (if bit (pk.getD 0 0) 8 then
      flushComplete sid (applyFlush sid (flushOf w pk) (flushAsked w sid pk s))
      else applyFlush sid (flushOf w pk) (flushAsked w sid pk s)) := by
  have acts : exec (.sdgFlush w) s = .next (sdgFlush pk (ticketOf w pk) (taken w s)) :=
    congrArg next (issue_of_issues hissues)
  have first : ((taken w s).siding sid).flushes.isEmpty = true := by
    rw [taken_siding, hnone]
    rfl
  rw [acts, sdgFlush, onSiding_of_mayName _ hsid (taken_mayName hmay)]
  simp only [first, if_true]
  rfl

theorem startLong_sdg (s : State) (t : Ticket) : (s.startLong t).sdg = s.sdg := by
  unfold State.startLong
  split <;> rfl

theorem flushAsked_siding {s : State} {w sid : Nat} {pk : List Word} (hsid : sid < s.sdg.desc.length)
    (hnone : (s.siding sid).flushes = []) :
    (flushAsked w sid pk s).siding sid = { s.siding sid with flushes := [flushOf w pk] } ∧
      (∀ i, i ≠ sid → (flushAsked w sid pk s).siding i = s.siding i) ∧
      (flushAsked w sid pk s).sdg.pool = s.sdg.pool ∧
      (flushAsked w sid pk s).sdg.desc.length = s.sdg.desc.length := by
  have sdg : ((taken w s).startLong (ticketOf w pk)).sdg = s.sdg := startLong_sdg (taken w s) (ticketOf w pk)
  have same : ∀ i, ((taken w s).startLong (ticketOf w pk)).siding i = s.siding i := fun i => by
    rw [State.siding, sdg]
    rfl
  have pool : ((taken w s).startLong (ticketOf w pk)).sdg.pool = s.sdg.pool := congrArg Sidings.pool sdg
  refine ⟨?_, fun i hi => (State.siding_modSiding_ne _ _ (Ne.symm hi)).trans (same i), pool, ?_⟩
  · refine (State.siding_modSiding_self _ _ _ (sdg ▸ hsid)).trans ?_
    rw [same, hnone]
    rfl
  · exact (State.modSiding_length _ _ _).trans (congrArg (fun x : Sidings => x.desc.length) sdg)

theorem flushAsked_compl (s : State) (w sid : Nat) (pk : List Word) :
    ((flushAsked w sid pk s).win w).compl = (s.win w).compl := by
  have begun : (((taken w s).startLong (ticketOf w pk)).win w).compl = ((taken w s).win w).compl := by
    rw [State.startLong, if_neg (by simp [ticketOf])]
    simp only [State.modWin, State.win, getD_modify]
    split <;> rfl
  exact begun.trans (taken_win_compl w s)

end Sys2Proof.Machine

namespace Sys2Proof.Claims

open Sys2Proof.Machine

/-- SDG_FLUSH with discard: the readers stand at the visible end, and the flush is told at once. -/
theorem sdgFlush_discards {s : State} {w sid : Nat} {pk : List Word} (hissues : Issues 0x44 w pk s)
    (hsid : fld (pk.getD 0 0) 0 8 = sid) (hmay : mayName w sid s) (hnone : (s.siding sid).flushes = [])
    (hopen : (s.siding sid).itemOpen = false) (hdiscard : bit (pk.getD 0 0) 8 = true) :
    Answers (.sdgFlush w) s fun t =>
      (t.siding sid).rd = (s.siding sid).wr ∧ (t.siding sid).rel = (s.siding sid).wr ∧
      (t.siding sid).wr = (s.siding sid).wr ∧ (t.siding sid).markValid = false ∧ (t.siding sid).markLost = false ∧
      (t.siding sid).flushes = [] ∧ t.sdg.pool = s.sdg.pool ∧
      (bit (pk.getD 0 0) 32 = true → (t.siding (s.win w).compl).prodq = (s.siding (s.win w).compl).prodq ++ [
        { kind := .completion, src := 0x7F, seq := fld (pk.getD 0 0) 40 12,
          words := [pack [(40, 12, fld (pk.getD 0 0) 40 12), (32, 8, 0x44), (0, 32, (s.siding sid).wr)],
            BitVec.ofNat 64 (s.siding sid).level] }]) := by
  have inRange := siding_lt_of_mayName hmay
  obtain ⟨asked, away, pool, len⟩ := flushAsked_siding (w := w) (pk := pk) inRange hnone
  have compl := flushAsked_compl s w sid pk
  obtain ⟨a, ha⟩ : ∃ a, a = flushAsked w sid pk s := ⟨_, rfl⟩
  have acts := sdgFlush_first hissues hsid hmay hnone
  rw [if_pos hdiscard, ← ha] at acts
  rw [← ha] at asked away pool len compl
  have discards : (flushOf w pk).discard = true := hdiscard
  obtain ⟨self, others, pool', dsp, len'⟩ := applyFlush_closed (s := a) (sid := sid) (f := flushOf w pk)
    (by rw [asked]; exact hopen) (by rw [asked]; rfl) (len ▸ inRange)
  rw [discards, if_pos rfl, asked] at self
  obtain ⟨b, hb⟩ : ∃ b, b = applyFlush sid (flushOf w pk) a := ⟨_, rfl⟩
  rw [← hb] at acts self others pool' dsp len'
  have completes := flushComplete_last (s := b) (sid := sid) (f := { flushOf w pk with
      point := (s.siding sid).wr, left := 0, moved := (flushOf w pk).moved + (s.siding sid).level, applied := true })
    (congrArg Siding.flushes self) rfl rfl (by simp [discards])
  obtain ⟨c, hc⟩ : ∃ c, c = b.modSiding sid fun d => { d with flushes := [] } := ⟨_, rfl⟩
  rw [← hc] at completes
  have bound : sid < b.sdg.desc.length := by rw [len', len]; exact inRange
  have cself : c.siding sid = { b.siding sid with flushes := [] } := hc ▸ State.siding_modSiding_self _ _ _ bound
  have caway : ∀ i, i ≠ sid → c.siding i = s.siding i := fun i hi => by
    rw [hc, State.siding_modSiding_ne _ _ (Ne.symm hi), others i hi, away i hi]
  have cpool : c.sdg.pool = s.sdg.pool := hc ▸ pool'.trans pool
  have ccompl : (c.win w).compl = (s.win w).compl := by
    have same : c.win w = a.win w := by
      rw [hc]
      exact congrArg (fun x : Dispatcher => x.wins.getD w CmdWin.reset) dsp
    rw [same, compl]
  have queue : (c.siding (s.win w).compl).prodq = (s.siding (s.win w).compl).prodq ∧
      (c.siding (s.win w).compl).state = (s.siding (s.win w).compl).state := by
    by_cases h : (s.win w).compl = sid
    · rw [h, cself, self]
      exact ⟨rfl, rfl⟩
    · rw [caway _ h]
      exact ⟨rfl, rfl⟩
  have live : (c.siding (c.win w).compl).state = 1 := by
    rw [ccompl, queue.2]
    exact hissues.2.2.2.2.2.2.2
  have told_ := complete_eq_told (pk := pk) (status := 0) (result := (s.siding sid).wr)
    (result2 := BitVec.ofNat 64 (0 + (s.siding sid).level)) live
  refine ⟨_, acts.trans (congrArg next completes), ?_⟩
  have here : ∀ i, (c.finish (flushOf w pk).ticket 0 (s.siding sid).wr
      (BitVec.ofNat 64 (0 + (s.siding sid).level))).siding i =
      (told w pk 0 (s.siding sid).wr (BitVec.ofNat 64 (0 + (s.siding sid).level)) c).siding i := fun i =>
    (siding_finish ..).trans (congrArg (State.siding · i) told_)
  have plain : unqueued ((c.finish (flushOf w pk).ticket 0 (s.siding sid).wr
      (BitVec.ofNat 64 (0 + (s.siding sid).level))).siding sid) =
      unqueued { (s.siding sid).discarded (flushOf w pk) with
        flushes := [],
        xoff := xoffOf sid ({ s.siding sid with flushes := [flushOf w pk] }.discarded (flushOf w pk)) } := by
    rw [here, siding_told_unqueued, cself, self]
    rfl
  refine ⟨(congrArg Siding.rd plain).trans rfl, (congrArg Siding.rel plain).trans rfl,
    (congrArg Siding.wr plain).trans rfl, (congrArg Siding.markValid plain).trans rfl,
    (congrArg Siding.markLost plain).trans rfl, (congrArg Siding.flushes plain).trans rfl,
    (finish_pool ..).trans cpool, fun hreply => ?_⟩
  have inside : (s.win w).compl < c.sdg.desc.length := State.siding_lt_of_state_ne_zero (by rw [← ccompl, live]; decide)
  have put : told w pk 0 (s.siding sid).wr (BitVec.ofNat 64 (0 + (s.siding sid).level)) c =
      c.modSiding (c.win w).compl fun d => { d with prodq := d.prodq ++ [
        { kind := .completion, src := 0x7F, seq := fld (pk.getD 0 0) 40 12,
          words := [pack [(56, 8, 0), (40, 12, fld (pk.getD 0 0) 40 12), (32, 8, fld (pk.getD 0 0) 56 8),
            (0, 32, (s.siding sid).wr)], BitVec.ofNat 64 (0 + (s.siding sid).level)] }] } :=
    if_pos (by rw [hreply]; rfl)
  have opcode : fld (pk.getD 0 0) 56 8 = 0x44 := hissues.2.2.2.1
  have word : pack [(56, 8, 0), (40, 12, fld (pk.getD 0 0) 40 12), (32, 8, 0x44), (0, 32, (s.siding sid).wr)] =
      pack [(40, 12, fld (pk.getD 0 0) 40 12), (32, 8, 0x44), (0, 32, (s.siding sid).wr)] := by
    simp [pack, packN]
  refine (congrArg Siding.prodq (here (s.win w).compl)).trans ?_
  rw [put, ccompl, State.siding_modSiding_self _ _ _ inside, opcode, word, Nat.zero_add]
  simp only [queue.1]

/-- SDG_FLUSH without discard waits for rel_ptr. -/
theorem sdgFlush_waits {s : State} {w sid : Nat} {pk : List Word} (hissues : Issues 0x44 w pk s)
    (hsid : fld (pk.getD 0 0) 0 8 = sid) (hmay : mayName w sid s) (hnone : (s.siding sid).flushes = [])
    (hopen : (s.siding sid).itemOpen = false) (hkeeps : bit (pk.getD 0 0) 8 = false) :
    Answers (.sdgFlush w) s fun t =>
      (t.siding sid).rd = (s.siding sid).rd ∧ (t.siding sid).rel = (s.siding sid).rel ∧ t.sdg.pool = s.sdg.pool ∧
      (t.siding sid).flushes = [{
        ticket := ticketOf w pk, discard := false, point := (s.siding sid).wr,
        left := (s.siding sid).level, moved := 0, applied := true }] ∧
      (t.win w).longs = (s.win w).longs + 1 ∧ (t.siding (s.win w).compl).prodq = (s.siding (s.win w).compl).prodq := by
  have inRange := siding_lt_of_mayName hmay
  obtain ⟨asked, away, pool, len⟩ := flushAsked_siding (w := w) (pk := pk) inRange hnone
  have longs : ((flushAsked w sid pk s).win w).longs = (s.win w).longs + 1 := by
    have window : w < (taken w s).dsp.wins.length := taken_lt hissues
    exact (startLong_longs (s := taken w s) (t := ticketOf w pk) rfl window).trans
      (congrArg (· + 1) (taken_longs w w s))
  obtain ⟨a, ha⟩ : ∃ a, a = flushAsked w sid pk s := ⟨_, rfl⟩
  have acts := sdgFlush_first hissues hsid hmay hnone
  rw [if_neg (Bool.eq_false_iff.mp hkeeps), ← ha] at acts
  rw [← ha] at asked away pool len longs
  have keeps : (flushOf w pk).discard = false := hkeeps
  obtain ⟨self, others, pool', dsp, -⟩ := applyFlush_closed (s := a) (sid := sid) (f := flushOf w pk)
    (by rw [asked]; exact hopen) (by rw [asked]; rfl) (len ▸ inRange)
  rw [keeps, if_neg Bool.false_ne_true, asked] at self
  refine ⟨_, acts, (congrArg Siding.rd self).trans rfl, (congrArg Siding.rel self).trans rfl, pool'.trans pool,
    (congrArg Siding.flushes self).trans ?_, ?_, ?_⟩
  · simp only [Siding.flushing, flushOf, hkeeps]
    rfl
  · exact (congrArg (fun x : Dispatcher => (x.wins.getD w CmdWin.reset).longs) dsp).trans longs
  · by_cases h : (s.win w).compl = sid
    · rw [h]
      exact (congrArg Siding.prodq self).trans rfl
    · rw [others _ h, away _ h]

theorem sidingFlush : SidingFlush := by
  have runs (s : State) (sid : Nat) (hcore : s.core = true) :
      exec (.sdgFlushComplete sid) s = .next (flushComplete sid s) := by
    have unfolded : exec (.sdgFlushComplete sid) s = .next (when s.core (flushComplete sid) s) := rfl
    rw [unfolded, hcore, when_true]
  refine ⟨fun s w sid pk hissues hsid hmay hnone hopen hbit => sdgFlush_discards hissues hsid hmay hnone hopen hbit,
    fun s w sid pk hissues hsid hmay hnone hopen hbit => sdgFlush_waits hissues hsid hmay hnone hopen hbit,
    fun s sid f r hcore hflush happlied hleft => ?_, fun s sid f hcore hflush happlied hleft habandoned => ?_⟩
  · rw [runs s sid hcore, flushComplete_waits hflush happlied hleft]
  · rw [runs s sid hcore, flushComplete_last hflush happlied hleft (by simp [habandoned])]

/-! ### The drain of a memory siding -/

/-- The pool index of a pointer, before or after its wrap. -/
theorem index_add_zero (d : Siding) (p : Nat) : d.index (d.add p 0) = d.index p := by
  have wraps : p % (2 * d.size) % d.size = p % d.size := Nat.mod_mod_of_dvd _ ⟨2, Nat.mul_comm ..⟩
  rw [Siding.index, Siding.add, Nat.add_zero, Siding.ptrMod, wraps, Siding.index]

/-- The item at rd_ptr: its length word and its content. -/
theorem itemAt_eq (s : State) (d : Siding) :
    itemAt s d = s.poolWord (d.index d.rd) :: itemWords s d d.rd := by
  have first : look 0 (d.index (d.add d.rd 0)) s.sdg.pool = s.poolWord (d.index d.rd) := by
    rw [index_add_zero]
    rfl
  simp only [itemAt, itemWords, first]
  rw [Nat.add_comm 1, List.range_succ_eq_map, List.map_cons, first, List.map_map]
  refine congrArg _ (List.map_congr_left fun i _ => ?_)
  rw [Function.comp_apply, Nat.succ_eq_add_one, Nat.add_comm i 1]
  rfl

/-- An item whose words are good is taken as it stands. -/
theorem takeItem_good (sid : Nat) (s : State) :
    takeItem sid ⟨[], []⟩ s = (itemAt s (s.siding sid),
      (s.siding sid).add (s.siding sid).rd (itemAt s (s.siding sid)).length, false, s) := by
  rw [itemAt_eq, List.length_cons, Nat.add_comm _ 1]
  rfl

theorem exec_drain {s : State} {sid : Nat} (hcore : s.core = true) (hlive : (s.siding sid).state = 1)
    (hmem : (s.siding sid).consumer = 1) (hflight : (s.siding sid).inFlight = false) (havail : (s.siding sid).avail ≠ 0)
    (hbarred : barredPart s (s.siding sid).owner = false) (c l : List Nat) :
    exec (.drainItemWrite sid c l) s = .next (drainItem sid ⟨c, l⟩ s) := by
  have unfolded : exec (.drainItemWrite sid c l) s = .next (when (s.core && (s.siding sid).state == 1 &&
      (s.siding sid).consumer == 1 && !(s.siding sid).inFlight && decide (0 < (s.siding sid).avail) &&
      !barredPart s (s.siding sid).owner) (drainItem sid ⟨c, l⟩) s) := rfl
  rw [unfolded, hcore, hlive, hmem, hflight, hbarred, decide_eq_true (Nat.pos_of_ne_zero havail)]
  rfl

theorem memoryDrain : MemoryDrain := by
  refine ⟨fun s sid hcore hlive hbarred hmem hflight havail => ?_, fun s sid hcore => ?_⟩
  · intro d words n hleft hfree
    have inRange : sid < s.sdg.desc.length := State.siding_lt_of_state_ne_zero (by rw [hlive]; decide)
    obtain ⟨u, hu⟩ : ∃ u, u = (s.modSiding sid (noteRecord (words.headD 0) (words.drop 1))).modSdg sid
        fun e => { e with rd := d.add d.rd n } := ⟨_, rfl⟩
    have drains : drainItem sid ⟨[], []⟩ s = writeRing sid words (d.add d.rd n) u := by
      rw [drainItem, takeItem_good]
      dsimp only
      rw [if_neg (Nat.not_lt.mpr hleft), if_pos hfree, hu]
    have noted : ∀ e : Siding, ∃ ts, noteRecord (words.headD 0) (words.drop 1) e = { e with lastRecTs := ts } := by
      intro e
      rw [noteRecord]
      split
      · exact ⟨_, rfl⟩
      · exact ⟨e.lastRecTs, rfl⟩
    obtain ⟨ts, hts⟩ := noted d
    have bound : sid < (s.modSiding sid (noteRecord (words.headD 0) (words.drop 1))).sdg.desc.length := by
      rw [State.modSiding_length]
      exact inRange
    have self : u.siding sid = { d with
        rd := d.add d.rd n, lastRecTs := ts,
        xoff := xoffOf sid { d with rd := d.add d.rd n, lastRecTs := ts } } := by
      rw [hu, State.siding_modSdg_self _ bound, State.siding_modSiding_self _ _ _ inRange]
      exact congrArg (fun e : Siding => { { e with rd := d.add d.rd n } with
        xoff := xoffOf sid { e with rd := d.add d.rd n } }) hts
    have others : ∀ i, i ≠ sid → u.siding i = s.siding i := fun i hi => by
      rw [hu, State.siding_modSdg_ne _ (Ne.symm hi), State.siding_modSiding_ne _ _ (Ne.symm hi)]
    have mem : u.mem = s.mem := hu ▸ rfl
    have pool : u.sdg.pool = s.sdg.pool := hu ▸ rfl
    have len : sid < u.sdg.desc.length := by
      rw [hu]
      exact (State.modSiding_length _ _ _).symm ▸ bound
    have flight := State.siding_modSiding_self u sid
      (fun e => { e with inFlight := true, drainEnd := d.add d.rd n }) len
    rw [self] at flight
    refine ⟨_, (exec_drain hcore hlive hmem hflight havail hbarred [] []).trans (congrArg next drains),
      (congrArg Siding.rd flight).trans rfl, (congrArg Siding.inFlight flight).trans rfl,
      (congrArg Siding.memWr flight).trans rfl, (congrArg Siding.rel flight).trans rfl, ?_,
      fun i hi => (State.siding_modSiding_ne u _ (Ne.symm hi)).trans (others i hi), pool⟩
    simp only [writeRing, addJob, self, State.modSiding_mem, mem]
    rfl
  · intro d n hleft hfree
    have stays : drainItem sid ⟨[], []⟩ s = s := by
      rw [drainItem, takeItem_good]
      dsimp only
      rw [if_neg (Nat.not_lt.mpr hleft), if_neg (Nat.not_le.mpr hfree)]
    have unfolded : exec (.drainItemWrite sid [] []) s = .next (when (s.core && (s.siding sid).state == 1 &&
        (s.siding sid).consumer == 1 && !(s.siding sid).inFlight && decide (0 < (s.siding sid).avail) &&
        !barredPart s (s.siding sid).owner) (drainItem sid ⟨[], []⟩) s) := rfl
    rw [unfolded]
    generalize (s.core && (s.siding sid).state == 1 && (s.siding sid).consumer == 1 && !(s.siding sid).inFlight &&
      decide (0 < (s.siding sid).avail) && !barredPart s (s.siding sid).owner) = acts
    cases acts
    · rfl
    · rw [when_true, stays]

end Sys2Proof.Claims
end

section
open Sys2Proof Sys2Proof.Machine Sys2Proof.Claims

/-- Settles O40: a flush of a closed siding is one update of its pointers, and a good item is taken as it stands. -/
theorem sidingFlushDrain : Obligations.SidingFlushDrain := ⟨sidingFlush, memoryDrain⟩
end

section
/-! PROOFS. O41: SDG_LEVEL, SDG_WATERMARK and SDG_CREATE (R147, R163, R164, R166). -/

namespace Sys2Proof.Machine

open Sys2Proof.Claims

theorem clamp_eq {lo hi v : Nat} (h : lo ≤ hi) : clamp lo hi v = min hi (max lo v) := by
  rw [clamp]
  omega

/-- A place that is found is aligned, lies in the pool, and meets no other siding. -/
theorem placeSiding_places {s : State} {sid size base : Nat} (h : placeSiding s sid size = some base) :
    base % (4096 * 2 ^ size) = 0 ∧ base + 4096 * 2 ^ size ≤ 8388608 ∧
      ∀ i < 256, i ≠ sid → (s.siding i).state ≠ 0 →
        (s.siding i).base + 8 * (s.siding i).size ≤ base ∨ base + 4096 * 2 ^ size ≤ (s.siding i).base := by
  simp only [placeSiding] at h
  have apart := List.find?_some h
  obtain ⟨k, hk, rfl⟩ := List.mem_map.mp (List.mem_of_find?_eq_some h)
  have count : k + 1 ≤ 8388608 / (4096 * 2 ^ size) := List.mem_range.mp hk
  refine ⟨Nat.mul_mod_left .., ?_, fun i hi hself hlive => ?_⟩
  · calc k * (4096 * 2 ^ size) + 4096 * 2 ^ size = (k + 1) * (4096 * 2 ^ size) := by ring
      _ ≤ 8388608 / (4096 * 2 ^ size) * (4096 * 2 ^ size) := Nat.mul_le_mul_right _ count
      _ ≤ 8388608 := Nat.div_mul_le_self ..
  · rw [Bool.not_eq_true', poolTaken, List.any_eq_false] at apart
    have clear := apart i (List.mem_range.mpr hi)
    simp only [Bool.and_eq_true, bne_iff_ne, decide_eq_true_eq, ne_eq, hlive, hself, not_false_eq_true, true_and,
      not_and] at clear
    omega

theorem createTarget_named {s : State} {pk : List Word} {sid : Nat} (hsid : fld (pk.getD 0 0) 24 8 = sid)
    (hne : sid ≠ 255) : createTarget s pk = some sid := by
  have names : param pk 24 8 = sid := hsid
  rw [createTarget, names, if_neg hne]

/-- The place of a new siding that names no stream. -/
theorem createSiding_places {s : State} {w sid base : Nat} {pk : List Word} (hw : w < 16)
    (hbarred : barredPart s w = false) (howned : ownedSidings s w < 16)
    (hplace : placeSiding s sid (createSize pk) = some base) (hstream : bit (pk.getD 0 0) 16 = false) :
    ∃ r2, createSiding w sid pk (ticketOf w pk) s = (makeSiding sid w (createConsumer pk) 0 (createSize pk) base
      (bit (pk.getD 0 0) 17) (createMemBase pk) (createMemSize pk) s).complete (ticketOf w pk) statusDone sid r2 := by
  have tenant : ¬ w = 16 := by omega
  have free : (decide (w < 16) && decide (16 ≤ ownedSidings s w)) = false := by
    rw [decide_eq_false (Nat.not_le.mpr howned), Bool.and_false]
  have none_ : createStream w pk = none := by
    have flag : paramBit pk 16 = false := hstream
    simp [createStream, flag]
  simp only [createSiding, tenant, if_false, hbarred, Bool.false_eq_true, free, hplace, none_, attachStream, ite_self,
    withSome]
  exact ⟨_, rfl⟩

/-- A completion leaves a siding that is not live as it is. -/
theorem siding_complete_free (s : State) (t : Ticket) (status result : Nat) (result2 : Word) {i : Nat}
    (h : s.siding i = Siding.reset) : (s.complete t status result result2).siding i = Siding.reset := by
  have free : ((s.pushItem (s.win t.w).compl (completionItem t status result result2)).siding i) = Siding.reset := by
    rcases s.pushItem_cases (s.win t.w).compl (completionItem t status result result2) with
      ⟨live, acts⟩ | ⟨live, acts⟩ | ⟨-, -, acts⟩
    all_goals rw [acts]
    · have other : (s.win t.w).compl ≠ i := fun same => by
        rw [same, h] at live
        exact absurd live (by decide)
      rw [State.siding_modSiding_ne _ _ other, h]
    · have other : (s.win t.w).compl ≠ i := fun same => by
        rw [same, h] at live
        exact absurd live (by decide)
      rw [State.siding_modSiding_ne _ _ other, h]
    · exact h
  unfold State.complete
  split
  · exact h
  · extract_lets sid
    split
    · exact free
    · exact h

/-- A siding without what its producer brings. -/
def unfed (d : Siding) : Siding := { d with prodq := [], faultDisc := 0 }

/-- Each siding is as before but for what its producer brings. -/
def OnlyFed (s t : State) : Prop := ∀ i, unfed (t.siding i) = unfed (s.siding i)

theorem OnlyFed.of_desc {s t : State} (h : t.sdg.desc = s.sdg.desc) : OnlyFed s t := fun i => by
  rw [State.siding, h]
  rfl

theorem OnlyFed.trans {s t u : State} (h : OnlyFed s t) (g : OnlyFed t u) : OnlyFed s u := fun i => (g i).trans (h i)

theorem modSiding_onlyFed (s : State) (n : Nat) {f : Siding → Siding} (hf : ∀ d, unfed (f d) = unfed d) :
    OnlyFed s (s.modSiding n f) := fun i => by
  rw [State.siding_modSiding]
  split
  · exact hf _
  · rfl

theorem pushItem_onlyFed (s : State) (n : Nat) (it : ProdItem) : OnlyFed s (s.pushItem n it) := by
  rcases s.pushItem_cases n it with ⟨-, acts⟩ | ⟨-, acts⟩ | ⟨-, -, acts⟩
  all_goals rw [acts]
  · exact modSiding_onlyFed s n fun _ => rfl
  · exact modSiding_onlyFed s n fun _ => rfl
  · exact .of_desc rfl

theorem complete_onlyFed (s : State) (t : Ticket) (status result : Nat) (result2 : Word) :
    OnlyFed s (s.complete t status result result2) := by
  unfold State.complete
  split
  · exact .of_desc rfl
  · extract_lets sid
    split
    · exact pushItem_onlyFed s sid (completionItem t status result result2)
    · exact .of_desc rfl

theorem finish_onlyFed (s : State) (t : Ticket) (status result : Nat) (result2 : Word) :
    OnlyFed s (s.finish t status result result2) := fun i => by
  rw [siding_finish]
  exact complete_onlyFed s t status result result2 i

theorem dropHeld_onlyFed (unit : Nat) (s : State) : OnlyFed s (dropHeld unit s) :=
  forEach_keeps (OnlyFed s) _ _ _ (.of_desc rfl) fun h _ kept =>
    kept.trans (finish_onlyFed _ h.ticket statusAborted 0 0)

end Sys2Proof.Machine

namespace Sys2Proof.Claims

open Sys2Proof.Machine

theorem sidingLevels : SidingLevels := by
  refine ⟨fun s w sid pk hissues hsid hmay => ?_, fun s w sid pk hissues hsid hmay hpriv => ?_,
    fun s w pk hissues hsid => ?_⟩
  · have acts : exec (.sdgLevel w) s = .next (sdgLevel pk (ticketOf w pk) (taken w s)) :=
      congrArg next (issue_of_issues hissues)
    have level : ∀ d : Siding, clamp 1 d.size (param pk 8 20) =
        min (2 ^ (9 + d.sizeCode)) (max 1 (fld (pk.getD 0 0) 8 20)) := fun d =>
      clamp_eq (Nat.one_le_two_pow (n := 9 + d.sizeCode))
    have same := State.siding_modSiding_self (taken w s) sid (fun d => { d with
      intEn := paramBit pk 31, intLevel := clamp 1 d.size (param pk 8 20) }) (siding_lt_of_mayName hmay)
    have avail : (((taken w s).modSiding sid fun d => { d with
      intEn := paramBit pk 31, intLevel := clamp 1 d.size (param pk 8 20) }).siding sid).avail =
        (s.siding sid).avail := (congrArg Siding.avail same).trans rfl
    have held : (((taken w s).modSiding sid fun d => { d with
      intEn := paramBit pk 31, intLevel := clamp 1 d.size (param pk 8 20) }).siding sid).level =
        (s.siding sid).level := (congrArg Siding.level same).trans rfl
    rw [acts, sdgLevel, onSiding_of_mayName _ hsid (taken_mayName hmay)]
    dsimp only
    rw [avail, held]
    simp only [level]
    exact congrArg next (complete_eq_told (compl_live_modSiding hissues sid fun _ => rfl))
  · intro hi lo
    have acts : exec (.sdgWatermark w) s = .next (sdgWatermark pk (ticketOf w pk) (taken w s)) :=
      congrArg next (issue_of_issues hissues)
    have named : ¬ 4 ≤ param pk 0 8 := by
      have number : param pk 0 8 = sid := hsid
      omega
    have upper : clamp 32 248 (param pk 16 8) = hi := clamp_eq (by decide)
    rw [acts, sdgWatermark, if_neg named, onSiding_of_mayName _ hsid (taken_mayName hmay)]
    simp only [upper]
    exact congrArg next (complete_eq_told (compl_live_modSiding hissues sid fun _ => rfl))
  · have acts : exec (.sdgWatermark w) s = .next (sdgWatermark pk (ticketOf w pk) (taken w s)) :=
      congrArg next (issue_of_issues hissues)
    have other : sdgWatermark pk (ticketOf w pk) (taken w s) = (taken w s).complete (ticketOf w pk) 3 0 0 := if_pos hsid
    rw [acts, other]
    exact congrArg next (complete_eq_told (taken_compl_live hissues))

/-- The siding that a tenant creates. -/
def newSiding (s : State) (w sid base : Nat) (pk : List Word) : Siding :=
  { Siding.reset with
    state := 1, owner := w, consumer := createConsumer pk, producer := 0, sizeCode := createSize pk, base := base,
    autoRel := bit (pk.getD 0 0) 17, slot := if w < 16 then freeSlot (taken w s) w sid else 0,
    memBase := createMemBase pk, memSize := createMemSize pk }

theorem dist_reset (d : Siding) : d.dist 0 0 = 0 := by simp [Siding.dist]

/-- SDG_CREATE of a tenant on a free siding. -/
theorem sdgCreate_creates {s : State} {w sid base : Nat} {pk : List Word} (hissues : Issues 0x40 w pk s) (hw : w < 16)
    (hbarred : barredPart s w = false) (hsid : fld (pk.getD 0 0) 24 8 = sid) (hne : sid ≠ 255)
    (hrange : sid < s.sdg.desc.length) (hpriv : 4 ≤ sid) (hfree : (s.siding sid).state = 0)
    (hbit : bit (pk.getD 0 0) 4 = false) (hstream : bit (pk.getD 0 0) 16 = false) (howned : ownedSidings s w < 16)
    (hplace : placeSiding s sid (createSize pk) = some base) :
    Answers (.sdgCreate w) s fun t =>
      (t.siding sid).state = 1 ∧ (t.siding sid).owner = w ∧ (t.siding sid).base = base ∧
      (t.siding sid).sizeCode = createSize pk ∧ (t.siding sid).autoRel = bit (pk.getD 0 0) 17 ∧
      (t.siding sid).level = 0 ∧ (t.siding sid).avail = 0 ∧ (t.siding sid).prodq = [] ∧
      (∀ i, i ≠ sid → i ≠ (s.win w).compl → t.siding i = s.siding i) := by
  have acts : exec (.sdgCreate w) s = .next (sdgCreate pk (ticketOf w pk) (taken w s)) :=
    congrArg next (issue_of_issues hissues)
  have tenant : (w != 16) = true := by simp; omega
  have empty : ((taken w s).siding sid).state = 0 := hfree
  have keeps : paramBit pk 4 = false := hbit
  obtain ⟨r2, creates⟩ := createSiding_places (s := taken w s) hw hbarred howned hplace hstream
  have chosen : sdgCreate pk (ticketOf w pk) (taken w s) = createSiding w sid pk (ticketOf w pk) (taken w s) := by
    simp only [sdgCreate, createTarget_named hsid hne, empty, keeps, if_true, Bool.false_eq_true, if_false,
      Nat.not_lt.mpr hpriv, decide_false, Bool.and_false]
    rfl
  obtain ⟨u, hu⟩ : ∃ u, u = makeSiding sid w (createConsumer pk) 0 (createSize pk) base (bit (pk.getD 0 0) 17)
    (createMemBase pk) (createMemSize pk) (taken w s) := ⟨_, rfl⟩
  rw [← hu] at creates
  have self : u.siding sid = { newSiding s w sid base pk with xoff := xoffOf sid (newSiding s w sid base pk) } := by
    rw [hu]
    exact State.siding_modSdg_self (s := taken w s) (fun _ => newSiding s w sid base pk) hrange
  have others : ∀ i, i ≠ sid → u.siding i = s.siding i := fun i hi => hu ▸ State.siding_modSdg_ne _ (Ne.symm hi)
  have compl : (u.win w).compl = (s.win w).compl := hu ▸ taken_win_compl w s
  have apart : (s.win w).compl ≠ sid := fun same => by
    have live := hissues.2.2.2.2.2.2.2
    rw [same, hfree] at live
    exact absurd live (by decide)
  have live : (u.siding (u.win w).compl).state = 1 := by
    rw [compl, others _ apart]
    exact hissues.2.2.2.2.2.2.2
  have same : (told w pk statusDone sid r2 u).siding sid = u.siding sid :=
    siding_told_other pk statusDone sid r2 (compl ▸ Ne.symm apart)
  rw [self] at same
  refine ⟨_, acts.trans (congrArg next (chosen.trans (creates.trans (complete_eq_told live)))),
    congrArg Siding.state same, congrArg Siding.owner same, congrArg Siding.base same,
    congrArg Siding.sizeCode same, congrArg Siding.autoRel same,
    (congrArg Siding.level same).trans (dist_reset (newSiding s w sid base pk)),
    (congrArg Siding.avail same).trans (dist_reset (newSiding s w sid base pk)), congrArg Siding.prodq same,
    fun i hi hc => ?_⟩
  rw [siding_told_other pk statusDone sid r2 (compl ▸ hc), others i hi]

theorem siding_freeSiding (s : State) (sid : Nat) : (freeSiding sid s).siding sid = Siding.reset := by
  rw [freeSiding]
  generalize forgetFlight sid _ = u
  by_cases hrange : sid < u.sdg.desc.length
  · refine (State.siding_modSdg_self (s := u) (fun _ => Siding.reset) hrange).trans ?_
    have low : xoffOf sid Siding.reset = false := if_neg (by simp [Siding.reset])
    rw [low]
    rfl
  · have none : (u.modSdg sid fun _ => Siding.reset).sdg.desc = u.sdg.desc :=
      List.modify_eq_self (Nat.le_of_not_lt hrange)
    rw [State.siding, none]
    exact List.getD_eq_default _ _ (Nat.le_of_not_lt hrange)

theorem sidingCreate : SidingCreate := by
  refine ⟨fun s w sid base pk hissues hw hbarred hsid hne hrange hpriv hfree hbit hstream howned hplace => ?_,
    fun s w sid pk hissues hw hsid hne hcompl hlive howner hbarred hproducer hidle hbit => ?_,
    fun s w sid pk hissues hsid hne hmay hlive hbusy => ?_, fun s w sid pk hissues hw hsid hne hbad => ?_⟩
  all_goals have acts : exec (.sdgCreate w) s = .next (sdgCreate pk (ticketOf w pk) (taken w s)) :=
    congrArg next (issue_of_issues hissues)
  · obtain ⟨t, ht, state, owner, base_, code, auto, level, avail, queue, others⟩ :=
      sdgCreate_creates hissues hw hbarred hsid hne hrange hpriv hfree hbit hstream howned hplace
    obtain ⟨aligned, inside, clear⟩ := placeSiding_places hplace
    exact ⟨t, ht, state, owner, base_, code, auto, level, avail, queue, aligned, inside, clear, others⟩
  · obtain ⟨u, hu⟩ : ∃ u, u = dropHeld (unitSiding sid) (taken w s) := ⟨_, rfl⟩
    have fed : unfed (u.siding sid) = unfed (s.siding sid) := hu ▸ dropHeld_onlyFed (unitSiding sid) (taken w s) sid
    have producer : (u.siding sid).producer ≠ 2 := fun same =>
      hproducer ((congrArg Siding.producer fed).symm.trans same)
    have frees : paramBit pk 4 = true := hbit
    have chosen : sdgCreate pk (ticketOf w pk) (taken w s) =
        (freeSiding sid u).complete (ticketOf w pk) statusDone sid 0 := by
      have state : ((taken w s).siding sid).state = 1 := hlive
      have owner : ((taken w s).siding sid).owner = w := howner
      have idle : sidingIdle ((taken w s).siding sid) = true := hidle
      have allowed : (barredPart (taken w s) ((taken w s).siding sid).owner ||
          ((ticketOf w pk).w != 16 && ((taken w s).siding sid).owner != (ticketOf w pk).w)) = false := by
        rw [owner]
        have open_ : barredPart (taken w s) w = false := hbarred
        have own : (w != w) = false := bne_self_eq_false w
        exact (congrArg₂ or open_ (congrArg (and _) own)).trans (by simp)
      simp only [sdgCreate, createTarget_named hsid hne, state, allowed, idle, Nat.one_ne_zero, if_false, if_true,
        Bool.false_eq_true, ← hu, Nat.reduceEqDiff]
      simp only [changeSiding, producer, if_false, frees, if_true]
      rfl
    exact ⟨_, acts.trans (congrArg next chosen),
      siding_complete_free _ (ticketOf w pk) statusDone sid 0 (siding_freeSiding u sid)⟩
  · have state : ((taken w s).siding sid).state = 1 := hlive
    have busy : sidingIdle ((taken w s).siding sid) = false := hbusy
    have allowed : (barredPart (taken w s) ((taken w s).siding sid).owner ||
        ((ticketOf w pk).w != 16 && ((taken w s).siding sid).owner != (ticketOf w pk).w)) = false := by
      obtain ⟨-, who, open_⟩ := taken_mayName hmay
      rw [open_, Bool.false_or, Bool.and_eq_false_iff, bne_eq_false_iff_eq, bne_eq_false_iff_eq]
      exact who
    have chosen : sdgCreate pk (ticketOf w pk) (taken w s) = defer sid pk (ticketOf w pk) (taken w s) := by
      simp only [sdgCreate, createTarget_named hsid hne, state, allowed, busy, Nat.one_ne_zero, if_false,
        Bool.false_eq_true, Nat.reduceEqDiff]
      rfl
    rw [acts, chosen]
  · have tenant : ((ticketOf w pk).w != 16) = true := bne_iff_ne.mpr fun h => by
      have same : w = 16 := h
      omega
    have chosen : sdgCreate pk (ticketOf w pk) (taken w s) =
        (taken w s).complete (ticketOf w pk) statusNotPermitted 0 0 := by
      rcases hbad with ⟨hpriv, hfree⟩ | ⟨hlive, howner⟩
      · have state : ((taken w s).siding sid).state = 0 := hfree
        have root : ¬ (ticketOf w pk).w = 16 := bne_iff_ne.mp tenant
        simp only [sdgCreate, createTarget_named hsid hne, state, if_true, tenant, hpriv, decide_true, Bool.and_true,
          root, if_false, ite_self]
      · have state : ¬ ((taken w s).siding sid).state = 0 := hlive
        have other : (((taken w s).siding sid).owner != (ticketOf w pk).w) = true := bne_iff_ne.mpr howner
        simp only [sdgCreate, createTarget_named hsid hne, state, if_false, tenant, other, Bool.and_true, Bool.or_true,
          if_true]
    rw [acts, chosen]
    exact congrArg next (complete_eq_told (taken_compl_live hissues))

end Sys2Proof.Claims
end

section
open Sys2Proof Sys2Proof.Machine Sys2Proof.Claims

/-- Settles O41: each command checks the sender's siding and makes one update, which its completion tells. -/
theorem sidingSettings : Obligations.SidingSettings := ⟨sidingLevels, sidingCreate⟩
end

section
/-! PROOFS. O42: no pointer of a siding passes another (R150, R151). -/

namespace Sys2Proof.Machine

open Sys2Proof.Claims

theorem Siding.ptrMod_pos (d : Siding) : 0 < d.ptrMod := Nat.mul_pos two_pos (Nat.two_pow_pos _)

theorem Siding.dist_lt (d : Siding) (x y : Nat) : d.dist x y < d.ptrMod := Nat.mod_lt _ d.ptrMod_pos

/-- The distance is the one number of steps below the pointer range that leads from `x` to `y`. -/
theorem Siding.dist_of_steps {d : Siding} {x y n : Nat} (hn : n < d.ptrMod) (h : x + n ≡ y [MOD d.ptrMod]) :
    d.dist x y = n := by
  have below : x % d.ptrMod ≤ y + d.ptrMod := (Nat.mod_lt _ d.ptrMod_pos).le.trans (Nat.le_add_left ..)
  have sum : y + d.ptrMod - x % d.ptrMod + x % d.ptrMod ≡ n + x % d.ptrMod [MOD d.ptrMod] :=
    calc y + d.ptrMod - x % d.ptrMod + x % d.ptrMod = y + d.ptrMod := Nat.sub_add_cancel below
      _ ≡ y [MOD d.ptrMod] := Nat.add_mod_right ..
      _ ≡ x + n [MOD d.ptrMod] := h.symm
      _ ≡ n + x % d.ptrMod [MOD d.ptrMod] := by
        rw [Nat.add_comm x n]
        exact (Nat.ModEq.refl n).add (Nat.mod_modEq x d.ptrMod).symm
  have steps : y + d.ptrMod - x % d.ptrMod ≡ n [MOD d.ptrMod] := Nat.ModEq.add_right_cancel' _ sum
  exact (show d.dist x y = n % d.ptrMod from steps).trans (Nat.mod_eq_of_lt hn)

/-- From `x` the distance leads to `y`. -/
theorem Siding.add_dist (d : Siding) (x y : Nat) : x + d.dist x y ≡ y [MOD d.ptrMod] := by
  have below : x % d.ptrMod ≤ y + d.ptrMod := (Nat.mod_lt _ d.ptrMod_pos).le.trans (Nat.le_add_left ..)
  calc x + d.dist x y ≡ x % d.ptrMod + (y + d.ptrMod - x % d.ptrMod) [MOD d.ptrMod] :=
        (Nat.mod_modEq x d.ptrMod).symm.add (Nat.mod_modEq ..)
    _ = y + d.ptrMod := by omega
    _ ≡ y [MOD d.ptrMod] := Nat.add_mod_right ..

theorem Siding.dist_self (d : Siding) (x : Nat) : d.dist x x = 0 := dist_of_steps d.ptrMod_pos rfl

/-- A pointer between two others cuts their distance in two. -/
theorem Siding.dist_between {d : Siding} {a b c : Nat} (h : d.dist a b ≤ d.dist a c) :
    d.dist b c = d.dist a c - d.dist a b := by
  refine dist_of_steps ((Nat.sub_le ..).trans_lt (d.dist_lt a c)) ?_
  calc b + (d.dist a c - d.dist a b) ≡ a + d.dist a b + (d.dist a c - d.dist a b) [MOD d.ptrMod] :=
        (d.add_dist a b).symm.add_right _
    _ = a + d.dist a c := by omega
    _ ≡ c [MOD d.ptrMod] := d.add_dist a c

theorem Siding.dist_add_one {d : Siding} {a b : Nat} (h : d.dist a b + 1 < d.ptrMod) :
    d.dist a (d.add b 1) = d.dist a b + 1 :=
  dist_of_steps h (((d.add_dist a b).add_right 1).trans (Nat.mod_modEq ..).symm)

theorem Siding.dist_succ_le {d : Siding} {a b c : Nat} (h : d.dist a b ≤ d.dist a c) (apart : d.dist b c ≠ 0) :
    d.dist a (d.add b 1) ≤ d.dist a c := by
  have cut := dist_between h
  have bound := d.dist_lt a c
  rw [dist_add_one (by omega)]
  omega

theorem Siding.size_lt (d : Siding) : d.size < d.ptrMod := by
  have pos : 0 < d.size := Nat.two_pow_pos _
  rw [ptrMod]
  omega

/-- What the order of a siding's pointers looks at. -/
def pointers (d : Siding) : Nat × Nat × Nat × Nat × Bool × Nat × Bool × Nat :=
  (d.rel, d.rd, d.wr, d.sizeCode, d.itemOpen, d.itemStart, d.markValid, d.mark)

theorem inOrder_congr {d e : Siding} (h : pointers e = pointers d) (ordered : inOrder d) : inOrder e := by
  simp only [pointers, Prod.mk.injEq] at h
  obtain ⟨rel, rd, wr, code, open_, start, valid, mark⟩ := h
  simpa only [inOrder, Siding.level, Siding.visible, Siding.dist, Siding.ptrMod, Siding.size, Siding.addrBits, rel, rd,
    wr, code, open_, start, valid, mark] using ordered

theorem avail_congr {d e : Siding} (h : pointers e = pointers d) : e.avail = d.avail := by
  simp only [pointers, Prod.mk.injEq] at h
  obtain ⟨rel, rd, wr, code, open_, start, valid, mark⟩ := h
  simp only [Siding.avail, Siding.visible, Siding.dist, Siding.ptrMod, Siding.size, Siding.addrBits, rd, wr, code,
    open_, start]

/-! What moves a pointer keeps the order. -/

/-- The write pointer moves on by a word, and what is visible stays. -/
theorem inOrder_write {d : Siding} (h : inOrder d) (free : 1 ≤ d.free) {e : Siding} (wr : e.wr = d.add d.wr 1)
    (visible : e.visible = d.visible)
    (same : (e.rel, e.rd, e.sizeCode, e.markValid, e.mark) = (d.rel, d.rd, d.sizeCode, d.markValid, d.mark)) :
    inOrder e := by
  simp only [Prod.mk.injEq] at same
  obtain ⟨rel, rd, code, valid, mark⟩ := same
  obtain ⟨relLt, rdLt, wrLt, fill, read, seen, marked⟩ := h
  have modulus : e.ptrMod = d.ptrMod := by rw [Siding.ptrMod, Siding.size, Siding.addrBits, code]; rfl
  have dist : ∀ x y, e.dist x y = d.dist x y := fun x y => by rw [Siding.dist, modulus]; rfl
  have size : e.size = d.size := by rw [Siding.size, Siding.addrBits, code]; rfl
  have room : d.dist d.rel d.wr + 1 ≤ d.size := by
    have free' : 1 ≤ d.size - d.dist d.rel d.wr := free
    omega
  have level : e.level = d.level + 1 := by
    rw [Siding.level, dist, rel, wr]
    exact Siding.dist_add_one (room.trans_lt d.size_lt)
  refine ⟨by rwa [rel, modulus], by rwa [rd, modulus], by rw [wr, modulus]; exact Nat.mod_lt _ d.ptrMod_pos, ?_, ?_, ?_,
    fun v => ?_⟩
  · rw [level, size]
    exact room
  · rw [dist, dist, rel, rd, visible]
    exact read
  · rw [dist, rel, visible, level]
    omega
  · rw [dist, dist, rel, rd, mark, modulus]
    exact marked (valid ▸ v)

/-- The open item closes. -/
theorem inOrder_close {d : Siding} (h : inOrder d) {e : Siding} (shut : e.itemOpen = false)
    (same : (e.rel, e.rd, e.wr, e.sizeCode, e.markValid, e.mark) =
      (d.rel, d.rd, d.wr, d.sizeCode, d.markValid, d.mark)) : inOrder e := by
  simp only [Prod.mk.injEq] at same
  obtain ⟨rel, rd, wr, code, valid, mark⟩ := same
  obtain ⟨relLt, rdLt, wrLt, fill, read, seen, marked⟩ := h
  have visible : e.visible = d.wr := by rw [Siding.visible, shut, ← wr]; rfl
  simp only [inOrder, visible]
  simp only [Siding.level, Siding.dist, Siding.ptrMod, Siding.size, Siding.addrBits, rel, rd, wr, code, valid, mark]
  exact ⟨relLt, rdLt, wrLt, fill, read.trans seen, le_rfl, marked⟩

/-- The read pointer goes to a place between the release pointer and the visible end, and the mark, if there is one, is
not beyond it. -/
theorem inOrder_read {d : Siding} (h : inOrder d) {p : Nat} (hp : p < d.ptrMod)
    (before : d.dist d.rel p ≤ d.dist d.rel d.visible)
    (after : d.markValid = true → d.dist d.rel d.mark ≤ d.dist d.rel p) : inOrder { d with rd := p } := by
  obtain ⟨relLt, -, wrLt, fill, -, seen, marked⟩ := h
  exact ⟨relLt, hp, wrLt, fill, before, seen, fun v => ⟨(marked v).1, after v⟩⟩

theorem inOrder_mark {d : Siding} (h : inOrder d) : inOrder { d with mark := d.rd, markValid := true } := by
  obtain ⟨relLt, rdLt, wrLt, fill, read, seen, -⟩ := h
  exact ⟨relLt, rdLt, wrLt, fill, read, seen, fun _ => ⟨rdLt, le_rfl⟩⟩

theorem inOrder_unmark {d : Siding} (h : inOrder d) : inOrder { d with markValid := false } := by
  obtain ⟨relLt, rdLt, wrLt, fill, read, seen, -⟩ := h
  exact ⟨relLt, rdLt, wrLt, fill, read, seen, fun v => absurd v Bool.false_ne_true⟩

/-- The release pointer goes to a place up to the read pointer, and to one up to the mark. -/
theorem inOrder_release {d : Siding} (h : inOrder d) {p : Nat} (hp : p < d.ptrMod)
    (upTo : d.dist d.rel p ≤ d.dist d.rel d.rd)
    (upToMark : d.markValid = true → d.dist d.rel p ≤ d.dist d.rel d.mark) : inOrder { d with rel := p } := by
  obtain ⟨-, rdLt, wrLt, fill, read, seen, marked⟩ := h
  have toRead : d.dist p d.rd = d.dist d.rel d.rd - d.dist d.rel p := Siding.dist_between upTo
  have toSeen : d.dist p d.visible = d.dist d.rel d.visible - d.dist d.rel p := Siding.dist_between (upTo.trans read)
  have toWrite : d.dist p d.wr = d.level - d.dist d.rel p :=
    Siding.dist_between ((upTo.trans read).trans seen)
  refine ⟨hp, rdLt, wrLt, ?_, ?_, ?_, fun v => ⟨(marked v).1, ?_⟩⟩
  · exact toWrite.le.trans ((Nat.sub_le ..).trans fill)
  · exact (toRead.trans_le (Nat.sub_le_sub_right read _)).trans toSeen.ge
  · exact (toSeen.trans_le (Nat.sub_le_sub_right seen _)).trans toWrite.ge
  · have toMark : d.dist p d.mark = d.dist d.rel d.mark - d.dist d.rel p := Siding.dist_between (upToMark v)
    exact (toMark.trans_le (Nat.sub_le_sub_right (marked v).2 _)).trans toRead.ge

/-- The readers jump to the end of what is written. -/
theorem inOrder_flush {d : Siding} (h : inOrder d) (shut : d.itemOpen = false) {e : Siding}
    (at_ : (e.rel, e.rd) = (d.wr, d.wr)) (unmarked : e.markValid = false)
    (same : (e.wr, e.sizeCode, e.itemOpen) = (d.wr, d.sizeCode, d.itemOpen)) : inOrder e := by
  simp only [Prod.mk.injEq] at at_ same
  obtain ⟨rel, rd⟩ := at_
  obtain ⟨wr, code, open_⟩ := same
  obtain ⟨-, -, wrLt, -⟩ := h
  have visible : e.visible = d.wr := by rw [Siding.visible, open_, shut, ← wr]; rfl
  have modulus : e.ptrMod = d.ptrMod := by rw [Siding.ptrMod, Siding.size, Siding.addrBits, code]; rfl
  refine ⟨by rwa [rel, modulus], by rwa [rd, modulus], by rwa [wr, modulus], ?_, ?_, ?_, fun v => ?_⟩
  · rw [Siding.level, rel, wr, Siding.dist_self]
    exact Nat.zero_le _
  · rw [rel, rd, visible]
  · rw [rel, visible, Siding.level, rel, wr]
  · rw [unmarked] at v
    exact absurd v Bool.false_ne_true

theorem inOrder_moveRel (s : State) {d : Siding} (h : inOrder d) {p : Nat} (hp : p < d.ptrMod)
    (upTo : d.dist d.rel p ≤ d.dist d.rel d.rd)
    (upToMark : d.markValid = true → d.dist d.rel p ≤ d.dist d.rel d.mark) : inOrder (moveRel p s d) :=
  inOrder_congr (d := { d with rel := p }) rfl (inOrder_release h hp upTo upToMark)

theorem inOrder_releaseTo (s : State) {d : Siding} (h : inOrder d) {p : Nat} (hp : p < d.ptrMod)
    (upTo : d.dist d.rel p ≤ d.dist d.rel d.rd) : inOrder (releaseTo s p d) := by
  unfold releaseTo
  extract_lets lost e
  by_cases passed : lost = true
  · have here : e = { d with markValid := false, markLost := true } := if_pos passed
    rw [here]
    exact inOrder_moveRel s (inOrder_congr (d := { d with markValid := false }) rfl (inOrder_unmark h)) hp upTo
      fun v => absurd v Bool.false_ne_true
  · have here : e = d := if_neg passed
    rw [here]
    refine inOrder_moveRel s h hp upTo fun v => ?_
    by_contra beyond
    exact passed (by simp only [lost, v, Bool.true_and, decide_eq_true_eq]; omega)

theorem inOrder_autoRelease (s : State) {d : Siding} (h : inOrder d) : inOrder (autoRelease s d.rd d) := by
  obtain ⟨-, rdLt, -, -, -, -, marked⟩ := id h
  rw [autoRelease]
  split
  · next stops =>
    simp only [Bool.and_eq_true, decide_eq_true_eq] at stops
    obtain ⟨markLt, upTo⟩ := marked stops.1
    exact inOrder_moveRel s h markLt upTo fun _ => le_rfl
  · next goes =>
    refine inOrder_moveRel s h rdLt le_rfl fun v => ?_
    by_contra beyond
    exact goes (by simp only [v, Bool.true_and, decide_eq_true_eq]; omega)

theorem clampRelease_upTo {d : Siding} (h : inOrder d) (t : Nat) :
    clampRelease d t < d.ptrMod ∧ d.dist d.rel (clampRelease d t) ≤ d.dist d.rel d.rd := by
  obtain ⟨relLt, rdLt, -⟩ := h
  simp only [clampRelease]
  split
  · next between => exact ⟨Nat.mod_lt _ d.ptrMod_pos, between⟩
  · split
    · exact ⟨relLt, d.dist_self d.rel ▸ Nat.zero_le _⟩
    · exact ⟨rdLt, le_rfl⟩

/-! What a function makes of the sidings. -/

/-- Every siding that stood in order stands in order. -/
def KeepsOrder (s t : State) : Prop := ∀ i, inOrder (s.siding i) → inOrder (t.siding i)

theorem KeepsOrder.refl (s : State) : KeepsOrder s s := fun _ h => h

theorem KeepsOrder.trans {s t u : State} (h : KeepsOrder s t) (g : KeepsOrder t u) : KeepsOrder s u :=
  fun i ordered => g i (h i ordered)

theorem KeepsOrder.of_desc {s t : State} (h : t.sdg.desc = s.sdg.desc) : KeepsOrder s t := fun i ordered => by
  rw [State.siding, h]
  exact ordered

theorem OnlyFed.keepsOrder {s t : State} (h : OnlyFed s t) : KeepsOrder s t := fun i ordered =>
  inOrder_congr (d := s.siding i) (congrArg pointers (h i) :) ordered

theorem modSiding_keepsOrder {s : State} {n : Nat} {f : Siding → Siding}
    (h : inOrder (s.siding n) → inOrder (f (s.siding n))) : KeepsOrder s (s.modSiding n f) := fun i ordered => by
  rw [State.siding_modSiding]
  split
  · next here =>
    rw [← here.1] at ordered ⊢
    exact h ordered
  · exact ordered

theorem modSdg_keepsOrder {s : State} {n : Nat} {f : Siding → Siding}
    (h : inOrder (s.siding n) → inOrder (f (s.siding n))) : KeepsOrder s (s.modSdg n f) :=
  modSiding_keepsOrder fun ordered => inOrder_congr (d := f (s.siding n)) rfl (h ordered)

/-- An update that moves no pointer. -/
theorem modSiding_still {s : State} {n : Nat} {f : Siding → Siding} (h : ∀ d, pointers (f d) = pointers d) :
    KeepsOrder s (s.modSiding n f) := modSiding_keepsOrder (inOrder_congr (h _))

theorem sidingWordWrite_keepsOrder (sid : Nat) (s : State) : KeepsOrder s (sidingWordWrite sid s) := by
  unfold sidingWordWrite
  extract_lets d
  split
  · exact .refl s
  next it rest queue =>
  split
  · exact .refl s
  · split
    · split
      · exact modSiding_still fun _ => rfl
      · exact .refl s
    · split
      · next shut =>
        split
        · exact .refl s
        · next free =>
          have closed : d.itemOpen = false := by simpa using shut
          refine modSdg_keepsOrder fun h => inOrder_write h (Nat.le_of_not_lt free) rfl ?_ rfl
          exact (if_neg (by rw [closed]; decide) : d.visible = d.wr).symm
      · split
        · next opened more =>
          have room : 1 ≤ d.free := by simp only [Bool.and_eq_true, decide_eq_true_eq] at more; exact more.2
          refine KeepsOrder.trans (t := s.putPool (d.index d.wr) (it.words.getD d.stored 0)) (.of_desc rfl)
            (modSdg_keepsOrder fun h => inOrder_write h room rfl ?_ rfl)
          have opens : d.itemOpen = true := by simpa using opened
          exact (if_pos opens).trans (if_pos opens : d.visible = d.itemStart).symm
        · exact .refl s

theorem sidingItemClose_keepsOrder (sid : Nat) (s : State) : KeepsOrder s (sidingItemClose sid s) := by
  unfold sidingItemClose
  extract_lets d
  split
  · exact .refl s
  next it rest queue =>
  split
  · exact .refl s
  · split
    · exact modSiding_still fun _ => rfl
    · split
      · exact KeepsOrder.trans
          (t := s.putPool (d.index d.itemStart) (lengthWord false false it.kind it.src it.seq it.words.length))
          (.of_desc rfl) (modSdg_keepsOrder fun h => inOrder_close h rfl rfl)
      · exact .refl s

/-- One word read, and its release where the siding releases by itself. -/
theorem readOn_keepsOrder {s : State} {sid : Nat} (more : (s.siding sid).avail ≠ 0) (auto : Bool) :
    KeepsOrder s (if auto then (s.modSdg sid fun d => { d with rd := d.add d.rd 1 }).modSdg sid fun d =>
        autoRelease (s.modSdg sid fun d => { d with rd := d.add d.rd 1 }) d.rd d
      else s.modSdg sid fun d => { d with rd := d.add d.rd 1 }) := by
  have reads : KeepsOrder s (s.modSdg sid fun d => { d with rd := d.add d.rd 1 }) := modSdg_keepsOrder fun h => by
    obtain ⟨-, -, -, fill, read, seen, marked⟩ := id h
    have step := Siding.dist_succ_le read more
    refine inOrder_read h (Nat.mod_lt _ (Siding.ptrMod_pos _)) step fun v => ?_
    have short : (s.siding sid).dist (s.siding sid).rel (s.siding sid).rd + 1 < (s.siding sid).ptrMod := by
      have cut := Siding.dist_between read
      have some_ : (s.siding sid).dist (s.siding sid).rd (s.siding sid).visible ≠ 0 := more
      have bound := Siding.dist_lt (s.siding sid) (s.siding sid).rel (s.siding sid).visible
      omega
    rw [Siding.dist_add_one short]
    exact (marked v).2.trans (Nat.le_succ _)
  split
  · exact reads.trans (modSdg_keepsOrder fun h => inOrder_autoRelease _ h)
  · exact reads

theorem popSiding_keepsOrder (sid : Nat) (s : State) : KeepsOrder s (popSiding sid ⟨[], []⟩ s).2 := by
  unfold popSiding
  extract_lets d release
  split
  · exact modSiding_still fun _ => rfl
  · split
    · exact modSiding_still fun _ => rfl
    · next more =>
      split
      · rw [takeItem_good]
        dsimp only
        obtain ⟨u, hu⟩ : ∃ u, u = s.modSiding sid (noteRecord ((itemAt s (s.siding sid)).headD 0)
          ((itemAt s (s.siding sid)).drop 1)) := ⟨_, rfl⟩
        rw [← hu]
        have notes : ∀ e lw content, pointers (noteRecord lw content e) = pointers e := fun e lw content => by
          unfold noteRecord
          split <;> rfl
        have before : KeepsOrder s u := hu ▸ modSiding_still fun e => notes e _ _
        have more' : (u.siding sid).avail ≠ 0 := by
          rw [hu, State.siding_modSiding]
          split
          · exact fun none => more ((avail_congr (notes _ _ _)).symm.trans none)
          · exact more
        exact before.trans (readOn_keepsOrder more' d.autoRel)
      · exact readOn_keepsOrder (s := s) more d.autoRel

theorem sdgPop_keepsOrder (page slot : Nat) (s : State) : KeepsOrder s (sdgPop page slot ⟨[], []⟩ s) := by
  unfold sdgPop
  split
  · exact .of_desc rfl
  next i found =>
  split
  · exact (popSiding_keepsOrder i s).trans (.of_desc rfl)
  · exact .of_desc rfl

theorem applyFlush_keepsOrder (sid : Nat) (f : Flush) (s : State) : KeepsOrder s (applyFlush sid f s) := by
  unfold applyFlush
  extract_lets d it u d' point left
  have closes : KeepsOrder s u ∧ (u.siding sid).itemOpen = false := by
    by_cases opened : d.itemOpen = true
    · obtain ⟨v, hv⟩ : ∃ v, v =
          s.putPool (d.index d.itemStart) (lengthWord true false it.kind it.src it.seq d.stored) :=
        ⟨_, rfl⟩
      have closed : u = v.modSdg sid fun d => { d with itemOpen := false, abandoned := true } := by
        rw [hv]
        exact if_pos opened
      have stored : KeepsOrder s v := hv ▸ .of_desc rfl
      rw [closed]
      refine ⟨stored.trans (modSdg_keepsOrder fun h => inOrder_close h rfl rfl), ?_⟩
      rw [State.modSdg, State.siding_modSiding]
      split
      · rfl
      · next outside =>
        have beyond : v.sdg.desc.length ≤ sid := Nat.le_of_not_lt fun lt => outside ⟨rfl, lt⟩
        rw [State.siding, List.getD_eq_default _ _ beyond]
        rfl
    · have kept : u = s := if_neg opened
      rw [kept]
      exact ⟨.refl s, Bool.not_eq_true _ ▸ opened⟩
  obtain ⟨before, shut⟩ := closes
  refine before.trans (modSdg_keepsOrder fun h => ?_)
  split
  · have end_ : point = (u.siding sid).wr := if_neg (by rw [shut]; decide)
    rw [end_]
    exact inOrder_flush h shut rfl rfl rfl
  · exact inOrder_congr (d := u.siding sid) rfl h

theorem flushComplete_keepsOrder (sid : Nat) (s : State) : KeepsOrder s (flushComplete sid s) := by
  unfold flushComplete
  extract_lets d
  split
  · exact .refl s
  next f rest queue =>
  split
  · exact .refl s
  · split
    · extract_lets u v
      have told_ : KeepsOrder s v := (modSiding_still (n := sid) (f := fun d => { d with flushes := rest })
        fun _ => rfl).trans (finish_onlyFed u f.ticket statusDone f.point (BitVec.ofNat 64 f.moved)).keepsOrder
      split
      · exact told_
      · exact told_.trans (applyFlush_keepsOrder sid _ v)
    · exact .refl s

theorem complete_keepsOrder {s : State} {t : Ticket} {status result : Nat} {result2 : Word} :
    KeepsOrder s (s.complete t status result result2) := (complete_onlyFed s t status result result2).keepsOrder

theorem KeepsOrder.completed {s u : State} {t : Ticket} {status result : Nat} {result2 : Word} (h : KeepsOrder s u) :
    KeepsOrder s (u.complete t status result result2) := h.trans complete_keepsOrder

/-- A command keeps the order where what it does once it is issued keeps it. -/
theorem issue_keepsOrder {op w : Nat} {act : List Word → Ticket → State → State} {s : State}
    (h : ∀ pk t u, KeepsOrder u (act pk t u)) : KeepsOrder s (issue op w act s) := by
  unfold issue
  split
  · exact .refl s
  next p head =>
  split
  · extract_lets t u
    have takes : KeepsOrder s u := .of_desc rfl
    split
    · exact takes.completed
    · split
      · exact takes.completed
      · exact takes.trans (h p.words t u)
  · exact .refl s

theorem onSiding_keepsOrder {pk : List Word} {t : Ticket} {act : Nat → State → State} {s : State}
    (h : ∀ sid, KeepsOrder s (act sid s)) : KeepsOrder s (onSiding pk t act s) := by
  unfold onSiding
  extract_lets sid d
  split
  · exact complete_keepsOrder
  · split
    · split
      · exact h sid
      · exact complete_keepsOrder
    · split
      · exact h sid
      · exact complete_keepsOrder

theorem sdgMark_keepsOrder (pk : List Word) (t : Ticket) (s : State) : KeepsOrder s (sdgMark pk t s) :=
  onSiding_keepsOrder fun sid => by
    dsimp only
    split
    · exact complete_keepsOrder
    · refine .completed (modSiding_keepsOrder fun h => ?_)
      exact inOrder_congr (d := { s.siding sid with mark := (s.siding sid).rd, markValid := true }) rfl (inOrder_mark h)

theorem sdgRewind_keepsOrder (pk : List Word) (t : Ticket) (s : State) : KeepsOrder s (sdgRewind pk t s) :=
  onSiding_keepsOrder fun sid => by
    dsimp only
    split
    · exact complete_keepsOrder
    · split
      · next valid =>
        refine .completed (modSdg_keepsOrder fun h => ?_)
        obtain ⟨-, -, -, -, read, -, marked⟩ := id h
        obtain ⟨markLt, upTo⟩ := marked valid
        exact inOrder_congr (d := { s.siding sid with rd := (s.siding sid).mark }) rfl
          (inOrder_read h markLt (upTo.trans read) fun _ => le_rfl)
      · next invalid =>
        refine .completed (modSdg_keepsOrder fun h => ?_)
        refine inOrder_congr (d := { s.siding sid with rd := (s.siding sid).rel }) rfl
          (inOrder_read h h.1 ?_ fun v => absurd v invalid)
        rw [Siding.dist_self]
        exact Nat.zero_le _

/-- A memory siding's own pointer is none of the siding's. -/
theorem modMemRd_keepsOrder (s : State) (sid target : Nat) :
    KeepsOrder s (s.modSiding sid fun d => { d with memRd := clampMemRd d target }) :=
  modSiding_still fun d => by simp only [pointers]

theorem sdgRelease_keepsOrder (pk : List Word) (t : Ticket) (s : State) : KeepsOrder s (sdgRelease pk t s) :=
  onSiding_keepsOrder fun sid => by
    extract_lets d target u v
    split
    · refine .completed (modSdg_keepsOrder fun h => ?_)
      by_cases all : paramBit pk 31 = true
      · have here : target = d.rd := if_pos all
        rw [here]
        exact inOrder_releaseTo s h h.2.1 le_rfl
      · have here : target = clampRelease d (param pk 8 20) := if_neg all
        rw [here]
        obtain ⟨below, upTo⟩ := clampRelease_upTo h (param pk 8 20)
        exact inOrder_releaseTo s h below upTo
    · split
      · exact (modMemRd_keepsOrder s sid _).completed
      · exact complete_keepsOrder

theorem startLong_keepsOrder (s : State) (t : Ticket) : KeepsOrder s (s.startLong t) :=
  .of_desc (congrArg Sidings.desc (startLong_sdg s t))

theorem sdgFlush_keepsOrder (pk : List Word) (t : Ticket) (s : State) : KeepsOrder s (sdgFlush pk t s) :=
  onSiding_keepsOrder fun sid => by
    extract_lets f first u
    have starts : KeepsOrder s u := (startLong_keepsOrder s t).trans (modSiding_still fun _ => rfl)
    split
    · split
      · exact (starts.trans (applyFlush_keepsOrder sid f u)).trans (flushComplete_keepsOrder sid _)
      · exact starts.trans (applyFlush_keepsOrder sid f u)
    · exact starts

/-- The interrupt condition is no pointer. -/
theorem modLevel_keepsOrder (s : State) (sid v : Nat) (en : Bool) :
    KeepsOrder s (s.modSiding sid fun d => { d with intEn := en, intLevel := clamp 1 d.size v }) :=
  modSiding_still fun _ => rfl

theorem sdgLevel_keepsOrder (pk : List Word) (t : Ticket) (s : State) : KeepsOrder s (sdgLevel pk t s) :=
  onSiding_keepsOrder fun sid => by
    extract_lets u d
    exact (modLevel_keepsOrder s sid (param pk 8 20) (paramBit pk 31)).completed

theorem sdgWatermark_keepsOrder (pk : List Word) (t : Ticket) (s : State) : KeepsOrder s (sdgWatermark pk t s) := by
  unfold sdgWatermark
  split
  · exact complete_keepsOrder
  · refine onSiding_keepsOrder fun sid => ?_
    extract_lets hi lo u
    have sets : KeepsOrder s u := modSdg_keepsOrder (inOrder_congr rfl)
    exact sets.completed

end Sys2Proof.Machine

namespace Sys2Proof.Claims

open Sys2Proof.Machine

theorem when_keepsOrder {c : Bool} {f : State → State} {s : State} (h : KeepsOrder s (f s)) :
    KeepsOrder s (when c f s) := by
  unfold when
  split
  · exact h
  · exact .refl s

end Sys2Proof.Claims
end

section
open Sys2Proof Sys2Proof.Machine Sys2Proof.Claims

/-- Settles O42: each move of a pointer keeps the order of its siding, and nothing else touches a pointer. -/
theorem noPointerPasses : Obligations.NoPointerPasses := by
  intro s t c sid w page slot hc ordered acts i
  suffices kept : ∀ u, exec c s = .next u → KeepsOrder s u from kept t acts i (ordered i)
  intro u hu
  simp only [List.mem_cons, List.not_mem_nil, or_false] at hc
  rcases hc with rfl | rfl | rfl | rfl | rfl | rfl | rfl | rfl | rfl | rfl <;> cases hu
  · exact when_keepsOrder (sidingWordWrite_keepsOrder sid s)
  · exact when_keepsOrder (sidingItemClose_keepsOrder sid s)
  · split
    · exact sdgPop_keepsOrder page slot s
    · exact .of_desc rfl
  · exact issue_keepsOrder sdgMark_keepsOrder
  · exact issue_keepsOrder sdgRewind_keepsOrder
  · exact issue_keepsOrder sdgRelease_keepsOrder
  · exact issue_keepsOrder sdgFlush_keepsOrder
  · exact when_keepsOrder (flushComplete_keepsOrder sid s)
  · exact issue_keepsOrder sdgLevel_keepsOrder
  · exact issue_keepsOrder sdgWatermark_keepsOrder
end

section
/-! PROOFS. O43 and O44: commands, beats, responses and timeouts of the memory port (R41, R279, R280, R335, R337). -/

namespace Sys2Proof.Machine

open Sys2Proof.Claims

theorem takeFirst_none {α : Type} {p : α → Bool} {l : List α} (h : ∀ x ∈ l, p x = false) : takeFirst p l = none := by
  induction l with
  | nil => rfl
  | cons x r ih =>
    rw [takeFirst, if_neg (by rw [h x List.mem_cons_self]; decide), ih fun y hy => h y (List.mem_cons_of_mem _ hy)]
    rfl

/-- With no access that has ended nothing leaves the port. -/
theorem afterPort_of_none {s : State} (h : ∀ j ∈ s.mem.jobs, j.ended = false) : afterPort s = s := by
  have stays : takeEnded s = none := by rw [takeEnded, takeFirst_none h]; rfl
  rw [afterPort, settleJobs, stays]

/-- An access with something outstanding has not ended. -/
theorem Job.not_ended_of_open {j : Job} (h : j.open_ ≠ 0) : j.ended = false := by simp [Job.ended, h]

theorem Job.ended_congr {j k : Job} (len : k.len = j.len) (issued : k.issued = j.issued) (err : k.err = j.err)
    (purpose : k.purpose = j.purpose) (open_ : k.open_ = j.open_) : k.ended = j.ended := by
  simp only [Job.ended, Job.moreToIssue, Job.scrubs, len, issued, err, purpose, open_]

theorem Job.scrubs_of_purpose {j k : Job} (h : k.purpose = j.purpose) : k.scrubs = j.scrubs := by
  simp only [Job.scrubs, h]

/-- The jobs of the port with those of one number changed. -/
theorem mem_jobs_modJob {s : State} {id : Nat} {f : Job → Job} {x : Job} (h : x ∈ (modJob id f s).mem.jobs) :
    ∃ j ∈ s.mem.jobs, x = if j.id == id then f j else j := by
  obtain ⟨j, hj, rfl⟩ := List.mem_map.mp h
  exact ⟨j, hj, rfl⟩

theorem slotFor_reserved {s : State} {c : Nat}
    (h : (s.mem.txns.filter fun t => t.cls == c).length < if c = 3 then 32 else 64) : slotFor s c = some false :=
  if_pos h

theorem barred_live {s : State} {j : Job} (h : j.owner < 16 → (s.part j.owner).state = 1) : barred s j = false := by
  unfold barred
  by_cases tenant : j.owner < 16
  · simp [h tenant]
  · simp [tenant]

theorem moreToIssue_of {j : Job} (left : j.issued < j.len) (good : j.err = 0) : j.moreToIssue = true := by
  simp [Job.moreToIssue, left, good]

/-- A failed access that is no zero-write leaves no burst unscrubbed. -/
theorem noteScrubFail_other {j : Job} (h : j.scrubs = false) (a : Nat) (s : State) : noteScrubFail j a s = s := by
  unfold Job.scrubs at h
  unfold noteScrubFail
  split
  · next hp =>
    rw [hp] at h
    exact absurd h.symm Bool.false_ne_true
  · rfl

/-- What ends at the next boundary of 2 KiB lies within one. -/
theorem piece_within (a n : Nat) (h : 0 < n) : a / 2048 = (a + min n (2048 - a % 2048) - 1) / 2048 := by omega

end Sys2Proof.Machine

namespace Sys2Proof.Claims

open Sys2Proof.Machine

theorem memoryCommand : MemoryCommand := by
  intro s id tid j hcore hdrives hj hleft herr hchecked hlive hnone hturn a len base n hwin hover hslot htid
  refine ⟨piece_within _ _ (Nat.sub_pos_of_lt hleft), ?_⟩
  have unfolded : exec (.memCmdIssue id) s =
      .next (when (s.core && s.drives) (fun s => afterPort (memCmdIssue id s)) s) := rfl
  have issues : memCmdIssue id s = { s with mem := { s.mem with
      cmd := some (b2n j.write, base, n - 1, tid, ownerCode j.owner),
      txns := s.mem.txns ++ [{
        id := tid, job := id, cls := j.cls, write := j.write, addr := base, beats := n, got := 0, at_ := s.ttb.time,
        dead := false, bad := false, part := j.owner }],
      wbeats := if j.write then s.mem.wbeats ++ writeBeats j a len else s.mem.wbeats,
      jobs := s.mem.jobs.map fun x =>
        if x.id == id then { x with issued := x.issued + len, open_ := x.open_ + 1 } else x } } := by
    have more := moreToIssue_of hleft herr
    have free := barred_live hlive
    have slot := slotFor_reserved hslot
    have piece : j.piece = (a, len) := rfl
    have beats : beatsOf a len = (base, n) := rfl
    simp only [memCmdIssue, hj, more, piece, beats, free, hturn, hchecked, hwin, hover, slot, htid, Bool.not_true,
      Bool.false_eq_true, if_false, Bool.not_false, Bool.and_false, modJob]
    rfl
  have stays : ∀ x ∈ (memCmdIssue id s).mem.jobs, x.ended = false := fun x hx => by
    rw [issues] at hx
    obtain ⟨y, hy, rfl⟩ := List.mem_map.mp hx
    split
    · exact Job.not_ended_of_open (Nat.succ_ne_zero _)
    · exact hnone y hy
  rw [unfolded, hcore, hdrives, Bool.and_self, when_true, afterPort_of_none stays, issues]

theorem memoryRefused : MemoryRefused := by
  intro s id j hcore hdrives hj hleft herr hchecked hscrubs hopen howner hlive hnone hturn honly a len base hwin
  have unfolded : exec (.memCmdIssue id) s =
      .next (when (s.core && s.drives) (fun s => afterPort (memCmdIssue id s)) s) := rfl
  have more := moreToIssue_of hleft herr
  have free := barred_live hlive
  have quiet := noteScrubFail_other hscrubs a
  have refuses : memCmdIssue id s = noteRefused j.owner base
      (modJob id (fun j => { j.fail errWindow base with issued := j.issued + len }) s) := by
    have piece : j.piece = (a, len) := rfl
    have beats : beatsOf a len = (base, (a % 128 + len + 127) / 128) := rfl
    simp only [memCmdIssue, hj, more, piece, beats, free, hturn, hchecked, hwin, Bool.not_true, Bool.false_eq_true,
      if_false, Bool.not_false, Bool.and_true, if_true, quiet]
  have jobs : (memCmdIssue id s).mem.jobs = s.mem.jobs.map fun x =>
      if x.id = id then { x with issued := x.issued + len, err := 2, bad := base } else x := by
    have moved : (memCmdIssue id s).mem.jobs = s.mem.jobs.map fun x =>
        if x.id == id then { x.fail errWindow base with issued := x.issued + len } else x := by
      rw [refuses, noteRefused]
      split <;> rfl
    rw [moved]
    refine List.map_congr_left fun x hx => ?_
    by_cases same : x.id = id
    · have good : x.err = 0 := honly x hx same ▸ herr
      simp [same, Job.fail, good, errWindow]
    · simp [same]
  have stays : ∀ x ∈ (memCmdIssue id s).mem.jobs, x.ended = false := fun x hx => by
    rw [jobs] at hx
    obtain ⟨y, hy, rfl⟩ := List.mem_map.mp hx
    split
    · next same => exact Job.not_ended_of_open (honly y hy same ▸ Nat.ne_of_gt hopen)
    · exact hnone y hy
  refine ⟨_, by rw [unfolded, hcore, hdrives, Bool.and_self, when_true, afterPort_of_none stays], ?_⟩
  obtain ⟨u, hu⟩ : ∃ u, u = memCmdIssue id s := ⟨_, rfl⟩
  rw [← hu] at jobs refuses ⊢
  rw [noteRefused] at refuses
  by_cases tenant : j.owner < 16
  · rw [if_pos tenant] at refuses
    rw [refuses] at jobs ⊢
    exact ⟨rfl, rfl, rfl, rfl, rfl, rfl, fun _ => rfl, rfl, jobs⟩
  · rw [if_neg tenant] at refuses
    rw [refuses] at jobs ⊢
    exact ⟨rfl, rfl, rfl, rfl, rfl, rfl, fun h => absurd h tenant, rfl, jobs⟩

end Sys2Proof.Claims
end

section
open Sys2Proof Sys2Proof.Machine Sys2Proof.Claims

/-- Settles O43: a command that passes every check is put on the port, one that its windows refuse is counted. -/
theorem memoryCommands : Obligations.MemoryCommands := ⟨memoryCommand, memoryRefused⟩
end

section
/-! PROOFS. O44: beats, responses, timeouts and stalled port clocks (R41, R303, R335, R337). -/

namespace Sys2Proof.Machine

open Sys2Proof.Claims

/-- A transaction that ends well frees its identity, and its access has one transaction less outstanding. -/
theorem endTxn_good {t : Txn} (h : t.dead = false) (s : State) :
    endTxn t false s = { s with mem := { s.mem with
      txns := s.mem.txns.filter fun x => x.id != t.id
      jobs := s.mem.jobs.map fun j => if j.id == t.job then { j with open_ := j.open_ - 1 } else j } } := by
  unfold endTxn
  simp only [h, Bool.false_eq_true, if_false]
  split <;> rfl

/-- One that fails, of accesses that are no zero-writes. -/
theorem endTxn_bad {t : Txn} (h : t.dead = false) {s : State} (hscrubs : ∀ j ∈ s.mem.jobs, j.scrubs = false) :
    endTxn t true s = { s with mem := { s.mem with
      txns := s.mem.txns.filter fun x => x.id != t.id
      jobs := s.mem.jobs.map fun j =>
        if j.id == t.job then { j.fail errPort t.addr with open_ := j.open_ - 1 } else j } } := by
  unfold endTxn
  simp only [h, Bool.false_eq_true, if_false, if_true]
  split
  · next j hj =>
    rw [noteScrubFail_other (hscrubs j (List.mem_of_find?_eq_some hj))]
    rfl
  · rfl

theorem fail_open (j : Job) (e a : Nat) : (j.fail e a).open_ = j.open_ := by
  unfold Job.fail
  split <;> rfl

end Sys2Proof.Machine

namespace Sys2Proof.Claims

open Sys2Proof.Machine

theorem exec_memReadBeat {s : State} (hcore : s.core = true) (hdrives : s.drives = true) (id : BitVec 8)
    (x : BitVec 1024) (l e : Bool) :
    exec (.memReadBeat id x l e) s = .next (afterPort (memReadBeat id.toNat x l e s)) := by
  have unfolded : exec (.memReadBeat id x l e) s =
      .next (when (s.core && s.drives) (fun s => afterPort (memReadBeat id.toNat x l e s)) s) := rfl
  rw [unfolded, hcore, hdrives, Bool.and_self, when_true]

theorem exec_memWriteResponse {s : State} (hcore : s.core = true) (hdrives : s.drives = true) (id : BitVec 8)
    (e : Bool) : exec (.memWriteResponse id e) s = .next (afterPort (memWriteResponse id.toNat e s)) := by
  have unfolded : exec (.memWriteResponse id e) s =
      .next (when (s.core && s.drives) (fun s => afterPort (memWriteResponse id.toNat e s)) s) := rfl
  rw [unfolded, hcore, hdrives, Bool.and_self, when_true]

theorem memoryBeats : MemoryBeats := by
  refine ⟨fun s b r hcore hdrives hbeats => ?_, fun s id x t hcore hdrives ht hdead hnone => ?_,
    fun s id x t hcore hdrives ht hdead hgood hlast => ?_, fun s id t hcore hdrives ht hdead => ?_,
    fun s id x l e hcore hdrives ht hnone => ?_, fun s id e hcore hdrives ht hnone => ?_,
    fun s hnone => afterPort_of_none hnone⟩
  · have unfolded : exec .memWriteBeat s = .next (when (s.core && s.drives) memWriteBeat s) := rfl
    rw [unfolded, hcore, hdrives, Bool.and_self, when_true, memWriteBeat, hbeats]
  · have reads : memReadBeat id.toNat x false false s = { s with mem := { s.mem with
        jobs := s.mem.jobs.map fun j =>
          if j.id == t.job then { j with got := j.got ++ [(t.addr + 128 * t.got, leBytes 128 x.toNat)] } else j,
        txns := s.mem.txns.map fun y => if y.id == id.toNat then { t with got := t.got + 1 } else y } } := by
      simp only [memReadBeat, ht, hdead, Bool.false_eq_true, if_false, Bool.false_and, Bool.or_false, modJob]
    rw [exec_memReadBeat hcore hdrives, reads]
    refine congrArg next (afterPort_of_none fun y hy => ?_)
    obtain ⟨j, hj, rfl⟩ := List.mem_map.mp hy
    split
    · exact (Job.ended_congr rfl rfl rfl rfl rfl).trans (hnone j hj)
    · exact hnone j hj
  · rw [exec_memReadBeat hcore hdrives]
    refine congrArg (fun u => next (afterPort u)) ?_
    have complete : (t.got + 1 != t.beats) = false := by rw [hlast, bne_self_eq_false]
    simp only [memReadBeat, ht, hdead, Bool.false_eq_true, if_false, Bool.false_and, hgood, Bool.or_false, modJob,
      complete, if_true]
    refine (endTxn_good (by rfl) _).trans ?_
    simp only [List.map_map]
    refine congrArg (fun jobs => ({ s with mem := { s.mem with
      txns := s.mem.txns.filter fun y => y.id != t.id, jobs := jobs } } : State)) (List.map_congr_left fun j _ => ?_)
    by_cases same : (j.id == t.job) = true
    · simp only [Function.comp_apply, if_pos same]
    · simp only [Function.comp_apply, if_neg same]
  · rw [exec_memWriteResponse hcore hdrives]
    refine congrArg (fun u => next (afterPort u)) ?_
    simp only [memWriteResponse, ht, Bool.false_and, Bool.false_eq_true, if_false]
    exact endTxn_good hdead s
  · rw [exec_memReadBeat hcore hdrives, memReadBeat, ht]
    exact congrArg next (afterPort_of_none hnone)
  · rw [exec_memWriteResponse hcore hdrives, memWriteResponse, ht]
    exact congrArg next (afterPort_of_none hnone)

theorem portFaults : PortFaults := by
  refine ⟨fun s id x hcore hx hdue hopen hnone hscrubs => ?_, fun s id x hx hearly hnone => ?_,
    fun s p hcore hwork hp => ?_, fun s hcore hwork hstall => ?_⟩
  · have unfolded : exec (.memTimeout id) s = .next (when s.core (fun s => afterPort (memTimeout id.toNat s)) s) := rfl
    have alive : x.dead = false := by
      have found := List.find?_some hx
      simp only [Bool.and_eq_true, Bool.not_eq_true'] at found
      exact found.2
    have times : memTimeout id.toNat s = { s with
        mem := { s.mem with
          timeouts := sat 16 (s.mem.timeouts + 1)
          txns := (s.mem.txns.filter fun y => y.id != x.id) ++ [{ x with dead := true }]
          jobs := s.mem.jobs.map fun j =>
            if j.id == x.job then { j.fail errPort x.addr with open_ := j.open_ - 1 } else j }
        sbx := { s.sbx with inbox := s.sbx.inbox ++ [received s (occ 0 2 0 (id.toNat * 2 ^ 48 + x.addr))] } } := by
      have due : x.at_ + 1000000 ≤ s.now := hdue
      obtain ⟨u, hu⟩ : ∃ u, u = ({ s with mem := { s.mem with timeouts := sat 16 (s.mem.timeouts + 1) } } : State).raise
        0 2 0 (id.toNat * 2 ^ 48 + x.addr) := ⟨_, rfl⟩
      rw [State.raise_core (s := { s with mem := { s.mem with timeouts := sat 16 (s.mem.timeouts + 1) } }) hcore] at hu
      have scrubs : ∀ j ∈ u.mem.jobs, j.scrubs = false := hu ▸ hscrubs
      have ends : memTimeout id.toNat s = { endTxn x true u with mem := { (endTxn x true u).mem with
          txns := (endTxn x true u).mem.txns ++ [{ x with dead := true }] } } := by
        simp only [memTimeout, hx, due, if_true]
        rw [hu, State.raise_core (s := { s with mem := { s.mem with timeouts := sat 16 (s.mem.timeouts + 1) } }) hcore]
      rw [ends, endTxn_bad alive scrubs, hu]
    have stays : ∀ y ∈ (memTimeout id.toNat s).mem.jobs, y.ended = false := fun y hy => by
      rw [times] at hy
      obtain ⟨j, hj, rfl⟩ := List.mem_map.mp hy
      split
      · next same =>
        have more := hopen j hj (beq_iff_eq.mp same)
        refine Job.not_ended_of_open ?_
        have left : j.open_ - 1 ≠ 0 := by omega
        exact left
      · exact hnone j hj
    refine ⟨_, by rw [unfolded, hcore, when_true, afterPort_of_none stays], ?_⟩
    rw [times]
    exact ⟨rfl, rfl, rfl⟩
  · have unfolded : exec (.memTimeout id) s = .next (when s.core (fun s => afterPort (memTimeout id.toNat s)) s) := rfl
    have early : ¬ x.at_ + 1000000 ≤ s.now := Nat.not_le.mpr hearly
    have waits : memTimeout id.toNat s = s := by simp only [memTimeout, hx, early, if_false]
    rw [unfolded]
    rcases Bool.eq_false_or_eq_true s.core with on | off
    · rw [on, when_true, waits, afterPort_of_none hnone]
    · rw [off, when_false]
  · have unfolded : exec (.portClockStall p) s = .next (when (s.core && portHoldsWork s p) (clockStall p) s) := rfl
    have other : (decide (p = 1) && (s.raise 0 1 p).exp.stallAt.isNone) = false := by simp [hp]
    rw [unfolded, hcore, hwork, Bool.and_self, when_true, clockStall, State.raise_core hcore]
    simp [hp]
  · have unfolded : exec (.portClockStall 1) s = .next (when (s.core && portHoldsWork s 1) (clockStall 1) s) := rfl
    rw [unfolded, hcore, hwork, Bool.and_self, when_true, clockStall, State.raise_core hcore]
    simp only [hstall, Option.isNone_none, decide_true, Bool.and_self, if_true]
    rfl

end Sys2Proof.Claims
end

section
open Sys2Proof Sys2Proof.Machine Sys2Proof.Claims

/-- Settles O44: a transaction ends by its identity, and with no access that has ended the port goes no further. -/
theorem memoryEnds : Obligations.MemoryEnds := ⟨memoryBeats, portFaults⟩
end

section
/-! PROOFS. O45: frames are taken, sent and released (R43, R339, R342, R343). -/

namespace Sys2Proof.Machine

open Sys2Proof.Claims

/-- A lane that is free with no frame in transmission takes the frame there. -/
theorem putFrame_free {s : State} {l : Nat} (h : (s.exp.lanes.getD l Lane.reset).cur = none) (f : Frame) :
    putFrame l f s = { s with exp := { s.exp with
      lanes := s.exp.lanes.modify l fun x => { x with cur := some f }, rr := (f.owner + 1) % 17 } } := by
  have put : s.exp.lanes.modify l (fun x : Lane =>
      if x.cur.isNone then { x with cur := some f } else { x with next := some f }) =
      s.exp.lanes.modify l fun x => { x with cur := some f } := modify_congr Lane.reset (by rw [h]; rfl)
  rw [putFrame, put]

theorem State.session_modSession_self {s : State} {o : Nat} (f : Session → Session) (h : o < s.exp.sess.length) :
    (s.modSession o f).session o = f (s.session o) := by
  simp only [State.session, State.modSession]
  rw [getD_modify, if_pos ⟨rfl, h⟩]

/-- The transfer of the only item in flight is done: rel_ptr passes it. -/
theorem settleFlight_only {s : State} {sid e : Nat} (h : s.exp.flight = [(sid, e, false)]) :
    settleFlight sid e s = ((({ s with exp := { s.exp with flight := [] } } : State).modSdg sid fun d =>
        if d.dist d.rel e ≤ d.dist d.rel d.rd then
          autoRelease { s with exp := { s.exp with flight := [] } } e d else d).modSiding sid fun d =>
      { d with inFlight := false }) := by
  have marked : s.exp.flight.map (fun f : Nat × Nat × Bool =>
      if f.1 == sid && f.2.1 == e then (f.1, f.2.1, true) else f) = [(sid, e, true)] := by simp [h]
  have own : [(sid, e, true)].filter (fun f : Nat × Nat × Bool => f.1 == sid) = [(sid, e, true)] := by simp
  have others : [(sid, e, true)].filter (fun f : Nat × Nat × Bool => f.1 != sid) = [] := by simp
  simp only [settleFlight, marked, own, others]
  rfl

/-- The frame of a payload whose words are good. -/
theorem payloadFrame_good (o l : Nat) (s : State) :
    let d := s.siding (s.session o).siding
    let u := s.modSdg (s.session o).siding fun e =>
      { e with rd := d.add d.rd (itemAt s d).length, inFlight := true }
    let content := wordsBytes ((itemAt s d).drop 1)
    let payload := (content.drop 32).take (leAt content 28 4)
    let last := (u.session o).closing.isSome && (u.siding (s.session o).siding).avail == 0 && drained u o
    ∃ v f, payloadFrame o l ⟨[], []⟩ s = putFrame l f v ∧ v.exp.lanes = s.exp.lanes ∧
      v.exp.sess = s.exp.sess.modify o (fun x => { x with
        seq := (s.session o).seq + 1, frames := x.frames + 1, lastSent := last,
        lastTs := walkPayload x.comp payload.length (leAt content 20 8) payload }) ∧
      v.sdg = u.sdg ∧ v.mem = s.mem ∧
      f = {
        owner := o, sid := (s.session o).siding, itemEnd := d.add d.rd (itemAt s d).length,
        bytes := frameBytes (s.session o) (leAt content 8 2) (leAt content 20 8) payload ((s.session o).seq + 1) last,
        sent := 0, last := last, hasItem := true } := by
  intro d u content payload last
  refine ⟨{ u with exp := { u.exp with
    sess := s.exp.sess.modify o fun x => { x with
      seq := (s.session o).seq + 1, frames := x.frames + 1, lastSent := last,
      lastTs := walkPayload x.comp payload.length (leAt content 20 8) payload }
    flight := s.exp.flight ++ [((s.session o).siding, d.add d.rd (itemAt s d).length, false)] } },
    _, ?_, rfl, rfl, rfl, rfl, rfl⟩
  rw [payloadFrame, takeItem_good]
  rfl

end Sys2Proof.Machine

namespace Sys2Proof.Claims

open Sys2Proof.Machine

theorem exec_exportFrameStart {s : State} {l : Nat} (hcore : s.core = true) (hdrives : s.drives = true) (hl : l < 2)
    (c b : List Nat) : exec (.exportFrameStart l c b) s = .next (frameStart l ⟨c, b⟩ s) := by
  have unfolded : exec (.exportFrameStart l c b) s =
      .next (when (s.core && s.drives && decide (l < 2)) (frameStart l ⟨c, b⟩) s) := rfl
  rw [unfolded, hcore, hdrives, decide_eq_true hl, Bool.and_self, Bool.and_self, when_true]

theorem lastFrame : LastFrame := by
  intro s l o c b hcore hdrives hl hlane ho hfree hcur hround hseq havail seq stream
  have notOver : ¬ 2 ^ 64 - 1 ≤ (s.session o).seq := Nat.not_le.mpr hseq
  have starts : frameStart l ⟨c, b⟩ s = emptyFrame o l s := by
    simp only [frameStart, hfree, hround, notOver, havail, Bool.not_true, Bool.false_eq_true, if_false, if_true]
  rw [exec_exportFrameStart hcore hdrives hl, starts, emptyFrame]
  exact congrArg next (putFrame_free (s := s.modSession o fun x =>
    { x with seq := (s.session o).seq + 1, frames := x.frames + 1, lastSent := true }) hcur _)

theorem frameTaken : FrameTaken := by
  intro s l o hcore hdrives hl hlane ho hfree hcur hround hseq havail hclosing henc hlive d content payload head sealed_
  have notOver : ¬ 2 ^ 64 - 1 ≤ (s.session o).seq := Nat.not_le.mpr hseq
  have starts : frameStart l ⟨[], []⟩ s = payloadFrame o l ⟨[], []⟩ s := by
    simp only [frameStart, hfree, hround, notOver, havail, Bool.not_true, Bool.false_eq_true, if_false]
  refine ⟨_, (exec_exportFrameStart hcore hdrives hl [] []).trans (congrArg next starts), ?_⟩
  have inRange : (s.session o).siding < s.sdg.desc.length :=
    State.siding_lt_of_state_ne_zero (by rw [hlive]; decide)
  obtain ⟨u, hu⟩ : ∃ u, u = s.modSdg (s.session o).siding fun e =>
    { e with rd := d.add d.rd (itemAt s d).length, inFlight := true } := ⟨_, rfl⟩
  have self : u.siding (s.session o).siding = { ({ d with
      rd := d.add d.rd (itemAt s d).length, inFlight := true } : Siding) with
      xoff := xoffOf (s.session o).siding { d with rd := d.add d.rd (itemAt s d).length, inFlight := true } } := by
    rw [hu]
    exact State.siding_modSdg_self _ inRange
  obtain ⟨v, f, takes, hlanes, hsess, hsdg, hmem, hf⟩ := payloadFrame_good o l s
  rw [← hu] at hsess hsdg hf
  have shut : (u.session o).closing.isSome = false := by
    rw [hu]
    exact congrArg Option.isSome hclosing
  have frame : f = {
      owner := o, sid := (s.session o).siding, itemEnd := d.add d.rd (itemAt s d).length,
      bytes := head ++ sealed_.1 ++ sealed_.2, sent := 0, last := false, hasItem := true } := by
    rw [hf, shut, Bool.false_and, Bool.false_and, frameBytes, henc]
    rfl
  have put : payloadFrame o l ⟨[], []⟩ s = { v with exp := { v.exp with
      lanes := v.exp.lanes.modify l fun x => { x with cur := some f }, rr := (f.owner + 1) % 17 } } :=
    takes.trans (putFrame_free (hlanes ▸ hcur) f)
  have sidings : v.siding (s.session o).siding = u.siding (s.session o).siding :=
    congrArg (fun g : Sidings => g.desc.getD (s.session o).siding Siding.reset) hsdg
  have sess := getD_modify s.exp.sess o o (fun x => { x with
    seq := (s.session o).seq + 1, frames := x.frames + 1,
    lastSent := (u.session o).closing.isSome && (u.siding (s.session o).siding).avail == 0 && drained u o,
    lastTs := walkPayload x.comp payload.length (leAt content 20 8) payload }) Session.reset
  rw [if_pos ⟨rfl, ho⟩] at sess
  have session : v.session o = _ := (congrArg (fun g => g.getD o Session.reset) hsess).trans sess
  have lanes := getD_modify v.exp.lanes l l (fun x => { x with cur := some f }) Lane.reset
  rw [if_pos ⟨rfl, hlanes.symm ▸ hlane⟩] at lanes
  rw [put]
  refine ⟨((congrArg Lane.cur lanes).trans rfl).trans (congrArg some frame), (congrArg Session.seq session).trans rfl,
    (congrArg Session.frames session).trans rfl, (congrArg Siding.rd (sidings.trans self)).trans rfl,
    (congrArg Siding.rel (sidings.trans self)).trans rfl, (congrArg Siding.inFlight (sidings.trans self)).trans rfl,
    ?_, hmem, ?_⟩
  · exact congrArg (fun g : Frame => (g.owner + 1) % 17) frame
  · exact (congrArg Sidings.pool hsdg).trans (hu ▸ rfl)

theorem frameBeats : FrameBeats := by
  refine ⟨fun s l f hcore hdrives hcur habort hlen => ?_,
    fun s l f hcore hdrives hcur habort hlen hitem hlast => ?_, fun s l hdrives habort hresets => ?_,
    fun s l hdrives habort hresets => ?_⟩
  · have unfolded : exec (.exportBeatAccept l) s = .next (when (s.core && s.drives) (beatAccept l) s) := rfl
    rw [unfolded, hcore, hdrives, Bool.and_self, when_true]
    simp only [beatAccept, hcur, habort, hlen, Bool.not_false, decide_true, Bool.and_self, if_true]
    rfl
  · have unfolded : exec (.exportEofAccept l) s = .next (when (s.core && s.drives) (eofAccept l) s) := rfl
    rw [unfolded, hcore, hdrives, Bool.and_self, when_true]
    simp only [eofAccept, hcur, habort, hlen, hitem, hlast, Bool.not_false, decide_true, Bool.and_self, if_true,
      Bool.false_eq_true, if_false]
    rfl
  all_goals
    have unfolded : exec (.exportAbortAccept l) s = .next (when s.drives (abortAccept l) s) := rfl
    rw [unfolded, hdrives, when_true]
    simp only [abortAccept, habort, if_true, clockSeen, modLane]
    refine congrArg (fun lanes => next ({ s with exp := { s.exp with stallAt := none, lanes := lanes } } : State))
      (modify_congr Lane.reset ?_)
    simp only [hresets, if_true, Bool.false_eq_true, if_false]

theorem exportReleases : ExportReleases := by
  intro s l f hcore hdrives hcur habort hlen hitem hlast hlive hmark hflight hupTo
  have unfolded : exec (.exportEofAccept l) s = .next (when (s.core && s.drives) (eofAccept l) s) := rfl
  obtain ⟨u, hu⟩ : ∃ u, u = clockSeen (modLane l (fun x =>
    { x with cur := x.next, next := none, frames := wrap 32 (x.frames + 1) }) s) := ⟨_, rfl⟩
  have ends : eofAccept l s = settleFlight f.sid f.itemEnd u := by
    simp only [eofAccept, hcur, habort, hlen, hitem, hlast, Bool.not_false, decide_true, Bool.and_self, if_true,
      Bool.false_eq_true, if_false, hu]
  refine ⟨_, by rw [unfolded, hcore, hdrives, Bool.and_self, when_true, ends], ?_⟩
  have flight : u.exp.flight = [(f.sid, f.itemEnd, false)] := hu ▸ hflight
  have sidings : u.sdg = s.sdg := hu ▸ rfl
  rw [settleFlight_only flight]
  obtain ⟨v, hv⟩ : ∃ v : State, v = { u with exp := { u.exp with flight := [] } } := ⟨_, rfl⟩
  rw [← hv]
  have same : ∀ i, v.siding i = s.siding i := fun i => by
    rw [hv]
    exact congrArg (fun g : Sidings => g.desc.getD i Siding.reset) sidings
  have inRange : f.sid < v.sdg.desc.length := by
    have bound : f.sid < s.sdg.desc.length := State.siding_lt_of_state_ne_zero (by rw [hlive]; decide)
    rw [hv]
    exact sidings ▸ bound
  obtain ⟨w, hw⟩ : ∃ w, w = v.modSdg f.sid fun d =>
    if d.dist d.rel f.itemEnd ≤ d.dist d.rel d.rd then autoRelease v f.itemEnd d else d := ⟨_, rfl⟩
  rw [← hw]
  have moved : (if (v.siding f.sid).dist (v.siding f.sid).rel f.itemEnd ≤ (v.siding f.sid).dist (v.siding f.sid).rel
      (v.siding f.sid).rd then autoRelease v f.itemEnd (v.siding f.sid) else v.siding f.sid) =
      moveRel f.itemEnd v (s.siding f.sid) := by
    rw [same, if_pos hupTo, autoRelease, hmark, Bool.false_and, if_neg Bool.false_ne_true]
  have self : w.siding f.sid = { moveRel f.itemEnd v (s.siding f.sid) with
      xoff := xoffOf f.sid (moveRel f.itemEnd v (s.siding f.sid)) } := by
    rw [hw, State.siding_modSdg_self _ inRange, moved]
  have inRange' : f.sid < w.sdg.desc.length := by
    rw [hw]
    exact (State.modSiding_length _ _ _).symm ▸ inRange
  have final := State.siding_modSiding_self w f.sid (fun d => { d with inFlight := false }) inRange'
  rw [self] at final
  refine ⟨(congrArg Siding.rel final).trans rfl, (congrArg Siding.rd final).trans rfl,
    (congrArg Siding.inFlight final).trans rfl, ?_, fun i hi => ?_⟩
  · rw [hw, hv]
    rfl
  · rw [State.siding_modSiding_ne _ _ (Ne.symm hi), hw, State.siding_modSdg_ne _ (Ne.symm hi), same]

end Sys2Proof.Claims
end

section
open Sys2Proof Sys2Proof.Machine Sys2Proof.Claims

/-- Settles O45: a lane takes the next frame of the round, its beats leave, and its end releases the item. -/
theorem exportFrames : Obligations.ExportFrames := ⟨frameTaken, lastFrame, frameBeats, exportReleases⟩
end

section
/-! PROOFS. O47: a frame window that opens withdraws the sample sets of an earlier item of the same number. -/

namespace Sys2Proof.Machine

/-- A frame window of slot 0 whose time has come. -/
def windowDue : FrameWin :=
  { id := 0, slot := 0, stream := 0, nf := 0, epoch := 0, lag := 0, openAt := 0, closeAt := none, opened := false,
    closed := false, counts := [], runs := [] }

/-- A plan of one layer. -/
def oneLayerPlan : Plan :=
  { planId := 0, stream := 0, lagUs := 0, bundle := 0, totalLen := 0, lanemaps := [], layers := [parseLayer [] []],
    digest := [] }

/-- The next epoch, in which the layer of that plan has one sample set. -/
def oneSampleEpoch : EpochPlan :=
  { epoch := nextEpoch State.reset.ttb, seed := 0, frac := [], short := [], inTracks := [],
    layers := [(0, 0, 1, [0])], skips := [], reserve := [], masks := [], budget := 0, share := 0, floor := 0,
    armed := [],
    extra := [], plans := [(0, oneLayerPlan)], told := false }

/-- The layer has lost a chunk in the epoch, and an item has the number that the next item takes. -/
def numberInUse : State :=
  { State.reset with
    pins := { Pins.reset with porstN := true }
    wtp := { State.reset.wtp with
      windows := [windowDue]
      cur := some oneSampleEpoch
      slots := State.reset.wtp.slots.set 0
        { state := 2, deferred := false, loading := false, owner := 16, plan := some oneLayerPlan }
      badLayers := [(nextEpoch State.reset.ttb, 0, 0)]
      items := [makeItem State.reset windowDue oneLayerPlan 0 1 [0] (parseLayer [] [])] } }

/-- Which sample sets of the items are done. -/
def samplesDone (l : List WorkItem) : List (List Bool) := l.map fun i => i.samples.map fun x => x.done

end Sys2Proof.Machine
end

section
open Sys2Proof Sys2Proof.Machine Sys2Proof.Claims

/-- Refutes O47: the withdrawal of the new item (R183) also ends the sample set of the item that was there before, so
that the items are not the former ones with new ones behind them. -/
theorem not_frameWindows : ¬ Obligations.FrameWindows := by
  rintro ⟨⟨opens, -⟩, -⟩
  have runs : numberInUse.core = true := by decide +kernel
  obtain ⟨t, acts, -, ⟨new, items, -⟩, -⟩ := opens numberInUse 0 windowDue runs rfl (Nat.zero_le _) rfl
  have waiting : windowToOpen numberInUse 0 = some windowDue := by decide +kernel
  have unfolded : exec (.frameWindowOpen 0) numberInUse = .next (if numberInUse.core then
    withSome (windowToOpen numberInUse 0) openWindow numberInUse else numberInUse) := rfl
  rw [if_pos runs, waiting] at unfolded
  have same : openWindow windowDue numberInUse = t := Host.Outcome.next.inj (unfolded.symm.trans acts)
  have before : samplesDone numberInUse.wtp.items = [[false]] := by decide +kernel
  have after : samplesDone (openWindow windowDue numberInUse).wtp.items = [[true], [true]] := by decide +kernel
  rw [same, items, samplesDone, List.map_append, ← samplesDone, before] at after
  exact absurd (List.cons.inj after).1 (by decide)
end

section
/-! PROOFS. O48: work items start in their order, and their chunks are decrypted or discarded (R183, R210). -/

namespace Sys2Proof.Machine

open Sys2Proof.Claims

/-! ### The order of the items -/

theorem before_iff (a b : WorkItem) : before a b = true ↔
    [a.due.getD 0, a.layer.station, a.slot, a.layerIx] < [b.due.getD 0, b.layer.station, b.slot, b.layerIx] :=
  decide_eq_true_iff

theorem before_trans {a b c : WorkItem} (h : before a b = true) (g : before b c = true) : before a c = true := by
  rw [before_iff] at h g ⊢
  exact h.trans g

/-- Of `b` and the items of a list the first one. -/
def firstOf (b : WorkItem) (l : List WorkItem) : WorkItem := l.foldl (fun b i => if before i b then i else b) b

theorem firstItem_cons (b : WorkItem) (l : List WorkItem) : firstItem (b :: l) = some (firstOf b l) := by
  rw [firstItem, firstOf, List.foldl_cons]
  induction l generalizing b with
  | nil => rfl
  | cons i l ih =>
    rw [List.foldl_cons, List.foldl_cons, ← ih]
    by_cases earlier : before i b = true
    · simp only [earlier, if_true]
    · simp only [earlier, if_false, Bool.false_eq_true]

/-- No candidate comes before the first one. -/
theorem firstOf_first (b : WorkItem) (l : List WorkItem) :
    (firstOf b l = b ∨ firstOf b l ∈ l) ∧ ¬ before b (firstOf b l) = true ∧
      ∀ x ∈ l, ¬ before x (firstOf b l) = true := by
  induction l generalizing b with
  | nil => exact ⟨.inl rfl, fun h => lt_irrefl _ ((before_iff b b).mp h), fun x hx => absurd hx List.not_mem_nil⟩
  | cons i l ih =>
    by_cases earlier : before i b = true
    · obtain ⟨mem, least, rest⟩ := ih i
      have goes : firstOf b (i :: l) = firstOf i l := congrArg (fun c => firstOf c l) (if_pos earlier)
      rw [goes]
      refine ⟨.inr ?_, fun h => least (before_trans earlier h), fun x hx => ?_⟩
      · rcases mem with same | mem
        · rw [same]
          exact List.mem_cons_self
        · exact List.mem_cons_of_mem _ mem
      · rcases List.mem_cons.mp hx with rfl | hx
        · exact least
        · exact rest x hx
    · obtain ⟨mem, least, rest⟩ := ih b
      have goes : firstOf b (i :: l) = firstOf b l := congrArg (fun c => firstOf c l) (if_neg earlier)
      rw [goes]
      refine ⟨mem.imp_right (List.mem_cons_of_mem _), least, fun x hx => ?_⟩
      rcases List.mem_cons.mp hx with rfl | hx
      · intro sooner
        rw [before_iff] at sooner earlier least
        exact earlier (sooner.trans_le (not_lt.mp least))
      · exact rest x hx

theorem firstItem_first {l : List WorkItem} {it : WorkItem} (h : firstItem l = some it) :
    it ∈ l ∧ ∀ x ∈ l, ¬ before x it = true := by
  cases l with
  | nil => exact absurd h.symm (Option.some_ne_none it)
  | cons i l =>
    obtain ⟨mem, least, rest⟩ := firstOf_first i l
    rw [Option.some.inj ((firstItem_cons i l).symm.trans h)] at mem least rest
    refine ⟨?_, fun x hx => ?_⟩
    · rcases mem with rfl | mem
      · exact List.mem_cons_self
      · exact List.mem_cons_of_mem _ mem
    · rcases List.mem_cons.mp hx with rfl | hx
      · exact least
      · exact rest x hx

/-! ### The chunks that an item asks for -/

/-- The fetch of a list of chunks adds an access for each, and touches nothing but the port's accesses. -/
theorem fetchChunks_adds (t item : Nat) (pilot : Bool) (owner bundle : Nat) (l : List Nat) (s : State) :
    ∃ new, new.length = l.length ∧ fetchChunks t item pilot owner bundle l s = { s with mem := { s.mem with
      jobs := s.mem.jobs ++ new, nextJob := s.mem.nextJob + l.length } } := by
  unfold fetchChunks
  induction l generalizing s with
  | nil => exact ⟨[], rfl, by rw [List.append_nil]; rfl⟩
  | cons i l ih =>
    obtain ⟨new, len, adds⟩ := ih (fetchChunk t item pilot owner bundle i s)
    obtain ⟨j, hj⟩ : ∃ j, fetchChunk t item pilot owner bundle i s = { s with mem := { s.mem with
        jobs := s.mem.jobs ++ [j], nextJob := s.mem.nextJob + 1 } } := ⟨_, rfl⟩
    refine ⟨j :: new, congrArg (· + 1) len, ?_⟩
    have jobs : s.mem.jobs ++ [j] ++ new = s.mem.jobs ++ j :: new := List.append_assoc ..
    have next_ : s.mem.nextJob + 1 + l.length = s.mem.nextJob + (l.length + 1) := by omega
    rw [forEach_cons, adds, hj]
    simp only [jobs, next_, List.length_cons]

/-- The chunks of an item are all fetched where no other item of its layer holds one. -/
theorem askChunks_alone {it : WorkItem} {s : State}
    (h : ∀ j ∈ s.wtp.items, j.track = it.track → j.slot = it.slot → j.layerIx = it.layerIx → j.id ≠ it.id →
      j.chunks = []) :
    askChunks it s = fetchChunks it.track it.id false it.owner it.bundle (itemChunks it.layer)
      (modItem it.id (fun i => { i with asked := true, chunks := [], fetch := itemChunks it.layer }) s) := by
  have held : (s.wtp.items.filter fun j => j.track == it.track && j.slot == it.slot && j.layerIx == it.layerIx &&
      j.id != it.id).flatMap (·.chunks) = [] := by
    rw [List.flatMap_eq_nil_iff]
    intro j hj
    obtain ⟨mem, layer⟩ := List.mem_filter.mp hj
    simp only [Bool.and_eq_true, beq_iff_eq, bne_iff_ne] at layer
    obtain ⟨⟨⟨track, slot⟩, ix⟩, other⟩ := layer
    exact h j mem track slot ix other
  have none_ : (itemChunks it.layer).filterMap (fun _ => (none : Option (Nat × List Byte))) = [] := by simp
  have all : (itemChunks it.layer).filter (fun _ => true) = itemChunks it.layer :=
    List.filter_eq_self.mpr fun _ _ => rfl
  simp only [askChunks, held, List.find?_nil, none_, List.any_nil, Bool.not_false, all]

/-! ### What a withdrawn layer leaves -/

/-- What the end of an item depends on. -/
structure ItemGist where
  id      : Nat
  due     : Option Nat
  track   : Nat
  samples : List Sample

def itemGist (i : WorkItem) : ItemGist := { id := i.id, due := i.due, track := i.track, samples := i.samples }

/-- What the withdrawal of a layer is about, without the chunks that the next items ask for. -/
structure Gist where
  items   : List ItemGist
  old     : List EpochPlan
  owed    : List OwedSts
  sbx     : SignalBox
  intIn   : List (List Rec)
  bad     : List (Nat × Nat × Nat)
  count   : Nat
  tracks  : List (Nat × Option Nat)

def gist (s : State) : Gist :=
  { items := s.wtp.items.map itemGist, old := s.wtp.old, owed := s.wbr.owedSts, sbx := s.sbx, intIn := s.jct.intIn,
    bad := s.wtp.badLayers, count := s.wtp.wdrCnt, tracks := s.trk.map fun x => (x.tagFail, x.running) }

theorem gist_modItem {s : State} {id : Nat} {f : WorkItem → WorkItem} (h : ∀ i, itemGist (f i) = itemGist i) :
    gist (modItem id f s) = gist s := by
  have items : (s.wtp.items.map fun x => if x.id == id then f x else x).map itemGist = s.wtp.items.map itemGist := by
    rw [List.map_map]
    refine List.map_congr_left fun i _ => ?_
    rw [Function.comp_apply]
    split
    · exact h i
    · rfl
  exact congrArg (fun l => { gist s with items := l }) items

theorem gist_askChunks (it : WorkItem) (s : State) : gist (askChunks it s) = gist s := by
  unfold askChunks
  extract_lets held need mine left u
  obtain ⟨new, -, adds⟩ := fetchChunks_adds it.track it.id false it.owner it.bundle left u
  rw [adds]
  exact (rfl : gist _ = gist u).trans (gist_modItem fun _ => rfl)

theorem gist_fetchReady (t : Nat) (s : State) : gist (fetchReady t s) = gist s := by
  refine forEach_keeps (fun u => gist u = gist s) _ _ _ rfl fun _ u hu => ?_
  unfold fetchNext
  split
  · exact hu
  · split
    · exact (gist_askChunks ..).trans hu
    · exact hu

theorem gist_settleCoverage {s : State} (hold : (gist s).old = []) (howed : (gist s).owed = []) :
    gist (settleCoverage s) = gist s := by
  have none_ : s.wtp.old = [] := hold
  have nothing : s.wbr.owedSts = [] := howed
  unfold settleCoverage sendSts
  simp only [none_, forEach_nil, nothing, List.filter_nil]
  exact congrArg (fun l => { gist s with owed := l }) howed.symm

/-- The tracks when an item leaves. -/
def leftBy (it : ItemGist) (l : List (Nat × Option Nat)) : List (Nat × Option Nat) :=
  l.modify it.track fun x => if x.2 == some it.id then (x.1, none) else x

theorem map_modify_of {α β : Type} {l : List α} {n : Nat} {f : α → α} {g : α → β} {f' : β → β}
    (h : ∀ x, g (f x) = f' (g x)) : (l.modify n f).map g = (l.map g).modify n f' := by
  refine List.ext_getElem? fun k => ?_
  rw [List.getElem?_map, List.getElem?_modify, List.getElem?_modify, List.getElem?_map]
  cases l[k]? with
  | none => rfl
  | some x =>
    simp only [Option.map_some]
    split
    · exact congrArg some (h x)
    · rfl

theorem gist_dropItem (it : WorkItem) (s : State) :
    gist (dropItem it s) = { gist s with
      items := (gist s).items.filter fun e => e.id != it.id
      tracks := leftBy (itemGist it) (gist s).tracks } := by
  have items : (s.wtp.items.filter fun x => x.id != it.id).map itemGist =
      (s.wtp.items.map itemGist).filter fun e => e.id != it.id := by
    rw [List.filter_map]
    rfl
  have leaves : ∀ x : Track, (fun y : Nat × Option Nat => if y.2 == some it.id then (y.1, none) else y)
      (x.tagFail, x.running) = (x.tagFail, if x.running == some it.id then none else x.running) := fun x => by
    dsimp only
    split <;> rfl
  unfold dropItem
  extract_lets w u
  by_cases running : ((u.track it.track).running == some it.id) = true
  · rw [if_pos running]
    have tracks : (s.trk.modify it.track fun x => { x with running := none, retrying := none }).map
        (fun x => (x.tagFail, x.running)) = leftBy (itemGist it) (s.trk.map fun x => (x.tagFail, x.running)) := by
      have here : s.trk.modify it.track (fun x => { x with running := none, retrying := none }) =
          s.trk.modify it.track fun x => { x with
            running := if x.running == some it.id then none else x.running, retrying := none } := by
        refine modify_congr Track.reset ?_
        have same : ((s.trk.getD it.track Track.reset).running == some it.id) = true := running
        simp only [same, if_true]
      rw [here]
      exact map_modify_of fun x => (leaves x).symm
    exact congrArg₂ (fun l m => { gist s with items := l, tracks := m }) items tracks
  · rw [if_neg running]
    have tracks : (s.trk.map fun x => (x.tagFail, x.running)) =
        leftBy (itemGist it) (s.trk.map fun x => (x.tagFail, x.running)) := by
      have here : s.trk = s.trk.modify it.track fun x => { x with
          running := if x.running == some it.id then none else x.running } := by
        refine (List.modify_id it.track s.trk).symm.trans (modify_congr Track.reset ?_)
        have other : ¬ ((s.trk.getD it.track Track.reset).running == some it.id) = true := running
        simp only [other, if_false, Bool.false_eq_true]
        rfl
      exact (congrArg (List.map _) here).trans (map_modify_of fun x => (leaves x).symm)
    exact congrArg₂ (fun l m => { gist s with items := l, tracks := m }) items tracks

/-- A sample set of an item is done. -/
def markDone (id num : Nat) (e : ItemGist) : ItemGist :=
  if e.id == id then { e with samples := e.samples.map fun y => if y.num == num then { y with done := true } else y }
  else e

theorem gist_withdrawSample (it : WorkItem) (x : Sample) (s : State) :
    gist (withdrawSample it x s) = { gist s with
      items := (gist s).items.map (markDone it.id x.num), count := wrap 32 ((gist s).count + 1) } := by
  have items : (s.wtp.items.map fun i => if i.id == it.id then
      { i with samples := i.samples.map fun y => if y.num == x.num then { y with done := true } else y } else i).map
      itemGist = (s.wtp.items.map itemGist).map (markDone it.id x.num) := by
    rw [List.map_map, List.map_map]
    refine List.map_congr_left fun i _ => ?_
    by_cases same : (i.id == it.id) = true
    · have same' : ((itemGist i).id == it.id) = true := same
      rw [Function.comp_apply, Function.comp_apply, if_pos same, markDone, if_pos same']
      rfl
    · have other : ¬ ((itemGist i).id == it.id) = true := same
      rw [Function.comp_apply, Function.comp_apply, if_neg same, markDone, if_neg other]
  exact congrArg (fun l => { gist s with items := l, count := wrap 32 (s.wtp.wdrCnt + 1) }) items

/-- Sample sets of an item are done. -/
def markAll (id : Nat) (xs : List Sample) (e : ItemGist) : ItemGist := xs.foldl (fun e x => markDone id x.num e) e

theorem markDone_keeps (id num : Nat) (e : ItemGist) :
    (markDone id num e).id = e.id ∧ (markDone id num e).due = e.due ∧ (markDone id num e).track = e.track := by
  unfold markDone
  split <;> exact ⟨rfl, rfl, rfl⟩

theorem markAll_keeps (id : Nat) (xs : List Sample) (e : ItemGist) :
    (markAll id xs e).id = e.id ∧ (markAll id xs e).due = e.due ∧ (markAll id xs e).track = e.track := by
  induction xs generalizing e with
  | nil => exact ⟨rfl, rfl, rfl⟩
  | cons x xs ih =>
    obtain ⟨id₁, due₁, track₁⟩ := markDone_keeps id x.num e
    obtain ⟨id₂, due₂, track₂⟩ := ih (markDone id x.num e)
    exact ⟨id₂.trans id₁, due₂.trans due₁, track₂.trans track₁⟩

theorem markAll_other {id : Nat} (xs : List Sample) {e : ItemGist} (h : e.id ≠ id) : markAll id xs e = e := by
  induction xs with
  | nil => rfl
  | cons x xs ih =>
    have other : markDone id x.num e = e := if_neg (by simp [h])
    exact (congrArg (markAll id xs) other).trans ih

/-- Each sample set is one of before, done if it was done or is to be done. -/
theorem mem_markAll {id : Nat} {xs : List Sample} {e : ItemGist} (h : e.id = id) {y : Sample}
    (hy : y ∈ (markAll id xs e).samples) :
    ∃ y₀ ∈ e.samples, y₀.num = y.num ∧ (y₀.done = true → y.done = true) ∧ ∀ x ∈ xs, x.num = y.num → y.done = true := by
  induction xs generalizing e with
  | nil => exact ⟨y, hy, rfl, fun done => done, fun x hx => absurd hx List.not_mem_nil⟩
  | cons x xs ih =>
    obtain ⟨z, hz, num, done, rest⟩ := ih (e := markDone id x.num e) ((markDone_keeps id x.num e).1.trans h) hy
    have marked : (markDone id x.num e).samples =
        e.samples.map fun y => if y.num == x.num then { y with done := true } else y := by
      rw [markDone, if_pos (beq_iff_eq.mpr h)]
    rw [marked] at hz
    obtain ⟨y₀, hy₀, rfl⟩ := List.mem_map.mp hz
    by_cases same : (y₀.num == x.num) = true
    · rw [if_pos same] at num done
      refine ⟨y₀, hy₀, num, fun _ => done rfl, fun k hk hnum => ?_⟩
      exact done rfl
    · rw [if_neg same] at num done
      refine ⟨y₀, hy₀, num, done, fun k hk hnum => ?_⟩
      rcases List.mem_cons.mp hk with rfl | hk
      · exact absurd (beq_iff_eq.mpr (num.trans hnum.symm)) same
      · exact rest k hk hnum

/-- All that is not done of an item is marked: all of it is done. -/
theorem markAll_done (i : WorkItem) {y : Sample}
    (hy : y ∈ (markAll i.id (i.samples.filter fun x => !x.done) (itemGist i)).samples) : y.done = true := by
  obtain ⟨y₀, hy₀, num, done, rest⟩ := mem_markAll (e := itemGist i) rfl hy
  by_cases was : y₀.done = true
  · exact done was
  · exact rest y₀ (List.mem_filter.mpr ⟨hy₀, by simp [was]⟩) num

theorem gist_withdrawAll (it : WorkItem) (s : State) :
    ∃ c, gist (withdrawAll it s) = { gist s with
        items := (gist s).items.map (markAll it.id (it.samples.filter fun x => !x.done)), count := c } ∧
      c % 2 ^ 32 = ((gist s).count + (it.samples.filter fun x => !x.done).length) % 2 ^ 32 := by
  unfold withdrawAll
  generalize it.samples.filter (fun x => !x.done) = xs
  induction xs generalizing s with
  | nil => exact ⟨(gist s).count, by rw [forEach_nil, show markAll it.id [] = id from rfl, List.map_id], rfl⟩
  | cons x xs ih =>
    obtain ⟨c, hc, count⟩ := ih (withdrawSample it x s)
    rw [gist_withdrawSample] at hc count
    refine ⟨c, ?_, ?_⟩
    · rw [forEach_cons, hc]
      simp only [List.map_map]
      rfl
    · rw [count, List.length_cons]
      have sum : (wrap 32 ((gist s).count + 1) + xs.length) % 2 ^ 32 = ((gist s).count + (xs.length + 1)) % 2 ^ 32 := by
        rw [wrap, Nat.mod_add_mod, Nat.add_assoc, Nat.add_comm 1]
      exact sum

/-- An item found with nothing left to commit leaves once it is due. -/
theorem gist_settleItem {s : State} {id : Nat} {j : WorkItem} (hold : (gist s).old = []) (howed : (gist s).owed = [])
    (hfind : itemById s id = some j) (hdone : ∀ y ∈ j.samples, y.done = true) :
    gist (settleItem id s) = if j.due.isSome then { gist s with
        items := (gist s).items.filter fun e => e.id != j.id
        tracks := leftBy (itemGist j) (gist s).tracks } else gist s := by
  have all : j.samples.all (·.done) = true := List.all_eq_true.mpr hdone
  unfold settleItem
  rw [hfind]
  dsimp only
  rw [all, Bool.true_and]
  split
  · have leaves : gist (leaveTrack j s) = { gist s with
        items := (gist s).items.filter fun e => e.id != j.id
        tracks := leftBy (itemGist j) (gist s).tracks } :=
      (gist_fetchReady j.track (dropItem j s)).trans (gist_dropItem j s)
    rw [gist_settleCoverage (leaves ▸ hold) (leaves ▸ howed), leaves]
  · rfl

/-- The item that runs on a track, by its number. -/
def runsOn (g : Gist) (t : Nat) : Option Nat := (g.tracks.getD t (0, none)).2

theorem leftBy_tags (e : ItemGist) (l : List (Nat × Option Nat)) : (leftBy e l).map (·.1) = l.map (·.1) := by
  have same := map_modify_of (l := l) (n := e.track) (g := fun x : Nat × Option Nat => x.1)
    (f := fun x => if x.2 == some e.id then (x.1, none) else x) (f' := id) fun x => by
      split <;> rfl
  rw [leftBy, same, List.modify_id]

theorem leftBy_getD (e : ItemGist) (l : List (Nat × Option Nat)) (t : Nat) :
    ((leftBy e l).getD t (0, none)).2 =
      if t = e.track ∧ (l.getD t (0, none)).2 = some e.id then none else (l.getD t (0, none)).2 := by
  rw [leftBy, getD_modify]
  by_cases here : e.track = t
  · by_cases inside : t < l.length
    · rw [if_pos ⟨here, inside⟩]
      by_cases running : (l.getD t (0, none)).2 = some e.id
      · rw [if_pos (beq_iff_eq.mpr running), if_pos ⟨here.symm, running⟩]
      · rw [if_neg (by simpa using running), if_neg fun h => running h.2]
    · rw [if_neg fun h => inside h.2, List.getD_eq_default _ _ (Nat.le_of_not_lt inside)]
      split <;> rfl
  · rw [if_neg fun h => here h.1, if_neg fun h => here h.1.symm]

theorem runsOn_gist (s : State) (t : Nat) : runsOn (gist s) t = (s.track t).running :=
  congrArg Prod.snd (List.getD_map s.trk Track.reset fun x : Track => (x.tagFail, x.running))

theorem tagFail_of_tags {s u : State} (h : (gist u).tracks.map (·.1) = (gist s).tracks.map (·.1)) (t : Nat) :
    (u.track t).tagFail = (s.track t).tagFail := by
  have reads : ∀ v : State, ((gist v).tracks.map (·.1)).getD t 0 = (v.track t).tagFail := fun v => by
    simp only [gist, List.map_map]
    exact List.getD_map v.trk Track.reset fun x : Track => x.tagFail
  rw [← reads, ← reads, h]

/-- What stays of the gist, and how much the withdrawals count. -/
structure Calm (g h : Gist) (n : Nat) : Prop where
  old : h.old = g.old
  owed : h.owed = g.owed
  sbx : h.sbx = g.sbx
  intIn : h.intIn = g.intIn
  bad : h.bad = g.bad
  tags : h.tracks.map (·.1) = g.tracks.map (·.1)
  runs : ∀ t, runsOn h t = runsOn g t ∨ runsOn h t = none
  count : h.count % 2 ^ 32 = (g.count + n) % 2 ^ 32

theorem Calm.refl (g : Gist) : Calm g g 0 := ⟨rfl, rfl, rfl, rfl, rfl, rfl, fun _ => .inl rfl, rfl⟩

theorem Calm.trans {g h k : Gist} {n m : Nat} (a : Calm g h n) (b : Calm h k m) : Calm g k (n + m) where
  old := b.old.trans a.old
  owed := b.owed.trans a.owed
  sbx := b.sbx.trans a.sbx
  intIn := b.intIn.trans a.intIn
  bad := b.bad.trans a.bad
  tags := b.tags.trans a.tags
  runs t := by
    rcases b.runs t with same | none_
    · rw [same]
      exact a.runs t
    · exact .inr none_
  count := by rw [b.count, ← Nat.mod_add_mod, a.count, Nat.mod_add_mod, Nat.add_assoc]

/-- The item stands in the gist as it was, alone under its number. -/
def Untouched (i : WorkItem) (g : Gist) : Prop :=
  itemGist i ∈ g.items ∧ ∀ e ∈ g.items, e.id = i.id → e = itemGist i

/-- What is left of an item under its number has nothing to commit and no due time. -/
def Spent (i : WorkItem) (g : Gist) : Prop := ∀ e ∈ g.items, e.id = i.id → i.due = none ∧ ∀ y ∈ e.samples, y.done = true

/-- The withdrawal of one item. -/
theorem withdrawItem_spends {s : State} {i : WorkItem} (hold : (gist s).old = []) (howed : (gist s).owed = [])
    (hi : Untouched i (gist s)) :
    Calm (gist s) (gist (settleItem i.id (withdrawAll i s))) (i.samples.filter fun x => !x.done).length ∧
      Spent i (gist (settleItem i.id (withdrawAll i s))) ∧
      (∀ e : ItemGist, e.id ≠ i.id → (e ∈ (gist (settleItem i.id (withdrawAll i s))).items ↔ e ∈ (gist s).items)) ∧
      (i.due.isSome = true → runsOn (gist s) i.track = some i.id →
        runsOn (gist (settleItem i.id (withdrawAll i s))) i.track = none) := by
  obtain ⟨present, alone⟩ := hi
  obtain ⟨c, hc, count⟩ := gist_withdrawAll i s
  obtain ⟨u, hu⟩ : ∃ u, u = withdrawAll i s := ⟨_, rfl⟩
  rw [← hu] at hc ⊢
  have kept : ∀ e ∈ (gist u).items, e.id = i.id →
      e = markAll i.id (i.samples.filter fun x => !x.done) (itemGist i) := fun e he same => by
    rw [hc] at he
    obtain ⟨e₀, he₀, rfl⟩ := List.mem_map.mp he
    rw [alone e₀ he₀ ((markAll_keeps ..).1.symm.trans same)]
  have others : ∀ e : ItemGist, e.id ≠ i.id → (e ∈ (gist u).items ↔ e ∈ (gist s).items) := fun e other => by
    rw [hc]
    refine ⟨fun he => ?_, fun he => List.mem_map.mpr ⟨e, he, markAll_other _ other⟩⟩
    obtain ⟨e₀, he₀, rfl⟩ := List.mem_map.mp he
    have same : e₀.id ≠ i.id := fun h => other ((markAll_keeps ..).1.trans h)
    rw [markAll_other _ same]
    exact he₀
  obtain ⟨j, hj⟩ : ∃ j, itemById u i.id = some j := by
    have here : markAll i.id (i.samples.filter fun x => !x.done) (itemGist i) ∈ (gist u).items := by
      rw [hc]
      exact List.mem_map_of_mem present
    obtain ⟨j, hj, same⟩ := List.mem_map.mp here
    refine Option.isSome_iff_exists.mp (List.find?_isSome.mpr ⟨j, hj, beq_iff_eq.mpr ?_⟩)
    exact (congrArg ItemGist.id same).trans (markAll_keeps ..).1
  have jid : j.id = i.id := 
    beq_iff_eq.mp (List.find?_some (p := fun x : WorkItem => x.id == i.id) hj)
  have jgist := kept (itemGist j) (List.mem_map_of_mem (List.mem_of_find?_eq_some hj)) jid
  have jdue : j.due = i.due := (congrArg ItemGist.due jgist).trans (markAll_keeps ..).2.1
  have jtrack : j.track = i.track := (congrArg ItemGist.track jgist).trans (markAll_keeps ..).2.2
  have jdone : ∀ y ∈ j.samples, y.done = true := fun y hy =>
    markAll_done i ((congrArg ItemGist.samples jgist) ▸ hy)
  rw [gist_settleItem (hc ▸ hold) (hc ▸ howed) hj jdone, jdue, jid]
  by_cases due : i.due.isSome = true
  · rw [if_pos due]
    refine ⟨⟨?_, ?_, ?_, ?_, ?_, ?_, fun t => ?_, ?_⟩, fun e he same => ?_, fun e other => ?_, fun _ running => ?_⟩
    · rw [hc]
    · rw [hc]
    · rw [hc]
    · rw [hc]
    · rw [hc]
    · rw [hc]
      exact leftBy_tags ..
    · rw [hc]
      have left := leftBy_getD (itemGist j) (gist s).tracks t
      exact (ite_eq_or_eq _ _ _).symm.imp left.trans left.trans
    · rw [hc]
      exact count
    · have gone := (List.mem_filter.mp he).2
      rw [same, bne_self_eq_false] at gone
      exact absurd gone Bool.false_ne_true
    · exact List.mem_filter.trans ((and_iff_left (bne_iff_ne.mpr other)).trans (others e other))
    · rw [hc]
      refine (leftBy_getD (itemGist j) (gist s).tracks i.track).trans (if_pos ⟨jtrack.symm, running.trans ?_⟩)
      exact congrArg some jid.symm
  · rw [if_neg due]
    refine ⟨⟨?_, ?_, ?_, ?_, ?_, ?_, fun t => ?_, ?_⟩, fun e he same => ?_, others, fun h => absurd h due⟩
    · rw [hc]
    · rw [hc]
    · rw [hc]
    · rw [hc]
    · rw [hc]
    · rw [hc]
    · rw [hc]
      exact .inl rfl
    · rw [hc]
      exact count
    · rw [kept e he same]
      exact ⟨Option.not_isSome_iff_eq_none.mp due, fun y hy => markAll_done i hy⟩

/-- The withdrawal of several items. -/
theorem withdrawItems_spend (l : List WorkItem) {s : State} (hold : (gist s).old = []) (howed : (gist s).owed = [])
    (hl : ∀ i ∈ l, Untouched i (gist s)) (hnodup : (l.map fun i => i.id).Nodup) :
    let u := forEach l (fun i s => settleItem i.id (withdrawAll i s)) s
    Calm (gist s) (gist u) (l.flatMap fun i => i.samples.filter fun x => !x.done).length ∧
      (∀ i ∈ l, Spent i (gist u)) ∧
      (∀ e : ItemGist, (∀ i ∈ l, e.id ≠ i.id) → (e ∈ (gist u).items ↔ e ∈ (gist s).items)) ∧
      (∀ i ∈ l, i.due.isSome = true → runsOn (gist s) i.track = some i.id → runsOn (gist u) i.track = none) := by
  induction l generalizing s with
  | nil =>
    exact ⟨.refl _, fun _ h => absurd h List.not_mem_nil, fun _ _ => .rfl, fun _ h => absurd h List.not_mem_nil⟩
  | cons i l ih =>
    obtain ⟨apart, hnodup⟩ := List.nodup_cons.mp hnodup
    obtain ⟨calm, spent, others, stops⟩ := withdrawItem_spends hold howed (hl i List.mem_cons_self)
    have other : ∀ k ∈ l, k.id ≠ i.id := fun k hk same => apart (List.mem_map.mpr ⟨k, hk, same⟩)
    obtain ⟨v, hv⟩ : ∃ v, v = settleItem i.id (withdrawAll i s) := ⟨_, rfl⟩
    rw [← hv] at calm spent others stops
    have untouched : ∀ k ∈ l, Untouched k (gist v) := fun k hk => by
      obtain ⟨present, alone⟩ := hl k (List.mem_cons_of_mem _ hk)
      refine ⟨(others _ (other k hk)).mpr present, fun e he same => ?_⟩
      exact alone e ((others e (same ▸ other k hk)).mp he) same
    obtain ⟨calm', spent', kept, stops'⟩ :=
      ih (s := v) (calm.old.trans hold) (calm.owed.trans howed) untouched hnodup
    intro u
    have steps : u = forEach l (fun i s => settleItem i.id (withdrawAll i s)) v := hv ▸ rfl
    rw [← steps] at calm' spent' kept stops'
    refine ⟨?_, fun k hk => ?_, fun e he => ?_, fun k hk due running => ?_⟩
    · rw [List.flatMap_cons, List.length_append]
      exact calm.trans calm'
    · rcases List.mem_cons.mp hk with rfl | hk
      · intro e he same
        exact spent e ((kept e fun k' hk' h => other k' hk' (h.symm.trans same)).mp he) same
      · exact spent' k hk
    · exact (kept e fun k hk => he k (List.mem_cons_of_mem _ hk)).trans (others e (he i List.mem_cons_self))
    · rcases List.mem_cons.mp hk with rfl | hk
      · rcases calm'.runs k.track with same | none_
        · exact same.trans (stops due running)
        · exact none_
      · rcases calm.runs k.track with same | none_
        · exact stops' k hk due (same.trans running)
        · rcases calm'.runs k.track with same | none'
          · exact same.trans none_
          · exact none'

end Sys2Proof.Machine

namespace Sys2Proof.Claims

open Sys2Proof.Machine

theorem workItemOrder : WorkItemOrder := by
  intro s t it h
  obtain ⟨mem, least⟩ := firstItem_first h
  obtain ⟨inItems, ready⟩ := List.mem_filter.mp mem
  simp only [Bool.and_eq_true, beq_iff_eq] at ready
  refine ⟨inItems, ready.1, ready.2, fun x hx track phase sooner => ?_⟩
  exact least x (List.mem_filter.mpr ⟨hx, by simp [track, phase]⟩) ((before_iff x it).mpr sooner)

theorem exec_workItemStart {s : State} {t : Nat} {it : WorkItem} (hcore : s.core = true) (hin : (s.track t).state = 1)
    (hfree : (s.track t).running = none) (hnext : nextItem s t = some it) :
    exec (.workItemStart t) s = .next (startItem t it s) := by
  have unfolded : exec (.workItemStart t) s = .next (when s.core (workItemStart t) s) := rfl
  rw [unfolded, hcore, when_true]
  simp only [workItemStart, hin, hfree, hnext, bne_self_eq_false, Option.isSome_none, Bool.or_self, Bool.false_eq_true,
    if_false]

theorem workItemStarts : WorkItemStarts := by
  refine ⟨fun s t it hcore hin hfree hnext hnothing => ?_,
    fun s t it hcore hin hfree hnext hsome hchunks hasked hothers => ?_,
    fun s t it hcore hin hfree hnext hsome hasked => ?_⟩
  · rw [exec_workItemStart hcore hin hfree hnext, startItem, if_pos hnothing]
    rfl
  · refine ⟨_, exec_workItemStart hcore hin hfree hnext, ?_⟩
    obtain ⟨u, hu⟩ : ∃ u, u = makeRoom t it (s.modTrack t fun x =>
      { x with running := some it.id, progress := s.now, left := 0, retrying := none }) := ⟨_, rfl⟩
    have alone : ∀ j ∈ u.wtp.items, j.track = it.track → j.slot = it.slot → j.layerIx = it.layerIx → j.id ≠ it.id →
        j.chunks = [] := fun j hj => by
      rw [hu] at hj
      obtain ⟨i, hi, rfl⟩ := List.mem_map.mp hj
      split
      · exact fun _ _ _ _ => rfl
      · exact hothers i hi
    obtain ⟨new, len, adds⟩ := fetchChunks_adds it.track it.id false it.owner it.bundle (itemChunks it.layer)
      (modItem it.id (fun i => { i with asked := true, chunks := [], fetch := itemChunks it.layer }) u)
    have starts : startItem t it s = modItem it.id (fun i => { i with phase := if i.fetch.isEmpty then 3 else 2 })
        (fetchChunks it.track it.id false it.owner it.bundle (itemChunks it.layer)
          (modItem it.id (fun i => { i with asked := true, chunks := [], fetch := itemChunks it.layer }) u)) := by
      simp only [startItem, hsome, hasked, Bool.false_eq_true, if_false]
      rw [← hu, askChunks_alone alone]
    rw [starts, adds]
    have inRange : t < s.trk.length := by
      by_contra outside
      rw [State.track, List.getD_eq_default _ _ (Nat.le_of_not_lt outside)] at hin
      exact absurd hin (by decide)
    have tracks : u.trk = s.trk.modify t fun x =>
      { x with running := some it.id, progress := s.now, left := 0, retrying := none } := hu ▸ rfl
    have mem : u.mem = s.mem := hu ▸ rfl
    refine ⟨?_, fun i hi hid => ?_, ?_, ?_, hu ▸ rfl, hu ▸ rfl⟩
    · have self := getD_modify s.trk t t (fun x =>
        { x with running := some it.id, progress := s.now, left := 0, retrying := none }) Track.reset
      rw [if_pos ⟨rfl, inRange⟩, ← tracks] at self
      exact congrArg Track.running self
    · obtain ⟨j, hj, rfl⟩ := List.mem_map.mp hi
      obtain ⟨k, hk, rfl⟩ := List.mem_map.mp hj
      by_cases same : (k.id == it.id) = true
      · have fetching : (itemChunks it.layer).isEmpty = false := by
          rw [Bool.eq_false_iff, ne_eq, List.isEmpty_iff]
          exact hchunks
        simp only [if_pos same, fetching, Bool.false_eq_true, if_false, and_self]
      · simp only [if_neg same] at hid
        exact absurd (beq_iff_eq.mpr hid) same
    · have jobs : (u.mem.jobs ++ new).length = s.mem.jobs.length + (itemChunks it.layer).length := by
        rw [List.length_append, len, mem]
      exact jobs
    · have grows : s.mem.jobs <+: u.mem.jobs ++ new := mem ▸ List.prefix_append ..
      exact grows
  · rw [exec_workItemStart hcore hin hfree hnext, startItem]
    simp only [hsome, hasked, if_true, Bool.false_eq_true, if_false]
    rfl

theorem discardChunk_core {s : State} (h : s.core = true) (t bundle ix : Nat) :
    discardChunk t bundle ix s = { s with
      trk := s.trk.modify t fun x => { x with tagFail := sat 16 (x.tagFail + 1) }
      sbx := { s.sbx with inbox := s.sbx.inbox ++ [received s (occ 7 4 t (bundle * 2 ^ 32 + ix))] } } :=
  State.raise_core (s := s.modTrack t fun x => { x with tagFail := sat 16 (x.tagFail + 1) }) h ..

/-- The item of number `id` without its next chunk to decrypt. -/
def dropRaw (id : Nat) (i : WorkItem) : WorkItem := if i.id == id then { i with raw := i.raw.drop 1 } else i

/-- A track in service decrypts the next chunk of the item that it runs. -/
theorem exec_chunkDecrypt {s : State} {t id ix : Nat} {it : WorkItem} {b : List Byte} {r : List (Nat × List Byte)}
    (hcore : s.core = true) (hin : (s.track t).state = 1) (hrun : (s.track t).running = some id)
    (hid : itemById s id = some it) (hraw : it.raw = (ix, b) :: r) (htrack : it.track = t) :
    exec (.chunkDecryptComplete t .ok) s = .next (itemChunk t .ok it ix b s) := by
  have unfolded : exec (.chunkDecryptComplete t .ok) s =
      .next (when (s.core && (s.track t).state == 1) (chunkDecrypt t .ok) s) := rfl
  have takes : decryptItem s t = some it := by
    simp only [decryptItem, hrun, Option.bind_some, hid, htrack, hraw, beq_self_eq_true, List.isEmpty_cons,
      Bool.not_false, Bool.and_self, if_true]
  rw [unfolded, hcore, hin, beq_self_eq_true, Bool.and_self, when_true, chunkDecrypt, takes]
  simp only [hraw]

theorem chunkDecrypted : ChunkDecrypted := by
  refine ⟨fun s t id ix it b plain r hcore hin hrun hid hraw htrack hopen => ?_,
    fun s t id ix it b r hcore ht hin hrun hid hraw hopen htrack hdue hfresh hnodup howed hold => ?_⟩
  · have good : checkChunk s t (it.bundle * 2 ^ 32 + ix) .ok b = .good plain := by simp only [checkChunk, hopen]
    rw [exec_chunkDecrypt hcore hin hrun hid hraw htrack, itemChunk]
    simp only [good, noteChunk, modItem, List.map_map]
    refine congrArg next (congrArg (fun l => ({ s.modTrack t fun x => { x with progress := s.now } with
      wtp := { s.wtp with items := l } } : State)) (List.map_congr_left fun i _ => ?_))
    by_cases same : (i.id == it.id) = true
    · simp only [Function.comp_apply, if_pos same]
    · simp only [Function.comp_apply, if_neg same]
  · intro lacks
    have bad : checkChunk s t (it.bundle * 2 ^ 32 + ix) .ok b = .bad := by simp only [checkChunk, hopen]
    have itid : it.id = id := beq_iff_eq.mp (List.find?_some (p := fun x : WorkItem => x.id == id) hid)
    have itmem : it ∈ s.wtp.items := List.mem_of_find?_eq_some hid
    obtain ⟨v, hv⟩ : ∃ v, v = modItem it.id (fun i => { i with raw := i.raw.drop 1 })
      (discardChunk t it.bundle ix (s.modTrack t fun x => { x with progress := s.now })) := ⟨_, rfl⟩
    have discards : itemChunk t .ok it ix b s = withdrawLayer it ix v := by
      rw [itemChunk]
      simp only [bad, noteChunk, hv]
    refine ⟨_, (exec_chunkDecrypt hcore hin hrun hid hraw htrack).trans (congrArg next discards), ?_⟩
    have became : v = { s with
        trk := (s.trk.modify t fun x => { x with progress := s.now }).modify t fun x =>
          { x with tagFail := sat 16 (x.tagFail + 1) }
        wtp := { s.wtp with items := s.wtp.items.map (dropRaw it.id) }
        sbx := { s.sbx with inbox := s.sbx.inbox ++ [received s (occ 7 4 t (it.bundle * 2 ^ 32 + ix))] } } := by
      rw [hv, discardChunk_core (s := s.modTrack t fun x => { x with progress := s.now }) hcore]
      rfl
    obtain ⟨v₁, hv₁⟩ : ∃ v₁ : State, v₁ = { v with
      wtp := { v.wtp with badLayers := (v.ttb.epoch, it.slot, it.layerIx) :: v.wtp.badLayers }
      sbx := { v.sbx with arising := some (7, it.track) } } := ⟨_, rfl⟩
    obtain ⟨w, hw⟩ : ∃ w, w = forEach (v₁.wtp.items.filter lacks)
      (fun i s => settleItem i.id (withdrawAll i s)) v₁ := ⟨_, rfl⟩
    have ends : withdrawLayer it ix v = { w with sbx := { w.sbx with arising := v.sbx.arising } } := by
      rw [hw, hv₁]
      rfl
    have items : v₁.wtp.items = s.wtp.items.map (dropRaw it.id) := by rw [hv₁, became]
    have gists : ∀ i, itemGist (dropRaw it.id i) = itemGist i := fun i => by
      unfold dropRaw
      split <;> rfl
    have lack : ∀ i, lacks (dropRaw it.id i) = lacks i := fun i => by
      unfold dropRaw
      split <;> rfl
    have lacking : v₁.wtp.items.filter lacks = (s.wtp.items.filter lacks).map (dropRaw it.id) := by
      rw [items, List.filter_map]
      exact congrArg (List.map _) (List.filter_congr fun i _ => lack i)
    have all : (gist v₁).items = s.wtp.items.map itemGist := by
      refine (congrArg (List.map itemGist) items).trans ?_
      rw [List.map_map]
      exact List.map_congr_left fun i _ => gists i
    have untouched : ∀ i ∈ s.wtp.items, Untouched (dropRaw it.id i) (gist v₁) := fun i hi => by
      rw [Untouched, gists, all]
      refine ⟨List.mem_map_of_mem hi, fun e he same => ?_⟩
      obtain ⟨k, hk, rfl⟩ := List.mem_map.mp he
      have ids : k.id = i.id := same.trans (congrArg ItemGist.id (gists i))
      rw [List.inj_on_of_nodup_map hnodup hk hi ids]
    have distinct : ((v₁.wtp.items.filter lacks).map fun i => i.id).Nodup := by
      rw [lacking, List.map_map]
      have ids : (fun i : WorkItem => i.id) ∘ dropRaw it.id = fun i => i.id :=
        funext fun i => congrArg ItemGist.id (gists i)
      rw [ids]
      exact hnodup.sublist (List.filter_sublist.map _)
    obtain ⟨calm, spent, -, stops⟩ := withdrawItems_spend (v₁.wtp.items.filter lacks) (s := v₁)
      (by rw [hv₁, became]; exact hold) (by rw [hv₁, became]; exact howed)
      (fun i hi => by
        rw [lacking] at hi
        obtain ⟨k, hk, rfl⟩ := List.mem_map.mp hi
        exact untouched k (List.mem_of_mem_filter hk)) distinct
    rw [← hw] at calm spent stops
    rw [ends]
    have itlacks : lacks it = true := by
      have none_ : (it.chunks.any fun c => c.1 == ix) = false := by
        rw [List.any_eq_false]
        exact fun c hc same => hfresh c hc (beq_iff_eq.mp same)
      simp only [lacks, beq_self_eq_true, none_, Bool.not_false, Bool.and_self]
    have track : v₁.track t = { s.track t with
        progress := s.now, tagFail := sat 16 ((s.track t).tagFail + 1) } := by
      rw [hv₁, became]
      refine (getD_modify ..).trans ((if_pos ⟨rfl, by rwa [List.length_modify]⟩).trans ?_)
      exact congrArg (fun x : Track => { x with tagFail := sat 16 (x.tagFail + 1) })
        ((getD_modify ..).trans (if_pos ⟨rfl, ht⟩))
    refine ⟨?_, ?_, ?_, ?_, ?_, ?_, ?_⟩
    · refine (runsOn_gist w t).symm.trans ?_
      have mem : dropRaw it.id it ∈ v₁.wtp.items.filter lacks := by
        rw [lacking]
        exact List.mem_map_of_mem (List.mem_filter.mpr ⟨itmem, itlacks⟩)
      have due : (dropRaw it.id it).due = it.due := congrArg ItemGist.due (gists it)
      have on : (dropRaw it.id it).track = t := (congrArg ItemGist.track (gists it)).trans htrack
      have ids : (dropRaw it.id it).id = id := (congrArg ItemGist.id (gists it)).trans itid
      have stop := stops _ mem (by rw [due]; exact Option.isSome_iff_ne_none.mpr hdue)
      rw [on, ids] at stop
      exact stop ((runsOn_gist v₁ t).trans ((congrArg Track.running track).trans hrun))
    · exact (tagFail_of_tags calm.tags t).trans (congrArg Track.tagFail track)
    · intro i hi hlacks j hj same
      have mem : dropRaw it.id i ∈ v₁.wtp.items.filter lacks := by
        rw [lacking]
        exact List.mem_map_of_mem (List.mem_filter.mpr ⟨hi, hlacks⟩)
      have left : itemGist j ∈ (gist w).items := List.mem_map_of_mem (f := itemGist) hj
      have ended := spent _ mem (itemGist j) left (same.trans (congrArg ItemGist.id (gists i)).symm)
      have due : (dropRaw it.id i).due = i.due := congrArg ItemGist.due (gists i)
      exact ⟨due.symm.trans ended.1, ended.2⟩
    · have bad : w.wtp.badLayers = v₁.wtp.badLayers := calm.bad
      have here : (s.ttb.epoch, it.slot, it.layerIx) ∈ w.wtp.badLayers := by
        rw [bad, hv₁, became]
        exact List.mem_cons_self
      exact here
    · have sbx : w.sbx = v₁.sbx := calm.sbx
      have inbox : w.sbx.inbox = s.sbx.inbox ++ [received s (occ 7 4 t (it.bundle * 2 ^ 32 + ix))] := by
        rw [sbx, hv₁, became]
      exact inbox
    · have counts : (gist v₁).count = s.wtp.wdrCnt := by rw [hv₁, became]; rfl
      have total := calm.count
      rw [counts, lacking, List.flatMap_map] at total
      have samples : ∀ i, (dropRaw it.id i).samples = i.samples := fun i => congrArg ItemGist.samples (gists i)
      simp only [samples] at total
      exact total
    · have intIn : w.jct.intIn = v₁.jct.intIn := calm.intIn
      exact intIn.trans (by rw [hv₁, became])

end Sys2Proof.Claims
end

section
open Sys2Proof Sys2Proof.Machine Sys2Proof.Claims

/-- Settles O48: the first ready item starts, and the gist of the withdrawn items follows them through the loop. -/
theorem workItems : Obligations.WorkItems := ⟨workItemStarts, workItemOrder, chunkDecrypted⟩
end

section
/-! PROOFS. O49: passes, the known-answer tile, the watchdog and the withdrawal of a track (R65, R184-R187). -/

namespace Sys2Proof.Machine

open Sys2Proof.Claims

/-! ### What the loss of a track keeps -/

/-- The part of a track that tells whether it serves. -/
def serviceOf (x : Track) : Nat × Nat × BitVec 8 := (x.state, x.cause, x.slotValid)

/-- The Signal Box loses no occurrence, and each track serves as before. -/
structure Serves (s t : State) : Prop where
  grows : s.sbx.inbox <+: t.sbx.inbox
  service : t.trk.map serviceOf = s.trk.map serviceOf

namespace Serves

variable {s t u : State}

theorem refl (s : State) : Serves s s := ⟨List.prefix_rfl, rfl⟩

theorem trans (h : Serves s t) (g : Serves t u) : Serves s u := ⟨h.grows.trans g.grows, g.service.trans h.service⟩

/-- An effect that touches neither. -/
theorem of_eq (inbox : t.sbx.inbox = s.sbx.inbox) (trk : t.trk = s.trk) : Serves s t :=
  ⟨inbox ▸ List.prefix_rfl, congrArg _ trk⟩

theorem forEach {α : Type} (l : List α) {f : α → State → State} (h : ∀ x u, Serves u (f x u)) (s : State) :
    Serves s (forEach l f s) :=
  forEach_keeps (Serves s) l f s (.refl s) fun x u k => k.trans (h x u)

theorem ite {c : Prop} [Decidable c] (h : Serves s t) (g : Serves s u) : Serves s (if c then t else u) := by
  split
  · exact h
  · exact g

end Serves

theorem post_serves (s : State) (o : Occurrence) : Serves s (s.post o) := by
  unfold State.post
  split
  · exact ⟨List.prefix_append .., rfl⟩
  · exact .refl s

theorem modTrack_serves {s : State} {t : Nat} {f : Track → Track} (h : ∀ x, serviceOf (f x) = serviceOf x) :
    Serves s (s.modTrack t f) := by
  refine ⟨List.prefix_rfl, ?_⟩
  have same := map_modify_of (l := s.trk) (n := t) (f := f) (g := serviceOf) (f' := id) h
  exact same.trans (List.modify_id ..)

theorem countOverdue_serves (s : State) (late : List Owed) : Serves s (s.countOverdue late) :=
  ⟨List.prefix_append .., rfl⟩

theorem emit_serves (s : State) (k key : Nat) (r : Rec) : Serves s (s.emit k key r) :=
  (countOverdue_serves s _).trans (.of_eq rfl rfl)

theorem emitVrd_serves (s : State) (key : Nat) (r : Rec) : Serves s (s.emitVrd key r) :=
  .ite (emit_serves ..) (.of_eq rfl rfl)

theorem verdictEvent_serves (code : Nat) (differs : Bool) (slot station stream owner layer epoch detail : Nat)
    (s : State) : Serves s (verdictEvent code differs slot station stream owner layer epoch detail s) := post_serves ..

theorem noteCommit_serves (code reason epoch plan slot stream station layer owner : Nat) (differs : Bool) (s : State) :
    Serves s (noteCommit code reason epoch plan slot stream station layer owner differs s) := by
  unfold noteCommit
  extract_lets a old b c d
  have ha : Serves s a := .of_eq rfl rfl
  have hb : Serves s b := .ite (ha.trans (.of_eq rfl rfl)) ha
  have hc : Serves s c := hb.trans (.of_eq rfl rfl)
  have hd : Serves s d := .ite (hc.trans (.of_eq rfl rfl)) hc
  exact hd.trans (verdictEvent_serves ..)

theorem noteSums_serves (it : WorkItem) (sums : List Int) (s : State) : Serves s (noteSums it sums s) := by
  unfold noteSums
  extract_lets place
  split
  · exact .of_eq rfl rfl
  · exact .refl s

theorem commitSample_serves (it : WorkItem) (x : Sample) (code reason : Nat) (r : SampleResult) (s : State) :
    Serves s (commitSample it x code reason r s) := by
  unfold commitSample
  extract_lets l a b c d due
  have ha : Serves s a := noteCommit_serves ..
  have clips : Serves a (noteClips it.track r.clipLow r.clipHigh a) := modTrack_serves fun _ => rfl
  have hb : Serves s b := (ha.trans clips).trans (noteSums_serves ..)
  have hc : Serves s c := .ite (hb.trans (.of_eq rfl rfl)) hb
  have hd : Serves s d := hc.trans (.of_eq rfl rfl)
  exact (hd.trans (emitVrd_serves ..)).trans (.of_eq rfl rfl)

theorem loseSample_serves (reason : Nat) (it : WorkItem) (x : Sample) (s : State) :
    Serves s (loseSample reason it x s) := (noteCommit_serves ..).trans (.of_eq rfl rfl)

theorem moveGathering_serves (tracks : List Nat) (it : WorkItem) (s : State) :
    Serves s (moveGathering tracks it s) :=
  (Serves.forEach _ (fun x u => loseSample_serves lostTrack it x u) s).trans (.of_eq rfl rfl)

theorem dropItem_serves (it : WorkItem) (s : State) : Serves s (dropItem it s) := by
  unfold dropItem
  extract_lets w u
  have hu : Serves s u := .of_eq rfl rfl
  exact .ite (hu.trans (modTrack_serves fun _ => rfl)) hu

theorem abandonItem_serves (reason : Nat) (it : WorkItem) (s : State) : Serves s (abandonItem reason it s) :=
  (Serves.forEach _ (fun x u => commitSample_serves it x vIncomplete reason (resultNow u it x) u) s).trans
    (dropItem_serves ..)

theorem loseTrackItems_serves (t : Nat) (s : State) : Serves s (loseTrackItems t s) := by
  unfold loseTrackItems
  extract_lets tracks a b
  have ha : Serves s a := .of_eq rfl rfl
  have hb : Serves s b :=
    ha.trans (Serves.forEach _ (fun i u => .ite (moveGathering_serves ..) (abandonItem_serves ..)) a)
  exact hb.trans (.of_eq rfl rfl)

theorem sendPlt_serves (f : PFrame) (r : Rec) (s : State) : Serves s (sendPlt f r s) :=
  (emit_serves s 3 (pltKey f) r).trans (.of_eq rfl rfl)

theorem skipFrame_serves (f : PFrame) (cause : Nat) (s : State) : Serves s (skipFrame f cause s) := by
  unfold skipFrame
  extract_lets a b
  have ha : Serves s a := .of_eq rfl rfl
  have hb : Serves s b := ha.trans (sendPlt_serves ..)
  exact hb.trans (post_serves ..)

theorem admitFrame_serves (tracks : List Nat) (f : PFrame) (s : State) : Serves s (admitFrame tracks f s) := by
  unfold admitFrame
  split
  next budget share he =>
  split
  · exact skipFrame_serves ..
  · split
    · exact skipFrame_serves ..
    · split
      · exact skipFrame_serves ..
      · split
        · exact .of_eq rfl rfl
        · exact .ite (skipFrame_serves ..) (skipFrame_serves ..)

theorem readmitFrames_serves (t : Nat) (s : State) : Serves s (readmitFrames t s) := by
  unfold readmitFrames
  extract_lets mine a left
  have ha : Serves s a := Serves.forEach _ (fun f u => skipFrame_serves f skipOther u) s
  refine ha.trans (Serves.forEach _ (fun f u => ?_) a)
  extract_lets v
  have hv : Serves u v := .of_eq rfl rfl
  split
  · exact hv.trans (admitFrame_serves ..)
  · exact hv

theorem shortfall_serves (cause engine epoch low : Nat) (streams : List Nat) (owner : Nat) (s : State) :
    Serves s (shortfall cause engine epoch low streams owner s) := by
  unfold shortfall
  extract_lets old u
  have hu : Serves s u := .of_eq rfl rfl
  exact hu.trans (post_serves ..)

theorem tellCoverage_serves (ep : EpochPlan) (n : Nat) (s : State) : Serves s (tellCoverage ep n s) := by
  unfold tellCoverage
  split
  · exact .refl s
  · extract_lets w old u
    have hu : Serves s u := .of_eq rfl rfl
    exact .ite hu (hu.trans (shortfall_serves ..))

theorem settleCoverage_serves (s : State) : Serves s (settleCoverage s) := by
  unfold settleCoverage sendSts
  extract_lets done due sent kept wanted
  have hdone : Serves s done := Serves.forEach _ (fun ep u => by
    refine .ite (.refl u) ?_
    extract_lets v f
    have hv : Serves u v := Serves.forEach _ (fun n w => tellCoverage_serves ep n w) u
    exact hv.trans (.of_eq rfl rfl)) s
  have hsent : Serves s sent := hdone.trans (Serves.forEach _ (fun o u => emit_serves ..) done)
  exact hsent.trans (.of_eq rfl rfl)

/-! ### The withdrawal of a track -/

theorem track_of_service {s u : State} (h : u.trk.map serviceOf = s.trk.map serviceOf) (t : Nat) :
    serviceOf (u.track t) = serviceOf (s.track t) := by
  have reads : ∀ v : State, (v.trk.map serviceOf).getD t (serviceOf Track.reset) = serviceOf (v.track t) := fun v =>
    List.getD_map v.trk Track.reset serviceOf
  rw [← reads, ← reads, h]

theorem track_modTrack_self {s : State} {t : Nat} (f : Track → Track) (h : t < s.trk.length) :
    (s.modTrack t f).track t = f (s.track t) := (getD_modify ..).trans (if_pos ⟨rfl, h⟩)

theorem track_modTrack_ne {s : State} {t k : Nat} (f : Track → Track) (h : k ≠ t) :
    (s.modTrack t f).track k = s.track k := (getD_modify ..).trans (if_neg fun x => h x.1.symm)

/-- A station is routed to one of the tracks in service. -/
theorem routeOf_mem {tracks : List Nat} {n k : Nat} (h : routeOf tracks n = some k) : k ∈ tracks := by
  unfold routeOf at h
  split at h
  · next home =>
    rw [← Option.some.inj h]
    exact List.contains_iff_mem.mp home
  · exact List.mem_of_getElem? h

theorem routeOf_some {tracks : List Nat} (h : tracks ≠ []) (n : Nat) : ∃ k, routeOf tracks n = some k := by
  unfold routeOf
  split
  · exact ⟨_, rfl⟩
  · exact ⟨_, List.getElem?_eq_getElem (Nat.mod_lt _ (List.length_pos_iff.mpr h))⟩

theorem Within.route_eq {l : List Place} {s t : State} (h : Within l s t) (hl : .jct ∉ l) :
    t.jct.route = s.jct.route := by
  have rest := congrArg Junction.route (h .jct hl)
  exact rest

/-- After the loss of a track its stations go to one in service, where there is one. -/
theorem loseTrackItems_routes {t : Nat} {s : State} (hout : (s.track t).state ≠ 1)
    (hin : ∃ k < 4, (s.track k).state = 1) {n : Nat} (hn : n < s.jct.route.length) :
    (loseTrackItems t s).jct.route.getD n 0 ≠ t := by
  unfold loseTrackItems
  extract_lets tracks a b
  have loop : Within [.stats, .recs, .trk, .wtp, .items, .slots, .wbr, .inbox] s b :=
    .forEach (fun h => .ite (moveGathering_within h) (abandonItem_within h)) (moveReserve_within (.refl _ s))
  have length_ : n < b.jct.route.length := by
    have route : b.jct.route = s.jct.route := loop.route_eq (by decide)
    rwa [route]
  obtain ⟨k, hk, hlive⟩ := hin
  have some_ : tracks ≠ [] := fun none_ => by
    have mem : k ∈ tracks := List.mem_filter.mpr ⟨List.mem_range.mpr hk, beq_iff_eq.mpr hlive⟩
    rw [none_] at mem
    exact List.not_mem_nil mem
  obtain ⟨m, hm⟩ := routeOf_some some_ n
  have goes : ((List.range b.jct.route.length).map fun n => (routeOf tracks n).getD (b.jct.route.getD n 0)).getD n 0 =
      m := by
    simp only [List.getD_eq_getElem?_getD, List.getElem?_map, List.getElem?_range length_, hm, Option.map_some,
      Option.getD_some]
  rw [goes]
  rintro rfl
  exact hout (beq_iff_eq.mp (List.mem_filter.mp (routeOf_mem hm)).2)

theorem removeTrack_removes {s : State} {t : Nat} (cause : Nat) (ht : t < s.trk.length) :
    let u := removeTrack t cause s
    (u.track t).state = 2 ∧ (u.track t).cause = cause ∧ (u.track t).slotValid = 0 ∧ (u.track t).running = none ∧
      (u.track t).pilot = none ∧ s.sbx.inbox <+: u.sbx.inbox ∧
      (∀ k, k ≠ t → (u.track k).state = (s.track k).state) ∧
      ((∃ k < 4, k ≠ t ∧ (s.track k).state = 1) → ∀ n < s.jct.route.length, u.jct.route.getD n 0 ≠ t) := by
  unfold removeTrack
  extract_lets a b u
  have lost : serviceOf (a.track t) = (2, cause, 0) := congrArg serviceOf (track_modTrack_self _ ht)
  have others : ∀ k, k ≠ t → a.track k = s.track k := fun k hk => track_modTrack_ne _ hk
  have served : Serves a b := (loseTrackItems_serves t a).trans (readmitFrames_serves t _)
  have service : ∀ k, serviceOf (b.track k) = serviceOf (a.track k) := track_of_service served.service
  have length_ : t < b.trk.length := by
    have same := congrArg List.length served.service
    rw [List.length_map, List.length_map] at same
    have before : a.trk.length = s.trk.length := List.length_modify ..
    rw [same, before]
    exact ht
  obtain ⟨c, hc⟩ : ∃ c, c = b.modTrack t fun x => { x with running := none, pilot := none } := ⟨_, rfl⟩
  have settles : u = settleCoverage c := by rw [hc]
  have settled := settleCoverage_within (.refl [.recs, .wtp, .wbr, .inbox] c)
  rw [← settles] at settled
  have track : ∀ k, u.track k = c.track k := fun k =>
    congrArg (fun l : List Track => l.getD k Track.reset) (settled.trk_eq (by decide))
  have self : u.track t = { b.track t with running := none, pilot := none } := by
    rw [track, hc]
    exact track_modTrack_self _ length_
  have final : serviceOf (u.track t) = (2, cause, 0) := by
    rw [self]
    exact (service t).trans lost
  have grows : c.sbx.inbox <+: u.sbx.inbox := settles ▸ (settleCoverage_serves c).grows
  refine ⟨congrArg Prod.fst final, congrArg (fun x => x.2.1) final, congrArg (fun x => x.2.2) final, ?_, ?_, ?_,
    fun k hk => ?_, fun hin n hn => ?_⟩
  · rw [self]
  · rw [self]
  · have kept : c.sbx.inbox = b.sbx.inbox := hc ▸ rfl
    exact served.grows.trans (kept ▸ grows)
  · rw [track, hc, track_modTrack_ne _ hk]
    exact (congrArg Prod.fst (service k)).trans (congrArg Track.state (others k hk))
  · have readmitted := readmitFrames_within (a1 := t)
      (.refl [.recs, .plt, .frames, .models, .inbox] (loseTrackItems t a))
    have route : u.jct.route = (loseTrackItems t a).jct.route :=
      (settled.route_eq (by decide)).trans
        ((congrArg (fun v : State => v.jct.route) hc).trans
          (readmitted.route_eq (by decide)))
    obtain ⟨k, hk, hne, hlive⟩ := hin
    rw [route]
    refine loseTrackItems_routes ?_ ⟨k, hk, (congrArg Track.state (others k hne)).trans hlive⟩ hn
    have out : (a.track t).state = 2 := congrArg Prod.fst lost
    rw [out]
    decide

/-- The withdrawal is told, and what it does arises from it. -/
def withdrawalTold (t cause : Nat) (s : State) : State :=
  { s with sbx := { s.sbx with
    inbox := s.sbx.inbox ++ [received s (occ 7 6 t cause)], arising := some (7, t) } }

/-- What is contained runs on the state that notes its engine, and the note goes as it ends. -/
theorem containing_eq {s v : State} {sub engine : Nat} (f : State → State) {was : Option (Nat × Nat)}
    (hv : v = { s with sbx := { s.sbx with arising := some (sub, engine) } }) (hwas : s.sbx.arising = was) :
    s.containing sub engine f = { f v with sbx := { (f v).sbx with arising := was } } := by
  rw [hv, ← hwas]
  rfl

theorem withdrawTrack_eq {s : State} (t cause : Nat) (hcore : s.core = true) :
    withdrawTrack t cause s = { removeTrack t cause (withdrawalTold t cause s) with
      sbx := { (removeTrack t cause (withdrawalTold t cause s)).sbx with arising := s.sbx.arising } } := by
  have raised := State.raise_core hcore 7 6 t cause []
  unfold withdrawTrack
  rw [raised]
  exact containing_eq (removeTrack t cause) rfl rfl

theorem withdrawTrack_withdraws {s : State} {t : Nat} (cause : Nat) (hcore : s.core = true) (ht : t < s.trk.length) :
    let u := withdrawTrack t cause s
    (u.track t).state = 2 ∧ (u.track t).cause = cause ∧ (u.track t).slotValid = 0 ∧ (u.track t).running = none ∧
      (u.track t).pilot = none ∧ received s (occ 7 6 t cause) ∈ u.sbx.inbox ∧
      (∀ k, k ≠ t → (u.track k).state = (s.track k).state) ∧
      ((∃ k < 4, k ≠ t ∧ (s.track k).state = 1) → ∀ n < s.jct.route.length, u.jct.route.getD n 0 ≠ t) := by
  obtain ⟨state, cause_, valid, running, pilot, grows, others, routes⟩ :=
    removeTrack_removes (s := withdrawalTold t cause s) cause ht
  have told_ : received s (occ 7 6 t cause) ∈ (withdrawalTold t cause s).sbx.inbox :=
    List.mem_append_right _ List.mem_cons_self
  rw [withdrawTrack_eq t cause hcore]
  generalize removeTrack t cause (withdrawalTold t cause s) = w at *
  exact ⟨state, cause_, valid, running, pilot, grows.subset told_, others, routes⟩

end Sys2Proof.Machine

namespace Sys2Proof.Claims

open Sys2Proof.Machine

theorem trackWithdrawn : TrackWithdrawn := by
  refine ⟨fun s t hcore ht hlen hin hready htokens hlate => ?_, fun s t hearly => ?_⟩
  · have unfolded : exec (.sequencerWatchdog t) s = .next (when s.core (sequencerWatchdog t) s) := rfl
    have late : (s.track t).progress + 100000 ≤ s.now := hlate
    have bites : sequencerWatchdog t s = withdrawTrack t 3 s := by
      simp only [sequencerWatchdog, hin, hready, htokens, late, beq_self_eq_true, decide_true, Bool.and_self, if_true]
      rfl
    obtain ⟨state, cause, valid, running, pilot, told_, others, routes⟩ :=
      withdrawTrack_withdraws 3 hcore (hlen ▸ ht : t < s.trk.length)
    refine ⟨_, by rw [unfolded, hcore, when_true, bites], state, cause, valid, running, pilot, told_,
      fun k _ hk => others k hk, routes⟩
  · have unfolded : exec (.sequencerWatchdog t) s = .next (when s.core (sequencerWatchdog t) s) := rfl
    have early : ¬ (s.track t).progress + 100000 ≤ s.now := Nat.not_le.mpr hearly
    have waits : sequencerWatchdog t s = s := by
      simp only [sequencerWatchdog, early, decide_false, Bool.and_false, Bool.false_eq_true, if_false]
    rw [unfolded]
    unfold when
    rw [waits, ite_self]

theorem knownAnswerTile : KnownAnswer := by
  refine ⟨fun s t hcore ht hin hdue hleft => ?_, fun s t ok hcore ht hin hdue hleft => ?_,
    fun s t hcore ht hin hdue hleft => ?_⟩
  all_goals
    have acts : ∀ ok, exec (.knownAnswerTileEnd t ok) s = .next (knownAnswer t ok s) := fun ok => by
      have unfolded : exec (.knownAnswerTileEnd t ok) s = .next (when s.core (knownAnswer t ok) s) := rfl
      rw [unfolded, hcore, when_true]
  · rw [acts]
    have run : min (s.track t).katLeft (s.track t).tokens = (s.track t).katLeft := min_eq_left hleft
    simp only [knownAnswer, hin, hdue, run, bne_self_eq_false, Bool.not_true, Bool.or_self, Bool.false_eq_true,
      if_false,
      lt_irrefl, if_true]
    refine congrArg (fun l => next ({ s with trk := l } : State)) ?_
    exact (List.modify_modify_eq ..).trans (modify_congr Track.reset rfl)
  · rw [acts]
    have run : min (s.track t).katLeft (s.track t).tokens = (s.track t).tokens := min_eq_right hleft.le
    simp only [knownAnswer, hin, hdue, run, bne_self_eq_false, Bool.not_true, Bool.or_self, Bool.false_eq_true,
      if_false,
      hleft, if_true]
    refine congrArg (fun l => next ({ s with trk := l } : State)) (modify_congr Track.reset ?_)
    have none_ : (s.trk.getD t Track.reset).tokens - (s.track t).tokens = 0 := Nat.sub_self _
    simp only [none_]
    rfl
  · have run : min (s.track t).katLeft (s.track t).tokens = (s.track t).katLeft := min_eq_left hleft
    obtain ⟨u, hu⟩ : ∃ u, u = s.modTrack t fun x =>
      { x with katDue := false, katLeft := 0, tokens := x.tokens - (s.track t).katLeft, progress := s.now } := ⟨_, rfl⟩
    have wrong : knownAnswer t false s = withdrawTrack t wdKat u := by
      simp only [knownAnswer, hin, hdue, run, bne_self_eq_false, Bool.not_true, Bool.or_self, Bool.false_eq_true,
        if_false, lt_irrefl, hu]
    obtain ⟨state, cause, -⟩ := withdrawTrack_withdraws (s := u) (t := t) wdKat (by rw [hu]; exact hcore)
      (by rw [hu]; exact (List.length_modify ..).symm ▸ ht)
    exact ⟨_, (acts false).trans (congrArg next wrong), state, cause⟩

/-- A pass of the item that a track in service runs. -/
theorem exec_trackPass {s : State} {t id : Nat} {it : WorkItem} (hcore : s.core = true) (hin : (s.track t).state = 1)
    (hkat : (s.track t).katDue = false) (hrun : (s.track t).running = some id) (hid : itemById s id = some it)
    (check : PassCheck) : exec (.trackPassEnd t check) s = .next (itemPass t check it s) := by
  have unfolded : exec (.trackPassEnd t check) s = .next (when s.core (trackPass t check) s) := rfl
  rw [unfolded, hcore, when_true]
  simp only [trackPass, hin, hkat, hrun, Option.bind_some, hid, bne_self_eq_false, Bool.or_self, Bool.false_eq_true,
    if_false]

/-- What the tokens of a pass leave where they suffice. -/
theorem spend_enough {s : State} {t cost : Nat} (hleft : (s.track t).left = 0) (h : cost ≤ (s.track t).tokens) :
    spend t cost s =
      (s.modTrack t fun x => { x with tokens := x.tokens - cost, left := 0, progress := s.now }, true) := by
  have run : min cost (s.track t).tokens = cost := min_eq_left h
  simp only [spend, hleft, if_true, run, Nat.sub_self, le_refl, decide_true]

theorem spend_short {s : State} {t cost : Nat} (hleft : (s.track t).left = 0) (h : (s.track t).tokens < cost) :
    spend t cost s = (s.modTrack t fun x =>
      { x with tokens := 0, left := cost - x.tokens, progress := s.now }, false) := by
  have run : min cost (s.track t).tokens = (s.track t).tokens := min_eq_right h.le
  have more : ¬ cost ≤ (s.track t).tokens := Nat.not_le.mpr h
  simp only [spend, hleft, if_true, run, more, decide_false]
  refine congrArg (fun l => (({ s with trk := l } : State), false)) (modify_congr Track.reset ?_)
  have none_ : (s.trk.getD t Track.reset).tokens - (s.track t).tokens = 0 := Nat.sub_self _
  simp only [none_]
  rfl

/-- The track after the tokens of a pass. -/
def spent (t cost : Nat) (s : State) : State :=
  s.modTrack t fun x => { x with tokens := x.tokens - cost, left := 0, progress := s.now }

/-- A pass whose tokens suffice ends with its check. -/
theorem itemPass_ends {s : State} {t cost : Nat} {it : WorkItem} (check : PassCheck) (ht : t < s.trk.length)
    (hphase : it.phase = 3) (hmore : it.passes < passTotal it (passSets it)) (hleft : (s.track t).left = 0)
    (hcost : passSteps it.layer + (if (s.track t).retrying.isSome then 0 else loadCost it (passSets it)) = cost)
    (htokens : cost ≤ (s.track t).tokens) :
    itemPass t check it s = if checkFails check then
        passFailed t check (s.track t).retrying (fun x => { x with retrying := some check }) (spent t cost s)
      else passDone t check it (passSets it) (spent t cost s) := by
  have more : decide (passTotal it (passSets it) ≤ it.passes) = false := decide_eq_false (Nat.not_le.mpr hmore)
  have retrying : ((spent t cost s).track t).retrying = (s.track t).retrying :=
    (congrArg Track.retrying (track_modTrack_self _ ht)).trans rfl
  simp only [itemPass, hphase, bne_self_eq_false, Bool.false_or]
  rw [if_neg (Bool.eq_false_iff.mp more)]
  rw [show spend t (passSteps it.layer + (if (s.track t).retrying.isSome then 0 else loadCost it (passSets it))) s =
    (spent t cost s, true) from hcost ▸ spend_enough hleft (hcost ▸ htokens)]
  simp only [Bool.not_true, Bool.false_eq_true, if_false, retrying]

/-- A pass with a good check. -/
theorem passDone_ok (t : Nat) (it : WorkItem) (n : Nat) (s : State) :
    passDone t .ok it n s = modItem it.id (fun i => { i with passes := i.passes + 1 })
      ((passAgreed t (s.track t).retrying s).modTrack t fun x => { x with retrying := none }) := by
  have other : (PassCheck.ok = PassCheck.actUncorrectable) = False := by simp
  simp only [passDone, checkAct, actEcc, other, decide_false, Bool.false_and, Bool.false_eq_true, if_false]
  split <;> rfl

theorem trackPasses : TrackPasses := by
  refine ⟨fun s t id it hcore ht hin hkat hrun hid hphase hmore hleft hfirst => ?_,
    fun s t id it check hcore ht hin hkat hrun hid hphase hmore hleft hfirst => ?_,
    fun s t id it hcore ht hin hkat hrun hid hphase hmore hleft hfirst => ?_,
    fun s t id it hcore ht hin hkat hrun hid hphase hmore hleft hretry htokens => ?_,
    fun s t id it check hcore ht hlen hin hkat hrun hid hphase hmore hleft hretry htokens hcheck => ?_,
    fun s t check hkat => ?_⟩
  · intro cost htokens
    have sum : passSteps it.layer + (if (s.track t).retrying.isSome then 0 else loadCost it (passSets it)) = cost := by
      rw [hfirst]
      rfl
    have good : checkFails .ok = false := rfl
    rw [exec_trackPass hcore hin hkat hrun hid, itemPass_ends _ ht hphase hmore hleft sum htokens, good,
      if_neg Bool.false_ne_true, passDone_ok]
    have retrying : ((spent t cost s).track t).retrying = none :=
      (congrArg Track.retrying (track_modTrack_self _ ht)).trans hfirst
    have silent : passAgreed t ((spent t cost s).track t).retrying (spent t cost s) = spent t cost s := by
      rw [retrying]
      exact if_neg (by decide)
    rw [silent]
    refine congrArg (fun l => next (modItem it.id (fun i => { i with passes := i.passes + 1 })
      ({ s with trk := l } : State))) ?_
    exact (List.modify_modify_eq ..).trans (modify_congr Track.reset rfl)
  · intro cost htokens
    have sum : passSteps it.layer + (if (s.track t).retrying.isSome then 0 else loadCost it (passSets it)) = cost := by
      rw [hfirst]
      rfl
    have more : decide (passTotal it (passSets it) ≤ it.passes) = false := decide_eq_false (Nat.not_le.mpr hmore)
    rw [exec_trackPass hcore hin hkat hrun hid]
    simp only [itemPass, hphase, bne_self_eq_false, Bool.false_or]
    rw [if_neg (Bool.eq_false_iff.mp more), show spend t (passSteps it.layer +
      (if (s.track t).retrying.isSome then 0 else loadCost it (passSets it))) s = (s.modTrack t fun x =>
        { x with tokens := 0, left := cost - x.tokens, progress := s.now }, false) from
          sum ▸ spend_short hleft (sum ▸ htokens)]
    rfl
  · intro cost htokens
    have sum : passSteps it.layer + (if (s.track t).retrying.isSome then 0 else loadCost it (passSets it)) = cost := by
      rw [hfirst]
      rfl
    have bad : checkFails .residue = true := rfl
    rw [exec_trackPass hcore hin hkat hrun hid, itemPass_ends _ ht hphase hmore hleft sum htokens, hfirst, if_pos bad]
    have again : passFailed t .residue none (fun x => { x with retrying := some .residue }) (spent t cost s) =
        (spent t cost s).modTrack t fun x => { x with retrying := some .residue } := by
      simp only [passFailed, reduceCtorEq, if_false, Option.isSome_none, Bool.false_eq_true]
    refine congrArg next (again.trans ?_)
    refine congrArg (fun l => ({ s with trk := l } : State)) ?_
    exact (List.modify_modify_eq ..).trans (modify_congr Track.reset rfl)
  · have sum : passSteps it.layer + (if (s.track t).retrying.isSome then 0 else loadCost it (passSets it)) =
        passSteps it.layer := by
      rw [hretry]
      rfl
    have good : checkFails .ok = false := rfl
    rw [exec_trackPass hcore hin hkat hrun hid, itemPass_ends _ ht hphase hmore hleft sum htokens, good,
      if_neg Bool.false_ne_true, passDone_ok]
    have retrying : ((spent t (passSteps it.layer) s).track t).retrying = some .residue :=
      (congrArg Track.retrying (track_modTrack_self _ ht)).trans hretry
    have raised := State.raise_core (s := (spent t (passSteps it.layer) s).modTrack t fun x =>
      { x with retry := sat 32 (x.retry + 1) }) hcore 7 1 t 0 []
    rw [retrying, passAgreed, if_pos rfl, raised]
    refine congrArg (fun l => next (modItem it.id (fun i => { i with passes := i.passes + 1 }) ({ s with
      trk := l, sbx := { s.sbx with inbox := s.sbx.inbox ++ [received s (occ 7 1 t)] } } : State))) ?_
    refine ((congrArg (fun l : List Track => l.modify t _) (List.modify_modify_eq ..)).trans
      (List.modify_modify_eq ..)).trans (modify_congr Track.reset rfl)
  · have sum : passSteps it.layer + (if (s.track t).retrying.isSome then 0 else loadCost it (passSets it)) =
        passSteps it.layer := by
      rw [if_pos (Option.isSome_iff_ne_none.mpr hretry), Nat.add_zero]
    have range : t < s.trk.length := hlen ▸ ht
    obtain ⟨u, hu⟩ : ∃ u, u = spent t (passSteps it.layer) s := ⟨_, rfl⟩
    have again : (s.track t).retrying.isSome = true := Option.isSome_iff_ne_none.mpr hretry
    have fails : itemPass t check it s = withdrawTrack t (if check = .parity then 5 else 1) u := by
      rw [itemPass_ends _ range hphase hmore hleft sum htokens, ← hu]
      rcases hcheck with rfl | rfl
      · have bad : checkFails .residue = true := rfl
        simp only [bad, passFailed, again, if_true, reduceCtorEq, if_false, wdResidue]
      · have bad : checkFails .parity = true := rfl
        simp only [bad, passFailed, again, if_true, reduceCtorEq, if_false, wdParity]
    obtain ⟨state, cause, -, running, -⟩ := withdrawTrack_withdraws (s := u) (t := t) (if check = .parity then 5 else 1)
      (by rw [hu]; exact hcore) (by rw [hu]; exact (List.length_modify ..).symm ▸ range)
    exact ⟨_, (exec_trackPass hcore hin hkat hrun hid check).trans (congrArg next fails), state, cause, running⟩
  · have unfolded : exec (.trackPassEnd t check) s = .next (when s.core (trackPass t check) s) := rfl
    have waits : trackPass t check s = s := by simp only [trackPass, hkat, Bool.or_true, if_true]
    rw [unfolded]
    unfold when
    rw [waits, ite_self]

end Sys2Proof.Claims
end

section
open Sys2Proof Sys2Proof.Machine Sys2Proof.Claims

/-- Settles O49: what a pass and the known-answer tile make of their track, and the withdrawal step by step. -/
theorem trackChecks : Obligations.TrackChecks := ⟨trackPasses, knownAnswerTile, trackWithdrawn⟩
end

section
/-! PROOFS. O51: PLAN_LOAD, PLAN_ARM, PLAN_DISARM and COVER_SET (R203, R204, Tables 10-7 and 10-9). -/

namespace Sys2Proof.Machine

open Sys2Proof.Claims

theorem planSlot_modPlanSlot {s : State} {k : Nat} (f : PlanSlot → PlanSlot) (h : k < s.wtp.slots.length) :
    planSlot (modPlanSlot k f s) k = f (planSlot s k) := (getD_modify ..).trans (if_pos ⟨rfl, h⟩)

/-- What a held write that waits shows of a slot. -/
theorem planSlot_setHeld (q : List HeldQ) (s : State) (k : Nat) :
    ∃ b, planSlot (setHeld q s) k = { planSlot s k with deferred := b } := by
  by_cases inside : k < s.wtp.slots.length
  · refine ⟨q.any fun h => h.unit == unitPlan k, ?_⟩
    simp only [planSlot, setHeld, List.getD_eq_getElem?_getD, List.getElem?_mapIdx, List.getElem?_eq_getElem inside,
      Option.map_some, Option.getD_some]
  · have beyond := Nat.le_of_not_lt inside
    refine ⟨false, ?_⟩
    simp only [planSlot, setHeld]
    rw [List.getD_eq_default _ _ (by rw [List.length_mapIdx]; exact beyond), List.getD_eq_default _ _ beyond]
    rfl

/-- With nothing held for the unit nothing completes. -/
theorem dropHeld_none {s : State} {unit : Nat} (h : ∀ x ∈ s.dsp.heldQ, x.unit ≠ unit) :
    dropHeld unit s = setHeld s.dsp.heldQ s := by
  have none_ : (s.dsp.heldQ.filter fun x => x.unit == unit) = [] :=
    List.filter_eq_nil_iff.mpr fun x hx same => h x hx (beq_iff_eq.mp same)
  have all : (s.dsp.heldQ.filter fun x => !(x.unit == unit)) = s.dsp.heldQ :=
    List.filter_eq_self.mpr fun x hx => by simp [h x hx]
  rw [dropHeld, abortHeld, none_, all]
  rfl

theorem startLong_wtp (s : State) (t : Ticket) : (s.startLong t).wtp = s.wtp := by
  unfold State.startLong
  split <;> rfl

theorem startLong_mem (s : State) (t : Ticket) : (s.startLong t).mem = s.mem := by
  unfold State.startLong
  split <;> rfl

/-- An emptied slot holds no plan, and none of its frame windows waits. -/
theorem freePlan_frees (k : Nat) (s : State) :
    (k < s.wtp.slots.length → (planSlot (freePlan k s) k).plan = none ∧ (planSlot (freePlan k s) k).state = 0) ∧
      (∀ x ∈ (freePlan k s).wtp.windows, x.slot ≠ k) ∧ (freePlan k s).mem = s.mem := by
  refine ⟨fun h => ?_, fun x hx => bne_iff_ne.mp (List.mem_filter.mp hx).2, rfl⟩
  have slot : planSlot (freePlan k s) k = { planSlot s k with state := 0, owner := 0, plan := none } :=
    planSlot_modPlanSlot _ h
  rw [slot]
  exact ⟨rfl, rfl⟩

theorem complete_wtp_eq (s : State) (t : Ticket) (status result : Nat) (result2 : Word) :
    (s.complete t status result result2).wtp = s.wtp := (State.complete_within (.refl [.desc, .wins] s)).wtp_eq

theorem finish_wtp_eq (s : State) (t : Ticket) (status result : Nat) (result2 : Word) :
    (s.finish t status result result2).wtp = s.wtp := (State.finish_within (.refl [.desc, .wins] s)).wtp_eq

theorem dropHeld_slots_length (unit : Nat) (s : State) :
    (dropHeld unit s).wtp.slots.length = s.wtp.slots.length := by
  refine forEach_keeps (fun u => u.wtp.slots.length = s.wtp.slots.length) _ _ _ (List.length_mapIdx ..) fun h u hu => ?_
  rw [finish_wtp_eq]
  exact hu

end Sys2Proof.Machine

namespace Sys2Proof.Claims

open Sys2Proof.Machine

theorem planLoads : PlanLoads := by
  refine ⟨fun s w k pk hissues hfind hk hmay hidle hfree hslot hheld => ?_,
    fun s w k pk hissues hfind hk hmay hidle hfree => ?_, fun s w k pk hissues hfind hk hmay hbusy => ?_,
    fun s w k pk hissues hfind hk hmay => ?_, fun s w pk hissues hfind hnone => ?_,
    fun s b p k t hslot hparse hfits hstays => ?_, fun s b k t hbad => ?_⟩
  · have acts : exec (.planLoad w) s = .next (planLoad pk (ticketOf w pk) (taken w s)) :=
      congrArg next (issue_of_issues hissues)
    have names : param pk 0 4 = k := hk
    have find : paramBit pk 27 = false := hfind
    have may : mayNamePlan (taken w s) (ticketOf w pk).w k = true := hmay
    have idle : planBusy (taken w s) k = false := hidle
    have keeps : paramBit pk 26 = false := hfree
    obtain ⟨u, hu⟩ : ∃ u, u = setHeld s.dsp.heldQ (taken w s) := ⟨_, rfl⟩
    have drops : dropHeld (unitPlan k) (taken w s) = u := 
      (dropHeld_none (s := taken w s) hheld).trans hu.symm
    have starts : planLoad pk (ticketOf w pk) (taken w s) = addJob clsOther w false (pkAddr pk) 64 []
        (.plan (ticketOf w pk) k false)
        ((modPlanSlot k (fun x => { x with loading := true }) u).startLong (ticketOf w pk)) := by
      simp only [planLoad, find, names, may, idle, drops, planLoadNow, keeps, Bool.false_eq_true, if_false,
        Bool.not_true]
      rfl
    obtain ⟨waits, held⟩ := planSlot_setHeld s.dsp.heldQ (taken w s) k
    have slots : k < u.wtp.slots.length := by
      rw [hu]
      exact (List.length_mapIdx ..).symm ▸ hslot
    obtain ⟨v, hv⟩ : ∃ v, v = modPlanSlot k (fun x => { x with loading := true }) u := ⟨_, rfl⟩
    rw [← hv] at starts
    have slot : planSlot v k = { planSlot u k with loading := true } := by
      rw [hv]
      exact planSlot_modPlanSlot _ slots
    have plan : (planSlot u k).plan = (planSlot s k).plan := by
      rw [hu, held]
      rfl
    have begun : ∀ n, planSlot (v.startLong (ticketOf w pk)) n = planSlot v n := fun n => by
      rw [planSlot, startLong_wtp]
      rfl
    have inRange : (ticketOf w pk).w < v.dsp.wins.length := by
      rw [hv, hu]
      exact taken_lt hissues
    have longs : ((v.startLong (ticketOf w pk)).win w).longs = (s.win w).longs + 1 := by
      have before : (v.win w).longs = ((taken w s).win w).longs := by rw [hv, hu]; rfl
      exact (startLong_longs rfl inRange).trans ((congrArg (· + 1) before).trans (congrArg (· + 1) (taken_longs w w s)))
    have sidings : (v.startLong (ticketOf w pk)).sdg = s.sdg := by
      rw [startLong_sdg, hv, hu]
      rfl
    have mem : (v.startLong (ticketOf w pk)).mem = s.mem := by
      rw [startLong_mem, hv, hu]
      rfl
    refine ⟨_, acts.trans (congrArg next starts), ?_, ?_, longs, ?_, ?_⟩
    · exact (congrArg PlanSlot.loading ((begun k).trans slot)).trans rfl
    · exact (congrArg PlanSlot.plan ((begun k).trans slot)).trans plan
    · exact congrArg (fun g : Sidings => g.desc.getD (s.win w).compl Siding.reset) sidings
    · have small : pkAddr pk % 2 ^ 48 = fld (pk.getD 1 0) 0 48 := Nat.mod_eq_of_lt (fld_lt _ 0 48)
      rw [addJob, mem, small]
      rfl
  · have acts : exec (.planLoad w) s = .next (planLoad pk (ticketOf w pk) (taken w s)) :=
      congrArg next (issue_of_issues hissues)
    have names : param pk 0 4 = k := hk
    have find : paramBit pk 27 = false := hfind
    have may : mayNamePlan (taken w s) (ticketOf w pk).w k = true := hmay
    have idle : planBusy (taken w s) k = false := hidle
    have frees : paramBit pk 26 = true := hfree
    obtain ⟨u, hu⟩ : ∃ u, u = dropHeld (unitPlan k) (taken w s) := ⟨_, rfl⟩
    have starts : planLoad pk (ticketOf w pk) (taken w s) = (freePlan k u).complete (ticketOf w pk) statusDone k 0 := by
      simp only [planLoad, find, names, may, idle, ← hu, planLoadNow, frees, Bool.false_eq_true, if_false,
        Bool.not_true, if_true]
      rfl
    have dropped : Within [.desc, .slots, .models, .wins] (taken w s) u := hu ▸ dropHeld_within (.refl _ _)
    have slots : u.wtp.slots.length = s.wtp.slots.length := hu ▸ dropHeld_slots_length ..
    obtain ⟨slot, windows, mem⟩ := freePlan_frees k u
    have kept := complete_wtp_eq (freePlan k u) (ticketOf w pk) statusDone k 0
    refine ⟨_, acts.trans (congrArg next starts), fun h => ?_, ?_, ?_⟩
    · rw [planSlot, kept]
      exact slot (slots ▸ h)
    · rw [kept]
      exact windows
    · exact ((State.complete_within (.refl [.desc, .wins] (freePlan k u))).mem_eq).trans (mem.trans dropped.mem_eq)
  · have acts : exec (.planLoad w) s = .next (planLoad pk (ticketOf w pk) (taken w s)) :=
      congrArg next (issue_of_issues hissues)
    have names : param pk 0 4 = k := hk
    have find : paramBit pk 27 = false := hfind
    have may : mayNamePlan (taken w s) (ticketOf w pk).w k = true := hmay
    have busy : planBusy (taken w s) k = true := hbusy
    rw [acts]
    simp only [planLoad, find, names, may, busy, Bool.false_eq_true, if_false, Bool.not_true, if_true]
  · have acts : exec (.planLoad w) s = .next (planLoad pk (ticketOf w pk) (taken w s)) :=
      congrArg next (issue_of_issues hissues)
    have names : param pk 0 4 = k := hk
    have find : paramBit pk 27 = false := hfind
    have may : mayNamePlan (taken w s) (ticketOf w pk).w k = false := hmay
    rw [acts]
    simp only [planLoad, find, names, may, Bool.false_eq_true, if_false, Bool.not_false, if_true]
    exact congrArg next (complete_eq_told (taken_compl_live hissues))
  · have acts : exec (.planLoad w) s = .next (planLoad pk (ticketOf w pk) (taken w s)) :=
      congrArg next (issue_of_issues hissues)
    have find : paramBit pk 27 = true := hfind
    have none_ : (List.range 16).find? (planFree (taken w s)) = none := by
      refine List.find?_eq_none.mpr fun k hk => ?_
      have taken_ : planFree (taken w s) k = false := hnone k (List.mem_range.mp hk)
      rw [taken_]
      exact Bool.false_ne_true
    rw [acts]
    simp only [planLoad, find, if_true, none_]
    exact congrArg next (complete_eq_told (taken_compl_live hissues))
  · have stores : planRead t k b s = (modPlanSlot k (fun x => { x with state := 1, owner := t.w, plan := some p })
        (forgetPlan k s)).finish t statusDone (p.planId * 256 + k) (BitVec.ofNat 64 p.totalLen) := by
      simp only [planRead, hstays, hparse, hfits, Bool.false_eq_true, if_false, if_true]
    have slot : planSlot (planRead t k b s) k = { planSlot s k with state := 1, owner := t.w, plan := some p } := by
      rw [stores, planSlot, finish_wtp_eq]
      exact planSlot_modPlanSlot (s := forgetPlan k s) _ hslot
    rw [slot]
    exact ⟨rfl, rfl, rfl⟩
  · unfold planRead
    split
    · exact finish_wtp_eq ..
    · next stays =>
      have none_ : (parsePlan b).2 = none := hbad.resolve_right stays
      split
      · next p hp =>
        rw [hp] at none_
        exact absurd none_ (Option.some_ne_none p)
      · exact finish_wtp_eq ..

theorem planArms : PlanArms := by
  refine ⟨fun s w k pk p hissues hk hplan hmay hkey hclash => ?_, fun s w k pk p hissues hk hplan hmay hbad => ?_,
    fun s w k pk p hissues hk hplan hmay => ?_, fun s w k pk hissues hk hnone => ?_,
    fun s w k pk hissues hk hnone => ?_⟩
  · have acts : exec (.planArm w) s = .next (planArm pk (ticketOf w pk) (taken w s)) :=
      congrArg next (issue_of_issues hissues)
    have names : param pk 0 4 = k := hk
    have plan : settledPlan (taken w s) k = some p := hplan
    have may : mayNamePlan (taken w s) (ticketOf w pk).w k = true := hmay
    have key : holdsKey (taken w s) p.bundle = true := hkey
    have apart : planClash (taken w s) k p = false := hclash
    rw [acts]
    simp only [planArm, names, plan, may, key, apart, Bool.not_true, Bool.or_self, Bool.false_eq_true, if_false]
    exact congrArg next (complete_eq_told (s := (taken w s).pendE (.planArm k)) (taken_compl_live hissues))
  · have acts : exec (.planArm w) s = .next (planArm pk (ticketOf w pk) (taken w s)) :=
      congrArg next (issue_of_issues hissues)
    have names : param pk 0 4 = k := hk
    have plan : settledPlan (taken w s) k = some p := hplan
    have may : mayNamePlan (taken w s) (ticketOf w pk).w k = true := hmay
    have refused : (!holdsKey (taken w s) p.bundle || planClash (taken w s) k p) = true := by
      rcases hbad with key | clash
      · have key' : holdsKey (taken w s) p.bundle = false := key
        rw [key']
        rfl
      · have clash' : planClash (taken w s) k p = true := clash
        rw [clash', Bool.or_true]
    rw [acts]
    simp only [planArm, names, plan, may, refused, Bool.not_true, Bool.false_eq_true, if_false, if_true]
    exact congrArg next (complete_eq_told (taken_compl_live hissues))
  · have acts : exec (.planDisarm w) s = .next (planDisarm pk (ticketOf w pk) (taken w s)) :=
      congrArg next (issue_of_issues hissues)
    have names : param pk 0 4 = k := hk
    have plan : settledPlan (taken w s) k = some p := hplan
    have may : mayNamePlan (taken w s) (ticketOf w pk).w k = true := hmay
    rw [acts]
    simp only [planDisarm, names, plan, may, Option.isNone_some, Bool.not_true, Bool.false_eq_true, if_false]
    exact congrArg next (complete_eq_told (s := (taken w s).pendE (.planDisarm k)) (taken_compl_live hissues))
  · have acts : exec (.planArm w) s = .next (planArm pk (ticketOf w pk) (taken w s)) :=
      congrArg next (issue_of_issues hissues)
    have names : param pk 0 4 = k := hk
    have plan : settledPlan (taken w s) k = none := hnone
    rw [acts]
    simp only [planArm, names, plan]
    exact congrArg next (complete_eq_told (taken_compl_live hissues))
  · have acts : exec (.planDisarm w) s = .next (planDisarm pk (ticketOf w pk) (taken w s)) :=
      congrArg next (issue_of_issues hissues)
    have names : param pk 0 4 = k := hk
    have plan : settledPlan (taken w s) k = none := hnone
    rw [acts]
    simp only [planDisarm, names, plan, Option.isNone_none, if_true]
    exact congrArg next (complete_eq_told (taken_compl_live hissues))

theorem coverSet : CoverSet := by
  intro s pk hissues target floor share
  have acts : exec (.coverSet 16) s = .next (Machine.coverSet pk (ticketOf 16 pk) (taken 16 s)) :=
    congrArg next (issue_of_issues hissues)
  have low : 1 ≤ target := by omega
  have word : coverWord (param pk 31 1) (param pk 16 11) (param pk 0 11) (fld (pw pk 1) 0 8) =
      pack [(63, 1, fld (pk.getD 0 0) 31 1), (32, 11, target), (16, 11, floor), (0, 8, share)] := by
    have ht : clamp 1 1024 (param pk 16 11) = target := clamp_eq (by decide)
    have hf : clamp 1 target (param pk 0 11) = floor := clamp_eq low
    have hs : clamp 10 100 (fld (pw pk 1) 0 8) = share := clamp_eq (by decide)
    simp only [coverWord, ht, hf, hs]
    rfl
  obtain ⟨v, hv⟩ : ∃ v, v =
    pack [(63, 1, fld (pk.getD 0 0) 31 1), (32, 11, target), (16, 11, floor), (0, 8, share)] := ⟨_, rfl⟩
  have laid : Laid 64 [(63, 1, fld (pk.getD 0 0) 31 1), (32, 11, target), (16, 11, floor), (0, 8, share)] := by
    simp [Laid]
  have ft : coverTarget v = target := by
    rw [coverTarget, hv, fld_pack (v := target) laid (by simp)]
    exact Nat.mod_eq_of_lt (by omega)
  have ff : coverFloor v = floor := by
    rw [coverFloor, hv, fld_pack (v := floor) laid (by simp)]
    exact Nat.mod_eq_of_lt (by omega)
  have fs : coverShare v = share := by
    rw [coverShare, hv, fld_pack (v := share) laid (by simp)]
    exact Nat.mod_eq_of_lt (by omega)
  rw [acts, ← hv]
  simp only [Machine.coverSet, word, ← hv, ft, ff, fs]
  exact congrArg next (complete_eq_told (s := (taken 16 s).pendE (.cover v)) (taken_compl_live hissues))

end Sys2Proof.Claims
end

section
open Sys2Proof Sys2Proof.Machine Sys2Proof.Claims

/-- Settles O51: each command is taken, its checks leave one branch, and that is what the sender is told. -/
theorem checkingCommands : Obligations.CheckingCommands := ⟨planLoads, planArms, coverSet⟩
end

section
/-! PROOFS. O52: a frame that is skipped after its due time also tells that its record is overdue. -/

namespace Sys2Proof.Machine

/-- A Pilot frame of stream 0, due at once, of which a beat is gone. -/
def frameWithoutInput : PFrame :=
  { id := 0, stream := 0, frame := 0, epoch := 0, tf := 0, tr := 0, td := 0, word := 0, owner := 16, slot := 0,
    track := some 0, start := 0, finish := 0, decided := true, loader := 16, need := 0, beats := [], gone := true,
    ready := false, running := false, finished := false, chunks := [], raw := [], fetch := [], host := none,
    steps := 0, judged := false, model := none }

/-- The ready time of that frame passes after its due time, and the record of the frame is owed since then. -/
def skippedLate : State :=
  { State.reset with
    pins := { Pins.reset with porstN := true }
    ttb := { State.reset.ttb with time := 1 }
    plt := { State.reset.plt with frames := [frameWithoutInput] }
    jct := { State.reset.jct with
      owed := [{ src := srcOfInput 3, due := 0, key := pltKey frameWithoutInput, counted := false }] } }

end Sys2Proof.Machine
end

section
open Sys2Proof Sys2Proof.Machine Sys2Proof.Claims

/-- Refutes O52: the skip of a frame whose owed record is past its due time posts two occurrences, the Pilot's event and
the overdue record of R113. -/
theorem not_pilotFrames : ¬ Obligations.PilotFrames := by
  rintro ⟨⟨-, skips, -⟩, -⟩
  have runs : skippedLate.core = true := by decide +kernel
  obtain ⟨t, acts, -, -, -, told, -⟩ := skips skippedLate 0 frameWithoutInput runs rfl (Nat.zero_le _)
    (by decide +kernel) rfl (by decide +kernel)
  have unfolded : exec (.pilotReadyTime 0) skippedLate =
    .next (if skippedLate.core then pilotReadyTime 0 skippedLate else skippedLate) := rfl
  rw [if_pos runs] at unfolded
  have same : pilotReadyTime 0 skippedLate = t := Host.Outcome.next.inj (unfolded.symm.trans acts)
  have before : skippedLate.sbx.inbox.length = 0 := by decide +kernel
  have after : (pilotReadyTime 0 skippedLate).sbx.inbox.length = 2 := by decide +kernel
  rw [same, told, before] at after
  exact absurd after (by decide)
end

section
/-! PROOFS. O53: PLT_LOAD, PLT_ZONES, PLT_ARM, WBR_CONFIG and the close of statistics (R240, R241, R247-R251). -/

namespace Sys2Proof.Machine

open Sys2Proof.Claims

/-! ### The close of statistics -/

/-- What the close of an entry leaves of the Weighbridge while it goes on with the others. -/
structure StatsRun (s t : State) : Prop where
  toClose : t.wbr.toClose = s.wbr.toClose
  meas : t.wbr.meas = s.wbr.meas
  sel : t.wbr.sel = s.wbr.sel
  q : t.wbr.q = s.wbr.q

/-- The alarms and runs of entry `i` are those of its statistics (R249, R250). -/
structure AlarmsTold (c : StatsEnd) (ms : List Meas) (i : Nat) (t : State) : Prop where
  quiet : entryReports c i = false → t.wbr.runSat.getD i 0 = 0 ∧ t.wbr.runUnder.getD i 0 = 0
  off : bit (c.sel.getD i 0) 63 = false → t.wbr.sat.getLsbD i = false ∧ t.wbr.under.getLsbD i = false
  on : bit (c.sel.getD i 0) 63 = true →
    let m := (ms.find? fun m => m.entry == i && m.epoch == c.epoch).getD (Meas.empty i c.epoch)
    t.wbr.sat.getLsbD i = satAlarm (c.q.getD i 0) m ∧ t.wbr.under.getLsbD i = underAlarm (c.q.getD i 0) m

/-- Entry `i` shows the same alarms and runs in both states. -/
structure SameAlarms (i : Nat) (s t : State) : Prop where
  sat : t.wbr.sat.getLsbD i = s.wbr.sat.getLsbD i
  under : t.wbr.under.getLsbD i = s.wbr.under.getLsbD i
  runSat : t.wbr.runSat.getD i 0 = s.wbr.runSat.getD i 0
  runUnder : t.wbr.runUnder.getD i 0 = s.wbr.runUnder.getD i 0

theorem SameAlarms.of {s t : State} (i : Nat) (sat : t.wbr.sat = s.wbr.sat) (under : t.wbr.under = s.wbr.under)
    (runSat : t.wbr.runSat = s.wbr.runSat) (runUnder : t.wbr.runUnder = s.wbr.runUnder) : SameAlarms i s t :=
  ⟨congrArg (·.getLsbD i) sat, congrArg (·.getLsbD i) under, congrArg (·.getD i 0) runSat,
    congrArg (·.getD i 0) runUnder⟩

theorem AlarmsTold.congr {c : StatsEnd} {ms : List Meas} {i : Nat} {s t : State} (h : AlarmsTold c ms i s)
    (same : SameAlarms i s t) : AlarmsTold c ms i t := by
  refine ⟨?_, ?_, ?_⟩
  · rw [same.runSat, same.runUnder]
    exact h.quiet
  · rw [same.sat, same.under]
    exact h.off
  · rw [same.sat, same.under]
    exact h.on

theorem getLsbD_setBit (m : BitVec 64) {i : Nat} (on : Bool) (h : i < 64) (k : Nat) :
    (setBit m i on).getLsbD k = if k = i then on else m.getLsbD k := by
  obtain ⟨p, hp⟩ : ∃ p, p = BitVec.ofNat 64 (2 ^ i) := ⟨_, rfl⟩
  have one : p.getLsbD k = decide (k = i) := by
    rw [hp, BitVec.getLsbD_ofNat, Nat.testBit_two_pow]
    by_cases same : k = i
    · simp [same, h]
    · simp [same, Ne.symm same]
  unfold setBit
  rw [← hp]
  cases on
  · rw [if_neg Bool.false_ne_true, BitVec.getLsbD_and, BitVec.getLsbD_not, one]
    by_cases same : k = i
    · simp [same]
    · by_cases small : k < 64
      · simp [same, small]
      · simp [same, small, BitVec.getLsbD_of_ge m k (Nat.le_of_not_lt small)]
  · rw [if_pos rfl, BitVec.getLsbD_or, one]
    by_cases same : k = i <;> simp [same]

theorem getD_set_zero (l : List Nat) (i n : Nat) (h : n = 0) : (l.set i n).getD i 0 = 0 := by
  by_cases inside : i < l.length <;> simp [List.getD_eq_getElem?_getD, inside, h]

theorem getD_set_ne {α : Type} {l : List α} {i j : Nat} (a d : α) (h : i ≠ j) : (l.set i a).getD j d = l.getD j d := by
  simp [List.getD_eq_getElem?_getD, h]

theorem setAlarms_same {i k : Nat} (a u : Bool) (m n : Nat) (s : State) (inside : i < 64) (h : i ≠ k) :
    SameAlarms k s (setAlarms i a u m n s) :=
  ⟨(getLsbD_setBit _ _ inside k).trans (if_neg (Ne.symm h)), (getLsbD_setBit _ _ inside k).trans (if_neg (Ne.symm h)),
    getD_set_ne m 0 h, getD_set_ne n 0 h⟩

theorem setAlarms_sets {i : Nat} (a u : Bool) (m n : Nat) (s : State) (inside : i < 64) :
    (setAlarms i a u m n s).wbr.sat.getLsbD i = a ∧ (setAlarms i a u m n s).wbr.under.getLsbD i = u :=
  ⟨(getLsbD_setBit _ _ inside i).trans (if_pos rfl), (getLsbD_setBit _ _ inside i).trans (if_pos rfl)⟩

/-- An alarm's event counts, and nothing else of the Weighbridge changes. -/
theorem alarmEvent_counts (kind e entry owner run : Nat) (sel : Word) (s : State) :
    ∃ m n, (alarmEvent kind e entry owner run sel s).wbr = { s.wbr with satEv := m, underEv := n } := by
  unfold alarmEvent
  by_cases early : run < selPersist sel
  · rw [if_pos early]
    exact ⟨_, _, rfl⟩
  · rw [if_neg early]
    have told : ∀ u o, (State.post u o).wbr = u.wbr := fun u o => (State.post_within (.refl [.inbox] u)).wbr_eq
    by_cases high : kind = 1
    · exact ⟨_, _, (told _ _).trans (if_pos high)⟩
    · exact ⟨_, _, (told _ _).trans (if_neg high)⟩

theorem alarmEvent_keeps (kind e entry owner run : Nat) (sel : Word) (s : State) :
    StatsRun s (alarmEvent kind e entry owner run sel s) ∧
      ∀ k, SameAlarms k s (alarmEvent kind e entry owner run sel s) := by
  obtain ⟨m, n, same⟩ := alarmEvent_counts kind e entry owner run sel s
  exact ⟨⟨(congrArg Weigh.toClose same :), (congrArg Weigh.meas same :), (congrArg Weigh.sel same :),
      (congrArg Weigh.q same :)⟩, fun k => .of k (congrArg Weigh.sat same :)
      (congrArg Weigh.under same :) (congrArg Weigh.runSat same :) (congrArg Weigh.runUnder same :)⟩

theorem StatsRun.trans {s t u : State} (h : StatsRun s t) (k : StatsRun t u) : StatsRun s u :=
  ⟨k.toClose.trans h.toClose, k.meas.trans h.meas, k.sel.trans h.sel, k.q.trans h.q⟩

theorem SameAlarms.trans {i : Nat} {s t u : State} (h : SameAlarms i s t) (k : SameAlarms i t u) :
    SameAlarms i s u :=
  ⟨k.sat.trans h.sat, k.under.trans h.under, k.runSat.trans h.runSat, k.runUnder.trans h.runUnder⟩

theorem alarmEvent_when_keeps (b : Bool) (kind e entry owner run : Nat) (sel : Word) (s : State) :
    StatsRun s (if b then alarmEvent kind e entry owner run sel s else s) ∧
      ∀ k, SameAlarms k s (if b then alarmEvent kind e entry owner run sel s else s) := by
  cases b
  · exact ⟨⟨rfl, rfl, rfl, rfl⟩, fun k => .of k rfl rfl rfl rfl⟩
  · exact alarmEvent_keeps ..

/-- The close of an entry is a setting of its alarms, and what follows it alters none. -/
theorem closeEntry_sets (c : StatsEnd) (i : Nat) (s : State) :
    let m := (s.wbr.meas.find? fun m => m.entry == i && m.epoch == c.epoch).getD (Meas.empty i c.epoch)
    ∃ a u runA runU, StatsRun s (closeEntry c i s) ∧
      (∀ k, SameAlarms k (setAlarms i a u runA runU s) (closeEntry c i s)) ∧
      (entryReports c i = false → runA = 0 ∧ runU = 0) ∧ (bit (c.sel.getD i 0) 63 = false → a = false ∧ u = false) ∧
      (bit (c.sel.getD i 0) 63 = true → a = satAlarm (c.q.getD i 0) m ∧ u = underAlarm (c.q.getD i 0) m) := by
  intro m
  by_cases enabled : bit (c.sel.getD i 0) 63 = true
  · by_cases reports : entryReports c i = true
    · obtain ⟨a, ha⟩ : ∃ a, a = satAlarm (c.q.getD i 0) m := ⟨_, rfl⟩
      obtain ⟨u, hu⟩ : ∃ u, u = underAlarm (c.q.getD i 0) m := ⟨_, rfl⟩
      obtain ⟨v, hv, run, same⟩ : ∃ v, closeEntry c i s =
          (let runA := if a then s.wbr.runSat.getD i 0 + 1 else 0
          let runU := if u then s.wbr.runUnder.getD i 0 + 1 else 0
          let w := if a then alarmEvent 1 c.epoch i (selOwner (c.sel.getD i 0)) runA (c.sel.getD i 0) v else v
          if u then alarmEvent 2 c.epoch i (selOwner (c.sel.getD i 0)) runU (c.sel.getD i 0) w else w) ∧
          StatsRun s v ∧ ∀ k, SameAlarms k (setAlarms i a u (if a then s.wbr.runSat.getD i 0 + 1 else 0)
            (if u then s.wbr.runUnder.getD i 0 + 1 else 0) s) v := by
        simp only [closeEntry, enabled, reports, Bool.not_true, Bool.false_eq_true, if_false, ha, hu, m]
        exact ⟨_, rfl, ⟨rfl, rfl, rfl, rfl⟩, fun k => .of k rfl rfl rfl rfl⟩
      obtain ⟨run1, same1⟩ := alarmEvent_when_keeps a 1 c.epoch i (selOwner (c.sel.getD i 0))
        (if a then s.wbr.runSat.getD i 0 + 1 else 0) (c.sel.getD i 0) v
      obtain ⟨run2, same2⟩ := alarmEvent_when_keeps u 2 c.epoch i (selOwner (c.sel.getD i 0))
        (if u then s.wbr.runUnder.getD i 0 + 1 else 0) (c.sel.getD i 0)
        (if a then alarmEvent 1 c.epoch i (selOwner (c.sel.getD i 0))
          (if a then s.wbr.runSat.getD i 0 + 1 else 0) (c.sel.getD i 0) v else v)
      rw [hv]
      exact ⟨a, u, _, _, (run.trans run1).trans run2, fun k => ((same k).trans (same1 k)).trans (same2 k),
        fun h => absurd (reports.symm.trans h) nofun,
        fun h => absurd (enabled.symm.trans h) nofun, fun _ => ⟨ha, hu⟩⟩
    · simp only [Bool.not_eq_true] at reports
      refine ⟨satAlarm (c.q.getD i 0) m, underAlarm (c.q.getD i 0) m, 0, 0, ?_⟩
      have closes : closeEntry c i s =
          setAlarms i (satAlarm (c.q.getD i 0) m) (underAlarm (c.q.getD i 0) m) 0 0 s := by
        simp only [closeEntry, enabled, reports, Bool.not_true, Bool.not_false, Bool.false_eq_true, if_false, if_true,
          m]
      rw [closes]
      exact ⟨⟨rfl, rfl, rfl, rfl⟩, fun k => .of k rfl rfl rfl rfl, fun _ => ⟨rfl, rfl⟩,
        fun h => absurd (enabled.symm.trans h) nofun, fun _ => ⟨rfl, rfl⟩⟩
  · simp only [Bool.not_eq_true] at enabled
    refine ⟨false, false, 0, 0, ?_⟩
    have closes : closeEntry c i s = setAlarms i false false 0 0 s := by
      simp only [closeEntry, enabled, Bool.not_false, if_true]
    rw [closes]
    exact ⟨⟨rfl, rfl, rfl, rfl⟩, fun k => .of k rfl rfl rfl rfl, fun _ => ⟨rfl, rfl⟩, fun _ => ⟨rfl, rfl⟩,
      fun h => absurd (enabled.symm.trans h) nofun⟩

theorem closeEntry_other (c : StatsEnd) {i k : Nat} (s : State) (inside : i < 64) (h : i ≠ k) :
    SameAlarms k s (closeEntry c i s) := by
  obtain ⟨a, u, runA, runU, -, same, -⟩ := closeEntry_sets c i s
  exact (setAlarms_same a u runA runU s inside h).trans (same k)

theorem closeEntry_self (c : StatsEnd) {i : Nat} (s : State) (inside : i < 64) :
    AlarmsTold c s.wbr.meas i (closeEntry c i s) := by
  obtain ⟨a, u, runA, runU, -, same, quiet, off, on⟩ := closeEntry_sets c i s
  obtain ⟨sat, under⟩ := setAlarms_sets a u runA runU s inside
  refine AlarmsTold.congr ⟨fun h => ?_, fun h => ?_, fun h => ?_⟩ (same i)
  · exact ⟨getD_set_zero _ _ _ (quiet h).1, getD_set_zero _ _ _ (quiet h).2⟩
  · exact ⟨sat.trans (off h).1, under.trans (off h).2⟩
  · exact ⟨sat.trans (on h).1, under.trans (on h).2⟩

/-- The entries of a list have closed: each shows the alarms of its statistics. -/
theorem closeEntries (c : StatsEnd) (s : State) (l : List Nat) (inside : ∀ i ∈ l, i < 64) :
    StatsRun s (forEach l (closeEntry c) s) ∧ ∀ i ∈ l, AlarmsTold c s.wbr.meas i (forEach l (closeEntry c) s) := by
  induction l using List.reverseRecOn with
  | nil => exact ⟨⟨rfl, rfl, rfl, rfl⟩, nofun⟩
  | append_singleton l k ih =>
    obtain ⟨run, told⟩ := ih fun i hi => inside i (List.mem_append_left _ hi)
    have last : forEach (l ++ [k]) (closeEntry c) s = closeEntry c k (forEach l (closeEntry c) s) := List.foldl_append
    have small : k < 64 := inside k (List.mem_append_right _ (List.mem_singleton_self k))
    obtain ⟨-, -, -, -, next, -⟩ := closeEntry_sets c k (forEach l (closeEntry c) s)
    rw [last]
    refine ⟨run.trans next, fun i hi => ?_⟩
    by_cases same : k = i
    · rw [← same, ← run.meas]
      exact closeEntry_self c _ small
    · have earlier : i ∈ l := (List.mem_append.mp hi).resolve_right fun h => same (List.mem_singleton.mp h).symm
      exact (told i earlier).congr (closeEntry_other c _ small same)

/-- The hand-over of closed statistics keeps measures, alarms and what is still to close. -/
theorem sendSts_keeps (s : State) : StatsRun s (sendSts s) ∧ ∀ k, SameAlarms k s (sendSts s) := by
  obtain ⟨u, hu⟩ : ∃ u, u = forEach (s.wbr.owedSts.filter fun o => epochOver s (prevEpoch o.epoch))
    (fun o s => s.emit 2 (stsKey o.epoch o.entry) (stsRec s o)) s := ⟨_, rfl⟩
  have same : u.wbr = s.wbr := by
    rw [hu]
    exact forEach_keeps (fun t => t.wbr = s.wbr) _ _ _ rfl fun o t ht => ht
  have sends : ∃ kept ranges, sendSts s = { u with wbr := { u.wbr with owedSts := kept, ranges := ranges } } := by
    rw [hu]
    exact ⟨_, _, rfl⟩
  obtain ⟨kept, ranges, sends⟩ := sends
  rw [sends, same]
  exact ⟨⟨rfl, rfl, rfl, rfl⟩, fun k => .of k rfl rfl rfl rfl⟩

/-! ### The Pilot's commands -/

theorem modelSlot_modModel {s : State} {k : Nat} (f : PSlot → PSlot) (h : k < s.plt.models.length) :
    modelSlot (modModel k f s) k = f (modelSlot s k) := (getD_modify ..).trans (if_pos ⟨rfl, h⟩)

/-- What a held write that waits shows of a model slot. -/
theorem modelSlot_setHeld (q : List HeldQ) (s : State) (k : Nat) :
    ∃ b, modelSlot (setHeld q s) k = { modelSlot s k with deferred := b } := by
  by_cases inside : k < s.plt.models.length
  · refine ⟨q.any fun h => h.unit == unitModel k, ?_⟩
    simp only [modelSlot, setHeld, List.getD_eq_getElem?_getD, List.getElem?_mapIdx, List.getElem?_eq_getElem inside,
      Option.map_some, Option.getD_some]
  · have beyond := Nat.le_of_not_lt inside
    refine ⟨false, ?_⟩
    simp only [modelSlot, setHeld]
    rw [List.getD_eq_default _ _ (by rw [List.length_mapIdx]; exact beyond), List.getD_eq_default _ _ beyond]
    rfl

theorem startLong_plt (s : State) (t : Ticket) : (s.startLong t).plt = s.plt := by
  unfold State.startLong
  split <;> rfl

/-! ### The Weighbridge's command -/

/-- Words that agree in a field agree in what lies inside it. -/
theorem fld_inside {v w : Word} {lo len : Nat} (a n : Nat) (same : fld v lo len = fld w lo len) (h : a + n ≤ len) :
    fld v (lo + a) n = fld w (lo + a) n := by
  have part : ∀ x : Word, fld x lo len / 2 ^ a % 2 ^ n = fld x (lo + a) n := fun x => by
    have cut : 2 ^ len = 2 ^ a * 2 ^ (len - a) := by rw [← pow_add]; congr 1; omega
    rw [fld, fld, cut, Nat.mod_mul_right_div_self, Nat.div_div_eq_div_mul, ← pow_add,
      Nat.mod_mod_of_dvd _ (Nat.pow_dvd_pow 2 (by omega))]
  rw [← part v, ← part w, same]

theorem selCtx_clampSel (en : Bool) (owner : Nat) (w : Word) : selCtx (clampSel en owner w) = selCtx w := by
  have place : fld (clampSel en owner w) 43 20 = fld w 43 20 % 2 ^ 20 := fld_pack (by simp [Laid]) (by simp)
  exact fld_inside 6 5 (place.trans (Nat.mod_eq_of_lt (fld_lt w 43 20))) (by decide)

end Sys2Proof.Machine

namespace Sys2Proof.Claims

open Sys2Proof.Machine

theorem statisticsClose : StatisticsClose := by
  refine ⟨fun s c r runs hclose due => ?_, fun s c r hclose early => ?_⟩
  · have unfolded : exec .statisticsClose s = .next (when s.core Machine.statisticsClose s) := rfl
    obtain ⟨u, hu⟩ : ∃ u, u = forEach (List.range 64) (closeEntry c) s := ⟨_, rfl⟩
    obtain ⟨run, told⟩ := closeEntries c s (List.range 64) fun i => List.mem_range.mp
    rw [← hu] at run told
    obtain ⟨v, hv⟩ : ∃ v, v = { u with wbr := { u.wbr with
      toClose := r, meas := u.wbr.meas.filter fun m => m.epoch != c.epoch } } := ⟨_, rfl⟩
    obtain ⟨sent, same⟩ := sendSts_keeps v
    have closes : Machine.statisticsClose s = sendSts v := by
      have late : ¬ s.now < c.closeAt := Nat.not_lt.mpr due
      simp only [Machine.statisticsClose, hclose, late, if_false, ← hu, hv]
    have told' : ∀ i < 64, AlarmsTold c s.wbr.meas i (sendSts v) := fun i hi => by
      refine ((told i (List.mem_range.mpr hi)).congr ?_).congr (same i)
      rw [hv]
      exact .of i rfl rfl rfl rfl
    rw [runs, when_true] at unfolded
    refine ⟨_, unfolded.trans (congrArg next closes), ?_, ?_, ?_, ?_, fun i hi => (told' i hi).quiet,
      fun i hi => (told' i hi).off,
      fun i hi => (told' i hi).on⟩
    · rw [sent.toClose, hv]
    · rw [sent.meas, hv, ← run.meas]
    · rw [sent.sel, hv, ← run.sel]
    · rw [sent.q, hv, ← run.q]
  · have waits : Machine.statisticsClose s = s := by
      have soon : s.now < c.closeAt := early
      simp only [Machine.statisticsClose, hclose, soon, if_true]
    have unfolded : exec .statisticsClose s = .next (when s.core Machine.statisticsClose s) := rfl
    rw [unfolded]
    unfold when
    rw [waits, ite_self]

theorem pilotLoads : PilotLoads := by
  refine ⟨fun s w k pk hissues hk hmay hidle hfree hslot hheld => ?_, fun s w k pk hissues hk hmay => ?_,
    fun s w i pk hissues hi hmay => ?_, fun s w i pk hissues hi hmay => ?_⟩
  · have acts : exec (.pltLoad w) s = .next (pltLoad pk (ticketOf w pk) (taken w s)) :=
      congrArg next (issue_of_issues hissues)
    have names : param pk 0 2 = k := hk
    have may : mayNameModel (taken w s) (ticketOf w pk).w k = true := hmay
    have idle : modelBusy (taken w s) k = false := hidle
    have keeps : paramBit pk 26 = false := hfree
    obtain ⟨u, hu⟩ : ∃ u, u = setHeld s.dsp.heldQ (taken w s) := ⟨_, rfl⟩
    have drops : dropHeld (unitModel k) (taken w s) = u := (dropHeld_none (s := taken w s) hheld).trans hu.symm
    have starts : pltLoad pk (ticketOf w pk) (taken w s) = addJob clsOther w false (pkAddr pk) 32 []
        (.model (ticketOf w pk) k false)
        ((modModel k (fun x => { x with loading := true }) u).startLong (ticketOf w pk)) := by
      simp only [pltLoad, names, may, idle, drops, pltLoadNow, keeps, Bool.false_eq_true, if_false, Bool.not_true]
      rfl
    obtain ⟨waits, held⟩ := modelSlot_setHeld s.dsp.heldQ (taken w s) k
    have slots : k < u.plt.models.length := by
      rw [hu]
      exact (List.length_mapIdx ..).symm ▸ hslot
    obtain ⟨v, hv⟩ : ∃ v, v = modModel k (fun x => { x with loading := true }) u := ⟨_, rfl⟩
    rw [← hv] at starts
    have slot : modelSlot v k = { modelSlot u k with loading := true } := by
      rw [hv]
      exact modelSlot_modModel _ slots
    have model : (modelSlot u k).model = (modelSlot s k).model := by
      rw [hu, held]
      rfl
    have begun : modelSlot (v.startLong (ticketOf w pk)) k = modelSlot v k := by
      rw [modelSlot, startLong_plt]
      rfl
    have inRange : (ticketOf w pk).w < v.dsp.wins.length := by
      rw [hv, hu]
      exact taken_lt hissues
    have longs : ((v.startLong (ticketOf w pk)).win w).longs = (s.win w).longs + 1 := by
      have before : (v.win w).longs = ((taken w s).win w).longs := by rw [hv, hu]; rfl
      exact (startLong_longs rfl inRange).trans ((congrArg (· + 1) before).trans (congrArg (· + 1) (taken_longs w w s)))
    have mem : (v.startLong (ticketOf w pk)).mem = s.mem := by
      rw [startLong_mem, hv, hu]
      rfl
    refine ⟨_, acts.trans (congrArg next starts), ?_, ?_, longs, ?_⟩
    · exact (congrArg PSlot.loading (begun.trans slot)).trans rfl
    · exact (congrArg PSlot.model (begun.trans slot)).trans model
    · have small : pkAddr pk % 2 ^ 48 = fld (pk.getD 1 0) 0 48 := Nat.mod_eq_of_lt (fld_lt _ 0 48)
      rw [addJob, mem, small]
      rfl
  · have acts : exec (.pltLoad w) s = .next (pltLoad pk (ticketOf w pk) (taken w s)) :=
      congrArg next (issue_of_issues hissues)
    have names : param pk 0 2 = k := hk
    have may : mayNameModel (taken w s) (ticketOf w pk).w k = false := hmay
    rw [acts]
    simp only [pltLoad, names, may, Bool.not_false, if_true]
    exact congrArg next (complete_eq_told (taken_compl_live hissues))
  · have acts : exec (.pltZones w) s = .next (pltZones pk (ticketOf w pk) (taken w s)) :=
      congrArg next (issue_of_issues hissues)
    have names : param pk 0 4 = i := hi
    have may : mayNameStream (taken w s) (ticketOf w pk).w i = true := hmay
    obtain ⟨v, hv⟩ : ∃ v, v = (taken w s).startLong (ticketOf w pk) := ⟨_, rfl⟩
    have starts : pltZones pk (ticketOf w pk) (taken w s) = addJob clsOther w false (pkAddr pk) 16 []
        (.zones (ticketOf w pk) i) v := by
      simp only [pltZones, names, may, Bool.not_true, Bool.false_eq_true, if_false, hv]
      rfl
    have longs : (v.win w).longs = (s.win w).longs + 1 := by
      rw [hv]
      exact (startLong_longs rfl (taken_lt hissues)).trans (congrArg (· + 1) (taken_longs w w s))
    have mem : v.mem = s.mem := by
      rw [hv, startLong_mem]
      rfl
    have pilot : v.plt = s.plt := by
      rw [hv, startLong_plt]
      rfl
    refine ⟨_, acts.trans (congrArg next starts), longs, pilot, ?_⟩
    have small : pkAddr pk % 2 ^ 48 = fld (pk.getD 1 0) 0 48 := Nat.mod_eq_of_lt (fld_lt _ 0 48)
    rw [addJob, mem, small]
    rfl
  · have acts : exec (.pltZones w) s = .next (pltZones pk (ticketOf w pk) (taken w s)) :=
      congrArg next (issue_of_issues hissues)
    have names : param pk 0 4 = i := hi
    have may : mayNameStream (taken w s) (ticketOf w pk).w i = false := hmay
    rw [acts]
    simp only [pltZones, names, may, Bool.not_false, if_true]
    exact congrArg next (complete_eq_told (taken_compl_live hissues))

theorem pendE_pendE (s : State) (a b : EWrite) :
    (s.pendE a).pendE b = { s with dsp := { s.dsp with pending := s.dsp.pending ++ [a, b] } } := by
  simp only [State.pendE, List.append_assoc]
  rfl

/-- PLT_ARM by its checks. -/
theorem pltArm_acts {s : State} {w : Nat} {pk : List Word} (hissues : Issues 0x62 w pk s) :
    let word := clampStream (fld (pk.getD 0 0) 31 1) (pk.getD 1 0)
    let i := fld (pk.getD 0 0) 0 4
    exec (.pltArm w) s = .next (
      if !mayNameStream s w i || !mayNameModel s w (fld word 61 2) then told w pk 3 0 0 (taken w s)
      else if (modelSlot s (fld word 61 2)).model.isNone then told w pk 4 0 0 (taken w s)
      else
        let u := (taken w s).pendE (.pltStream i word w)
        let v := if w = 16 then u.pendE (.pltDue (clamp 2 100 (fld (pk.getD 2 0) 0 8))) else u
        told w pk 0 i word v) := by
  intro word i
  have acts : exec (.pltArm w) s = .next (pltArm pk (ticketOf w pk) (taken w s)) :=
    congrArg next (issue_of_issues hissues)
  refine acts.trans (congrArg next ?_)
  unfold pltArm
  refine ite_congr rfl (fun _ => complete_eq_told (taken_compl_live hissues)) fun _ =>
    ite_congr rfl (fun _ => complete_eq_told (taken_compl_live hissues)) fun _ => ?_
  by_cases root : w = 16
  · have root' : (ticketOf w pk).w = 16 := root
    dsimp only
    rw [if_pos root, if_pos root']
    exact complete_eq_told (s := ((taken w s).pendE (.pltStream i word w)).pendE
      (.pltDue (clamp 2 100 (fld (pk.getD 2 0) 0 8)))) (taken_compl_live hissues)
  · have root' : ¬ (ticketOf w pk).w = 16 := root
    dsimp only
    rw [if_neg root, if_neg root']
    exact complete_eq_told (s := (taken w s).pendE (.pltStream i word w)) (taken_compl_live hissues)

theorem pilotArms : PilotArms := by
  refine ⟨fun s w i pk hissues htenant hi => ?_, fun s i pk hissues hi => ?_, fun s w pk hissues => ?_,
    fun s w pk hissues => ?_⟩
  · intro word hstream hmodel hloaded
    have tenant : ¬ w = 16 := Nat.ne_of_lt htenant
    rw [pltArm_acts hissues]
    have loaded := Option.isNone_eq_false_iff.mpr (Option.isSome_iff_ne_none.mpr hloaded)
    simp only [hi, hstream, hmodel, loaded, tenant, Bool.not_true, Bool.or_self, Bool.false_eq_true,
      if_false, word]
    rfl
  · intro word hloaded
    have stream : mayNameStream s 16 i = true := rfl
    have model : mayNameModel s 16 (fld word 61 2) = true := rfl
    have due : clamp 2 100 (fld (pk.getD 2 0) 0 8) = min 100 (max 2 (fld (pk.getD 2 0) 0 8)) := clamp_eq (by decide)
    rw [pltArm_acts hissues]
    have loaded := Option.isNone_eq_false_iff.mpr (Option.isSome_iff_ne_none.mpr hloaded)
    simp only [hi, stream, model, loaded, due, Bool.not_true, Bool.or_self, Bool.false_eq_true,
      if_false, if_true, word, pendE_pendE]
    rfl
  · intro word hstream hmodel hnone
    rw [pltArm_acts hissues]
    simp only [hstream, hmodel, hnone, Bool.not_true, Bool.or_self, Bool.false_eq_true, if_false, Option.isNone_none,
      if_true, word]
  · intro word hmay
    have refused : (!mayNameStream s w (fld (pk.getD 0 0) 0 4) || !mayNameModel s w (fld word 61 2)) = true := by
      rcases hmay with stream | model
      · rw [stream]
        rfl
      · rw [model, Bool.not_false, Bool.or_true]
    rw [pltArm_acts hissues, if_pos refused]

/-- Root, and a tenant in a context of its own, may weigh there. -/
theorem wbr_ctx_granted {s : State} {w : Nat} {pk : List Word} {en : Bool}
    (hctx : w < 16 → s.ctxOwner (fld (pk.getD 1 0) 49 5) = w) (hw : w ≤ 16) :
    (w != 16 && s.ctxOwner (selCtx (clampSel en w (pk.getD 1 0))) != w) = false := by
  rw [selCtx_clampSel]
  rcases Nat.lt_or_eq_of_le hw with tenant | root
  · have own : s.ctxOwner (selCtx (pk.getD 1 0)) = w := hctx tenant
    rw [own, bne_self_eq_false, Bool.and_false]
  · rw [root]
    rfl

theorem weighbridgeConfig : WeighbridgeConfig := by
  refine ⟨fun s w i pk hissues hfind hi hmay hctx hw => ?_, fun s w i pk hissues hfind hi hen hmay hctx hw hclash => ?_,
    fun s w i pk hissues hfind hi hmay => ?_, fun s w i pk hissues hw hfind hi hmay hctx => ?_⟩
  all_goals
    have acts : exec (.wbrConfig w) s = .next (wbrConfig pk (ticketOf w pk) (taken w s)) :=
      congrArg next (issue_of_issues hissues)
    have find : paramBit pk 6 = false := hfind
    have names : param pk 0 6 = i := hi
  · intro sel hfits
    have may : mayNameEntry (taken w s) (ticketOf w pk).w i = true := hmay
    have ctx : ((ticketOf w pk).w != 16 && (taken w s).ctxOwner (selCtx sel) != (ticketOf w pk).w) = false :=
      wbr_ctx_granted hctx hw
    have apart : (paramBit pk 31 && entryClash (taken w s) i sel) = false := by
      rcases hfits with off | clash
      · have off' : paramBit pk 31 = false := off
        rw [off', Bool.false_and]
      · have clash' : entryClash (taken w s) i sel = false := clash
        rw [clash', Bool.and_false]
    have word : clampSel (paramBit pk 31) (ticketOf w pk).w (pw pk 1) = sel := rfl
    rw [acts]
    simp only [wbrConfig, find, names, may, word, ctx, apart, Bool.false_eq_true, Bool.not_true, if_false,
      pendE_pendE]
    exact congrArg next (complete_eq_told (s := { taken w s with
      dsp := { (taken w s).dsp with pending := s.dsp.pending ++ [.wbrSel i sel, .wbrQ i (clampQ sel (pw pk 2))] } })
      (taken_compl_live hissues))
  · obtain ⟨sel, hsel⟩ : ∃ sel, sel = clampSel true w (pk.getD 1 0) := ⟨_, rfl⟩
    have may : mayNameEntry (taken w s) (ticketOf w pk).w i = true := hmay
    have enables : paramBit pk 31 = true := hen
    have ctx : ((ticketOf w pk).w != 16 && (taken w s).ctxOwner (selCtx sel) != (ticketOf w pk).w) = false := by
      rw [hsel]
      exact wbr_ctx_granted hctx hw
    have clash : entryClash (taken w s) i sel = true := hsel ▸ hclash
    have word : clampSel true (ticketOf w pk).w (pw pk 1) = sel := hsel.symm
    rw [acts]
    simp only [wbrConfig, find, names, may, enables, word, ctx, clash, Bool.false_eq_true, Bool.not_true,
      Bool.and_self, if_false, if_true]
    exact congrArg next (complete_eq_told (taken_compl_live hissues))
  · have may : mayNameEntry (taken w s) (ticketOf w pk).w i = false := hmay
    rw [acts]
    simp only [wbrConfig, find, names, may, Bool.false_eq_true, Bool.not_false, if_false, if_true]
    exact congrArg next (complete_eq_told (taken_compl_live hissues))
  · have may : mayNameEntry (taken w s) (ticketOf w pk).w i = true := hmay
    have tenant : (w != 16) = true := bne_iff_ne.mpr (Nat.ne_of_lt hw)
    have foreign : (s.ctxOwner (selCtx (clampSel (paramBit pk 31) w (pw pk 1))) != w) = true := by
      rw [selCtx_clampSel]
      exact bne_iff_ne.mpr hctx
    have ctx : ((ticketOf w pk).w != 16 && (taken w s).ctxOwner
        (selCtx (clampSel (paramBit pk 31) (ticketOf w pk).w (pw pk 1))) != (ticketOf w pk).w) = true :=
      Bool.and_eq_true_iff.mpr ⟨tenant, foreign⟩
    rw [acts]
    simp only [wbrConfig, find, names, may, ctx, Bool.false_eq_true, Bool.not_true, if_false, if_true]
    exact congrArg next (complete_eq_told (taken_compl_live hissues))

end Sys2Proof.Claims
end

section
open Sys2Proof Sys2Proof.Machine Sys2Proof.Claims

/-- Settles O53: the commands by their checks, and the close of statistics entry by entry. -/
theorem pilotAndStatistics : Obligations.PilotAndStatistics :=
  ⟨pilotLoads, pilotArms, statisticsClose, weighbridgeConfig⟩
end

section
/-! PROOFS. O54: the FLT record of a C occurrence settles what the Signal Box owed the Junction under its key, and what
was owed past its due time is told. -/

namespace Sys2Proof.Machine

/-- A C occurrence of the Junction, detected at time 0. -/
def lateRecordTold : Occurrence := occ 3 1 68

/-- The first C occurrence of a running epoch waits, and a record of the Signal Box with its key is overdue. -/
def correctedWhileOwed : State :=
  { State.reset with
    pins := { Pins.reset with porstN := true }
    ttb := { State.reset.ttb with time := 1, running := true }
    sbx := { State.reset.sbx with inbox := [lateRecordTold] }
    jct := { State.reset.jct with owed := [{ src := srcOfInput 4, due := 0, key := 0, counted := false }] } }

end Sys2Proof.Machine
end

section
open Sys2Proof Sys2Proof.Machine Sys2Proof.Claims

/-- Refutes O54: the C occurrence leaves the inbox, but its FLT record brings the overdue cause of R113 into it. -/
theorem not_faultsPlaced : ¬ Obligations.FaultsPlaced := by
  rintro ⟨counted, -, -⟩
  have runs : correctedWhileOwed.core = true := by decide +kernel
  obtain ⟨t, acts, emptied, -⟩ := counted correctedWhileOwed lateRecordTold [] runs rfl
    (by decide +kernel) (by decide +kernel)
  have unfolded : exec .sbxOccurrenceReceive correctedWhileOwed =
    .next (if correctedWhileOwed.core then occurrenceReceive correctedWhileOwed else correctedWhileOwed) := rfl
  rw [if_pos runs] at unfolded
  have same : occurrenceReceive correctedWhileOwed = t := Host.Outcome.next.inj (unfolded.symm.trans acts)
  have after : (occurrenceReceive correctedWhileOwed).sbx.inbox.length = 1 := by decide +kernel
  rw [same, emptied] at after
  exact absurd after (by decide)
end

section
/-! PROOFS. O55: the outputs follow the records (R308), and FAULT_CLASS changes one bit at a time (R49, R309). -/

namespace Sys2Proof.Machine

open Sys2Proof.Claims

/-! ### One change of FAULT_CLASS at a time -/

/-- At most one bit differs between two codes of FAULT_CLASS. -/
def OneBit (a b : Nat) : Prop := ¬ (a % 2 ≠ b % 2 ∧ a / 2 % 2 ≠ b / 2 % 2)

theorem classStep_oneBit {a b : Nat} (ha : a < 4) (hb : b < 4) : classStep a b < 4 ∧ OneBit a (classStep a b) := by
  have all : ∀ a < 4, ∀ b < 4, classStep a b < 4 ∧
      ¬ (a % 2 ≠ classStep a b % 2 ∧ a / 2 % 2 ≠ classStep a b / 2 % 2) := by decide
  exact all a ha b hb

/-- FAULT_CLASS, its target and its last change stand. -/
structure ClassStands (s t : State) : Prop where
  time : t.ttb.time = s.ttb.time
  shown : t.sbx.faultClass = s.sbx.faultClass
  target : t.sbx.fcTarget = s.sbx.fcTarget
  changed : t.sbx.fcAt = s.sbx.fcAt

/-- FAULT_CLASS stands or has changed once: after a change it rests, so that within one command no second one follows.
The bounds hold for the codes of two bits. -/
structure ClassMoves (s t : State) : Prop where
  time : t.ttb.time = s.ttb.time
  bounds : s.sbx.faultClass < 4 → s.sbx.fcTarget < 4 → t.sbx.faultClass < 4 ∧ t.sbx.fcTarget < 4
  once : (t.sbx.faultClass = s.sbx.faultClass ∧ t.sbx.fcAt = s.sbx.fcAt) ∨
    (classRested s.now s.sbx = true ∧ t.sbx.fcAt = some s.now ∧
      (s.sbx.faultClass < 4 → s.sbx.fcTarget < 4 → OneBit s.sbx.faultClass t.sbx.faultClass))

theorem ClassStands.refl (s : State) : ClassStands s s := ⟨rfl, rfl, rfl, rfl⟩

theorem ClassStands.trans {s t u : State} (h : ClassStands s t) (k : ClassStands t u) : ClassStands s u :=
  ⟨k.time.trans h.time, k.shown.trans h.shown, k.target.trans h.target, k.changed.trans h.changed⟩

theorem ClassStands.after {s t u : State} (k : ClassStands t u) (h : ClassStands s t) : ClassStands s u := h.trans k

theorem ClassStands.moves {s t : State} (h : ClassStands s t) : ClassMoves s t :=
  ⟨h.time, fun shown target => ⟨h.shown ▸ shown, h.target ▸ target⟩, .inl ⟨h.shown, h.changed⟩⟩

theorem ClassMoves.refl (s : State) : ClassMoves s s := (ClassStands.refl s).moves

theorem classRested_congr {s t : State} (time : t.ttb.time = s.ttb.time) (changed : t.sbx.fcAt = s.sbx.fcAt) :
    classRested t.now t.sbx = classRested s.now s.sbx := by
  simp only [classRested, State.now, time, changed]
  rfl

theorem ClassMoves.trans {s t u : State} (h : ClassMoves s t) (k : ClassMoves t u) : ClassMoves s u := by
  refine ⟨k.time.trans h.time, fun shown target => ?_, ?_⟩
  · obtain ⟨shown', target'⟩ := h.bounds shown target
    exact k.bounds shown' target'
  · rcases h.once with ⟨shown, changed⟩ | ⟨rested, changed, bit⟩
    · rcases k.once with ⟨shown', changed'⟩ | ⟨rested, changed', bit⟩
      · exact .inl ⟨shown'.trans shown, changed'.trans changed⟩
      · refine .inr ⟨(classRested_congr h.time changed).symm.trans rested, changed'.trans (congrArg some h.time),
          fun small target => ?_⟩
        obtain ⟨small', target'⟩ := h.bounds small target
        exact shown ▸ bit small' target'
    · rcases k.once with ⟨shown', changed'⟩ | ⟨rested', -, -⟩
      · exact .inr ⟨rested, changed'.trans changed, fun small target => shown' ▸ bit small target⟩
      · have resting : classRested t.now t.sbx = false := by
          have now : t.now = s.now := h.time
          simp only [classRested, changed, now]
          exact decide_eq_false (by omega)
        exact absurd (resting.symm.trans rested') Bool.false_ne_true

/-- A step of FAULT_CLASS toward its target, where it has rested. -/
theorem stepClass_moves {s : State} (x : SignalBox) (rested : classRested s.now s.sbx = true)
    (shown : x.faultClass = s.sbx.faultClass) (changed : x.fcAt = s.sbx.fcAt)
    (bound : s.sbx.fcTarget < 4 → x.fcTarget < 4) :
    ClassMoves s { s with sbx := stepClass s.now x } := by
  have code : (stepClass s.now x).faultClass = classStep s.sbx.faultClass x.fcTarget :=
    congrArg (classStep · x.fcTarget) shown
  refine ⟨rfl, fun small target => ?_, ?_⟩
  · exact ⟨code.trans_lt (classStep_oneBit small (bound target)).1, bound target⟩
  · by_cases same : classStep x.faultClass x.fcTarget = x.faultClass
    · exact .inl ⟨same.trans shown, (if_pos same).trans changed⟩
    · refine .inr ⟨rested, if_neg same, fun small target => ?_⟩
      rw [code]
      exact (classStep_oneBit small (bound target)).2

theorem classInForce_lt (x : SignalBox) : classInForce x < 4 := by
  unfold classInForce
  split
  · decide
  · split
    · decide
    · split <;> decide

theorem refresh_moves (s : State) : ClassMoves s (refresh s) := by
  rw [refresh_eq]
  by_cases taken_ : s.sbx.taken = true
  · rw [taken_, Bool.not_true, if_neg Bool.false_ne_true]
    unfold moveClass
    by_cases rested : classRested s.now s.sbx = true
    · have rested' : classRested s.now { s.sbx.driven with fcTarget := classInForce s.sbx } = true := rested
      simp only [rested', if_true]
      exact stepClass_moves _ rested rfl rfl fun _ => classInForce_lt s.sbx
    · have rested' : ¬ classRested s.now { s.sbx.driven with fcTarget := classInForce s.sbx } = true := rested
      simp only [rested']
      exact ⟨rfl, fun small _ => ⟨small, classInForce_lt s.sbx⟩, .inl ⟨rfl, rfl⟩⟩
  · rw [(Bool.not_eq_true _).mp taken_, Bool.not_false, if_pos rfl]
    exact .refl s

/-! ### What a command leaves of the outputs -/

/-- The outputs still follow the records, and FAULT_CLASS has changed once at most. -/
structure OutputsSettle (s t : State) : Prop where
  follow : outputsFollow s → outputsFollow t
  moves : ClassMoves s t

theorem OutputsSettle.refl (s : State) : OutputsSettle s s := ⟨id, .refl s⟩

theorem OutputsSettle.trans {s t u : State} (h : OutputsSettle s t) (k : OutputsSettle t u) : OutputsSettle s u :=
  ⟨k.follow ∘ h.follow, h.moves.trans k.moves⟩

/-- After a refresh the outputs follow, whatever the records were before it. -/
theorem ClassMoves.refreshed {s t : State} (h : ClassMoves s t) : OutputsSettle s (refresh t) :=
  ⟨fun _ => outputsFollow_refresh t, h.trans (refresh_moves t)⟩

/-- Table 16-5 as a property of the Signal Box. -/
def SignalBox.follows (x : SignalBox) : Prop :=
  x.taken = true →
    x.safeReq = (x.state == 3 || x.forced || x.onRecs.any (·.safe)) ∧
    x.degrade = x.onRecs.foldl (fun a r => a ||| r.degrade) 0 ∧
    x.fcTarget = (if x.state = 3 then 3 else if x.onRecs.any (fun r => r.cls == 2) then 2
      else if x.cAt.isSome then 1 else 0)

theorem Within.classStands {l : List Place} {s t : State} (h : Within l s t) (h1 : .ttb ∉ l := by decide)
    (h2 : .sbx ∉ l := by decide) : ClassStands s t :=
  ⟨h.ttb_field (·.time) (hl := h1), h.sbx_field (·.faultClass) (hl := h2), h.sbx_field (·.fcTarget) (hl := h2),
    h.sbx_field (·.fcAt) (hl := h2)⟩

theorem Within.settles {l : List Place} {s t : State} (h : Within l s t) (h1 : .ttb ∉ l := by decide)
    (h2 : .sbx ∉ l := by decide) : OutputsSettle s t :=
  ⟨(h.sbx_field SignalBox.follows (hl := h2)).mpr, (h.classStands h1 h2).moves⟩

theorem OutputsSettle.when {s : State} {c : Bool} {f : State → State} (h : c = true → OutputsSettle s (f s)) :
    OutputsSettle s (when c f s) := by
  cases c
  · exact .refl s
  · exact h rfl

/-! ### Placing an occurrence -/

theorem State.markFault_stands (s : State) (t : Nat) : ClassStands s (s.markFault t) :=
  (State.markFault_within (.refl [.stats] s)).classStands

theorem emitFlt_stands (o : Occurrence) (cls slot : Nat) (c : Bool) (s : State) :
    ClassStands s (emitFlt o cls slot c s) :=
  Within.classStands (l := [.recs, .inbox]) (.ite (State.emit_within (.refl _ s)) (.refl _ s))

theorem noteCoincident_stands (old : FRec) (o : Occurrence) (k : Nat) (s : State) :
    ClassStands s (noteCoincident old o k s) := by
  unfold noteCoincident
  dsimp only
  split
  · exact (emitFlt_stands ..).after ⟨rfl, rfl, rfl, rfl⟩
  · exact .refl s

theorem recur_stands (k : Nat) (o : Occurrence) (x : Reaction) (s : State) : ClassStands s (recur k o x s) :=
  (noteCoincident_stands ..).after ⟨rfl, rfl, rfl, rfl⟩

theorem merge_stands (k : Nat) (o : Occurrence) (x : Reaction) (overflow : Bool) (s : State) :
    ClassStands s (merge k o x overflow s) :=
  (noteCoincident_stands ..).after ⟨rfl, rfl, rfl, rfl⟩

theorem newRecord_stands (k : Nat) (o : Occurrence) (x : Reaction) (s : State) : ClassStands s (newRecord k o x s) :=
  (emitFlt_stands ..).after ⟨rfl, rfl, rfl, rfl⟩

theorem placeNew_stands (o : Occurrence) (x : Reaction) (s : State) : ClassStands s (placeNew o x s).1 := by
  unfold placeNew
  dsimp only
  split
  · exact newRecord_stands ..
  · split
    · exact (newRecord_stands ..).after ⟨rfl, rfl, rfl, rfl⟩
    · exact merge_stands ..

theorem place_stands (o : Occurrence) (x : Reaction) (s : State) : ClassStands s (place o x s).1 := by
  unfold place
  split
  · exact recur_stands ..
  · split
    · exact merge_stands ..
    · exact placeNew_stands ..

theorem placeEscalation_stands (o : Occurrence) (s : State) : ClassStands s (placeEscalation o s) := by
  unfold placeEscalation
  dsimp only
  split
  · exact recur_stands ..
  · exact placeNew_stands ..

theorem enterFatal_moves (s : State) : ClassMoves s (enterFatal s) := by
  unfold enterFatal
  dsimp only
  refine ClassMoves.trans (ClassStands.moves (ClassStands.trans ?_ (State.markFault_stands _ _))) (refresh_moves _)
  split <;> exact ⟨rfl, rfl, rfl, rfl⟩

theorem escalate_moves (o : Occurrence) (slot : Nat) (s : State) : ClassMoves s (escalate o slot s) := by
  unfold escalate
  extract_lets hit times slots src u n bits src' e v
  have noted : ClassStands s u := ⟨rfl, rfl, rfl, rfl⟩
  split
  · exact ((noted.trans (State.markFault_stands u o.time)).trans (placeEscalation_stands e v)).moves.trans
      (enterFatal_moves _)
  · exact noted.moves

theorem escalate_if_moves (c : Bool) (o : Occurrence) (slot : Nat) (s : State) :
    ClassMoves s (if c then escalate o slot s else s) := by
  cases c
  · exact .refl s
  · exact escalate_moves o slot s

theorem receiveC_settles (o : Occurrence) (s : State) : OutputsSettle s (receiveC o s) := by
  refine ClassMoves.refreshed (ClassStands.moves ?_)
  split
  · exact (emitFlt_stands ..).after ⟨rfl, rfl, rfl, rfl⟩
  · exact ⟨rfl, rfl, rfl, rfl⟩

theorem receive_settles (o : Occurrence) (s : State) : OutputsSettle s (receive o s).1 := by
  unfold receive
  dsimp only
  split
  · exact .refl s
  · split
    · exact receiveC_settles o s
    · refine ClassMoves.refreshed ?_
      have placed := ((State.markFault_stands s o.time).trans
        (place_stands o (reactionOf s o) (s.markFault o.time))).moves
      split
      · exact (placed.trans (enterFatal_moves _)).trans (escalate_if_moves ..)
      · exact placed.trans (escalate_if_moves ..)

theorem deliver_settles (o : Occurrence) (s : State) : OutputsSettle s (deliver o s).1 := by
  have received_ := receive_settles o s
  unfold deliver
  obtain ⟨p, hp⟩ : ∃ p, p = receive o s := ⟨_, rfl⟩
  rw [← hp] at received_ ⊢
  dsimp only
  split
  · exact received_.trans (State.containing_within (fun h => stopChecking_within h) (.refl [.stats, .recs, .trk, .wtp,
      .items, .slots, .plt, .frames, .models, .wbr, .inbox] p.1)).settles
  · exact received_

/-! ### The commands and events of the Signal Box -/

theorem complete_settles (s : State) (t : Ticket) (status result : Nat) (result2 : Word) :
    OutputsSettle s (s.complete t status result result2) :=
  (State.complete_within (.refl [.desc, .wins] s)).settles

/-- A command leaves the outputs settled where what it does once it is issued does. -/
theorem issue_settles {op w : Nat} {act : List Word → Ticket → State → State} {s : State}
    (h : ∀ pk t u, OutputsSettle u (act pk t u)) : OutputsSettle s (issue op w act s) := by
  unfold issue
  split
  · exact .refl s
  next p head =>
  split
  · extract_lets t u
    have takes : OutputsSettle s u := ⟨id, ClassStands.moves ⟨rfl, rfl, rfl, rfl⟩⟩
    split
    · exact takes.trans (complete_settles ..)
    · split
      · exact takes.trans (complete_settles ..)
      · exact takes.trans (h p.words t u)
  · exact .refl s

/-- What a change of the Signal Box outside its outputs leaves. -/
theorem OutputsSettle.of_sbx {s : State} (x : SignalBox) (follow : s.sbx.follows → x.follows)
    (shown : x.faultClass = s.sbx.faultClass) (target : x.fcTarget = s.sbx.fcTarget) (changed : x.fcAt = s.sbx.fcAt) :
    OutputsSettle s { s with sbx := x } :=
  ⟨follow, ClassStands.moves ⟨rfl, shown, target, changed⟩⟩

theorem occurrenceReceive_settles (s : State) : OutputsSettle s (occurrenceReceive s) := by
  unfold occurrenceReceive
  split
  · exact .refl s
  next o r head =>
  refine OutputsSettle.trans ?_ (deliver_settles ..)
  exact .of_sbx _ id rfl rfl rfl

theorem quietPeriod_settles (slot : Nat) (r : FRec) (s : State) :
    OutputsSettle s (refresh { s.setRec slot r with
      sbx := { (s.setRec slot r).sbx with recovery := sat 16 ((s.setRec slot r).sbx.recovery + 1) } }) :=
  ClassMoves.refreshed (ClassStands.moves ⟨rfl, rfl, rfl, rfl⟩)

theorem sbxClear_settles (pk : List Word) (t : Ticket) (s : State) : OutputsSettle s (sbxClear pk t s) := by
  rw [sbxClear_eq, clearSlots_eq]
  refine OutputsSettle.trans (ClassMoves.refreshed ?_) (complete_settles ..)
  rw [freeSlots_only]
  exact ClassStands.moves ⟨rfl, rfl, rfl, rfl⟩

theorem configured_settles (w : Word) (last : Nat) (s : State) :
    OutputsSettle s { s with sbx := { s.sbx with cfg := w, hbLast := last } } := .of_sbx _ id rfl rfl rfl

theorem sbxConfig_settles (pk : List Word) (t : Ticket) (s : State) : OutputsSettle s (sbxConfig pk t s) := by
  unfold sbxConfig
  exact (configured_settles ..).trans (complete_settles ..)

theorem reactSet_settles (pk : List Word) (t : Ticket) (s : State) : OutputsSettle s (reactSet pk t s) := by
  unfold reactSet
  dsimp only
  split
  · refine OutputsSettle.trans ?_ (complete_settles ..)
    exact .of_sbx _ id rfl rfl rfl
  · exact complete_settles ..

theorem inject_settles (pk : List Word) (t : Ticket) (s : State) : OutputsSettle s (inject pk t s) := by
  unfold inject
  extract_lets o src u
  have counted : OutputsSettle s u := .of_sbx _ id rfl rfl rfl
  have contained : OutputsSettle u (injectContain o u) :=
    (injectContain_within (.refl [.stats, .jct, .recs, .trk, .wtp, .items, .slots, .plt, .frames, .models, .wbr,
      .inbox] u)).settles
  exact ((counted.trans contained).trans (deliver_settles o _)).trans (complete_settles ..)

/-- The instructions that the two statements are about. -/
def boxInstrs (slot w : Nat) : List Instr :=
  [.sbxOccurrenceReceive, .sbxSelfCheckMiscompare, .quietPeriodExpire slot, .cQuietExpire,
    .faultClassIntermediateEnd, .heartbeatToggle, .sbxClear w, .sbxConfig w, .sbxReadrec w, .reactSet w, .inject w]

theorem exec_settles {s : State} {c : Instr} {slot w : Nat} (hc : c ∈ boxInstrs slot w) :
    ∃ t, exec c s = .next t ∧ OutputsSettle s t := by
  simp only [boxInstrs, List.mem_cons, List.not_mem_nil, or_false] at hc
  rcases hc with rfl | rfl | rfl | rfl | rfl | rfl | rfl | rfl | rfl | rfl | rfl
  · exact ⟨_, rfl, .when fun _ => occurrenceReceive_settles s⟩
  · exact ⟨_, rfl, .when fun _ => deliver_settles _ s⟩
  · exact ⟨_, rfl, .when fun _ => quietPeriod_settles slot _ s⟩
  · refine ⟨_, rfl, ?_⟩
    split
    · exact .when fun _ => ClassMoves.refreshed (ClassStands.moves ⟨rfl, rfl, rfl, rfl⟩)
    · exact .refl s
  · refine ⟨_, rfl, .when fun due => ⟨id, ?_⟩⟩
    exact stepClass_moves s.sbx (Bool.and_eq_true_iff.mp due).2 rfl rfl id
  · exact ⟨_, rfl, .when fun _ => .of_sbx _ id rfl rfl rfl⟩
  · exact ⟨_, rfl, issue_settles sbxClear_settles⟩
  · exact ⟨_, rfl, issue_settles sbxConfig_settles⟩
  · exact ⟨_, rfl, issue_settles fun pk t u => (sbxReadrec_within (.refl [.desc, .wins, .mem] u)).settles⟩
  · exact ⟨_, rfl, issue_settles reactSet_settles⟩
  · exact ⟨_, rfl, issue_settles inject_settles⟩

end Sys2Proof.Machine
end

section
open Sys2Proof Sys2Proof.Machine Sys2Proof.Claims

/-- Settles O55: each of the eleven instructions leaves the outputs settled (`exec_settles`). -/
theorem safetyOutputs : Obligations.SafetyOutputs := by
  refine ⟨fun s t c slot w hc follows ran => ?_, fun s t c slot w hc shown target ran => ?_⟩
  · obtain ⟨u, acts, settled⟩ := exec_settles (s := s) (show c ∈ boxInstrs slot w from hc)
    exact Host.Outcome.next.inj (acts.symm.trans ran) ▸ settled.follow follows
  · obtain ⟨u, acts, settled⟩ := exec_settles (s := s) (show c ∈ boxInstrs slot w from hc)
    rw [← Host.Outcome.next.inj (acts.symm.trans ran)]
    rcases settled.moves.once with ⟨same, -⟩ | ⟨-, -, bit⟩
    · exact fun h => h.1 (congrArg (· % 2) same.symm)
    · exact bit shown target
end

section
/-! PROOFS. O56: the timed events of the outputs (R49, R300, R309, R310, R312) and the faults of the Conductor (R7,
R304). -/

namespace Sys2Proof.Machine

theorem frec_setRec {s : State} {k : Nat} (r : FRec) (h : k < s.sbx.recs.length) (j : Nat) :
    (s.setRec k r).frec j = if j = k then r else s.frec j := by
  by_cases same : j = k
  · subst same
    simp [State.setRec, State.frec, List.getD_eq_getElem?_getD, h]
  · simp [State.setRec, State.frec, List.getD_eq_getElem?_getD, same, Ne.symm same]

/-- FAULT_CLASS reaches a target from which it differs in one bit. -/
theorem stepClass_arrives {x : SignalBox} (now : Nat) (near : bothBits x.faultClass x.fcTarget = false)
    (apart : x.faultClass ≠ x.fcTarget) :
    stepClass now x = { x with fcMid := false, faultClass := x.fcTarget, fcAt := some now } := by
  have code : classStep x.faultClass x.fcTarget = x.fcTarget := by
    rw [classStep, near, if_neg Bool.false_ne_true]
  simp only [stepClass, code, bne_self_eq_false, if_neg (Ne.symm apart)]

theorem exec_faultClassIntermediateEnd (s : State) : exec .faultClassIntermediateEnd s =
    .next (when (s.core && s.sbx.fcMid && classRested s.now s.sbx)
      (fun s => { s with sbx := stepClass s.now s.sbx }) s) := rfl

theorem exec_heartbeatToggle (s : State) : exec .heartbeatToggle s =
    .next (when (s.core && s.sbx.taken && s.sbx.state == 1
        && decide (s.sbx.hbLast / hbPeriodNs s.sbx.cfg < s.now / hbPeriodNs s.sbx.cfg))
      (fun s => { s with sbx := { s.sbx with heartbeat := !s.sbx.heartbeat, hbLast := s.now } }) s) := rfl

/-- The record of slot `k` becomes `r` and leaves force, which counts as a recovery. -/
def recovered (k : Nat) (r : FRec) (s : State) : State :=
  { s.setRec k r with sbx := { (s.setRec k r).sbx with recovery := sat 16 (s.sbx.recovery + 1) } }

theorem exec_quietPeriodExpire (k : Nat) (s : State) : exec (.quietPeriodExpire k) s =
    .next (when (s.core && (s.frec k).valid && (s.frec k).inForce && (s.frec k).cls == 2 && !(s.frec k).latched
        && !(s.frec k).forced && decide ((s.frec k).lastTime + quietNs s ≤ s.now))
      (fun u => refresh (recovered k { s.frec k with inForce := false, exitTime := u.now } u)) s) := rfl

theorem exec_cQuietExpire {s : State} {t0 : Nat} (since : s.sbx.cAt = some t0) : exec .cQuietExpire s =
    .next (when (s.core && decide (t0 + quietNs s ≤ s.now))
      (fun s => refresh { s with sbx := { s.sbx with cAt := none } }) s) := by
  have unfolded : exec .cQuietExpire s = .next (match s.sbx.cAt with
    | some t => when (s.core && decide (t + quietNs s ≤ s.now))
        (fun s => refresh { s with sbx := { s.sbx with cAt := none } }) s
    | none => s) := rfl
  rw [unfolded, since]

theorem exec_conductorWatchdogExpire (p : Nat) (s : State) : exec (.conductorWatchdogExpire p) s =
    .next (when (s.core && s.dsp.coresRun && !s.dsp.halted && decide (p < 2) && watchdogDue s p)
      (watchdogExpire p) s) := rfl

theorem exec_lockstepMiscompare (p : Nat) (s : State) : exec (.lockstepMiscompare p) s =
    .next (when (s.core && s.dsp.coresRun && !s.dsp.halted && decide (p < 2)) (fun s => s.raise 12 1 p) s) := rfl

end Sys2Proof.Machine

namespace Sys2Proof.Claims

open Sys2Proof.Machine

theorem outputTimers : OutputTimers := by
  refine ⟨fun s runs mid near rests apart => ?_, fun s a changed early => ?_, fun s runs taken_ normal due => ?_,
    fun s waits => ?_, fun s k runs valid inForce cls latched forced inside due => ?_, fun s k waits => ?_,
    fun s t0 runs since due => ?_⟩
  · have rested : classRested s.now s.sbx = true := by
      unfold classRested
      split
      · next a changed => exact decide_eq_true (rests a changed)
      · rfl
    rw [exec_faultClassIntermediateEnd, runs, mid, rested, Bool.and_self, Bool.and_self, when_true,
      stepClass_arrives _ near apart]
    rfl
  · have resting : classRested s.now s.sbx = false := by
      unfold classRested
      rw [changed]
      exact decide_eq_false (Nat.not_le.mpr early)
    rw [exec_faultClassIntermediateEnd, resting, Bool.and_false, when_false]
  · have due' : decide (s.sbx.hbLast / hbPeriodNs s.sbx.cfg < s.now / hbPeriodNs s.sbx.cfg) = true :=
      decide_eq_true due
    have normal' : (s.sbx.state == 1) = true := beq_iff_eq.mpr normal
    rw [exec_heartbeatToggle, runs, taken_, normal', due', Bool.and_self, Bool.and_self, Bool.and_self, when_true]
    rfl
  · rw [exec_heartbeatToggle]
    rcases waits with early | other
    · have early' : decide (s.sbx.hbLast / hbPeriodNs s.sbx.cfg < s.now / hbPeriodNs s.sbx.cfg) = false :=
        decide_eq_false (Nat.not_lt.mpr early)
      rw [early', Bool.and_false, when_false]
    · have other' : (s.sbx.state == 1) = false := beq_eq_false_iff_ne.mpr other
      rw [other', Bool.and_false, Bool.false_and, when_false]
  · obtain ⟨r, hr⟩ : ∃ r, r = { s.frec k with inForce := false, exitTime := s.now } := ⟨_, rfl⟩
    have late : decide ((s.frec k).lastTime + quietNs s ≤ s.now) = true := decide_eq_true due
    have expired : ((s.frec k).cls == 2) = true := beq_iff_eq.mpr cls
    have acts : exec (.quietPeriodExpire k) s = .next (refresh (recovered k r s)) := by
      rw [exec_quietPeriodExpire, runs, valid, inForce, expired, latched, forced, late, hr]
      rfl
    have slots : ∀ j, (recovered k r s).frec j = if j = k then r else s.frec j := frec_setRec r inside
    refine ⟨_, acts, ?_, fun j other => ?_, refresh_recovery _⟩
    · rw [refresh_frec, slots, if_pos rfl, hr]
      rfl
    · rw [refresh_frec, slots, if_neg other]
  · rw [exec_quietPeriodExpire]
    rcases waits with cls | latched | forced | early
    · have other : ((s.frec k).cls == 2) = false := beq_eq_false_iff_ne.mpr cls
      simp only [other, Bool.and_false, Bool.false_and, when_false]
    · simp only [latched, Bool.not_true, Bool.and_false, Bool.false_and, when_false]
    · simp only [forced, Bool.not_true, Bool.and_false, Bool.false_and, when_false]
    · have soon : decide ((s.frec k).lastTime + quietNs s ≤ s.now) = false := decide_eq_false (Nat.not_le.mpr early)
      simp only [soon, Bool.and_false, when_false]
  · have late : decide (t0 + quietNs s ≤ s.now) = true := decide_eq_true due
    have acts : exec .cQuietExpire s = .next (refresh { s with sbx := { s.sbx with cAt := none } }) := by
      rw [exec_cQuietExpire since, runs, late, Bool.and_self, when_true]
    exact ⟨_, acts, congrArg (·.sbx.cAt) (refresh_only _), refresh_recs _⟩

theorem conductorFaults : ConductorFaults := by
  refine ⟨fun s p runs cores going small due => ?_, fun s p early => ?_, fun s p runs cores going small => ?_,
    fun s p halted => ⟨?_, ?_⟩⟩
  · have due' : watchdogDue s p = true := decide_eq_true due
    have told : watchdogExpire p s = { s with
        dsp := { s.dsp with kickAt := s.dsp.kickAt.set p s.ttb.time },
        sbx := { s.sbx with inbox := s.sbx.inbox ++ [received s (occ 12 2 p)] } } :=
      State.raise_core (s := { s with dsp := { s.dsp with kickAt := s.dsp.kickAt.set p s.now } }) runs 12 2 p 0 []
    rw [exec_conductorWatchdogExpire, runs, cores, going, decide_eq_true small, due', ← told]
    rfl
  · have soon : watchdogDue s p = false := decide_eq_false (Nat.not_le.mpr early)
    rw [exec_conductorWatchdogExpire, soon, Bool.and_false, when_false]
  · rw [exec_lockstepMiscompare, runs, cores, going, decide_eq_true small]
    exact congrArg next (State.raise_core runs 12 1 p 0 [])
  · rw [exec_conductorWatchdogExpire, halted]
    simp only [Bool.not_true, Bool.and_false, Bool.false_and, when_false]
  · rw [exec_lockstepMiscompare, halted]
    simp only [Bool.not_true, Bool.and_false, Bool.false_and, when_false]

end Sys2Proof.Claims
end

section
open Sys2Proof Sys2Proof.Machine Sys2Proof.Claims

/-- Settles O56: each event by its condition, whose parts decide whether it acts. -/
theorem outputEvents : Obligations.OutputEvents := ⟨outputTimers, conductorFaults⟩
end

section
/-! PROOFS. O59: frames of the token line that go on, addressing, observe, take-over (R349-R355, R360). -/

namespace Sys2Proof.Machine

open Sys2Proof.Claims

/-! ### Rows of the table of requests -/

/-- An addressed frame reaches its row: the request acts on the state that has heard it, and its reply is kept for the
next frame. -/
theorem tklRow_addressed {op : Nat} {f : TklFrame} {s : State} (act : TklAct) (h : addressed op f s) :
    tklRow op act f s =
      replied f (act f (heard s)).2.1 (act f (heard s)).2.2 s.tkl.reply (act f (heard s)).1 := by
  obtain ⟨accepted, code, single, idle⟩ := h
  have idle' : (heard s).tkl.busy = none := idle
  have hears : setTkl (fun x => { x with lastAt := s.now }) s = heard s := rfl
  rw [tklRow, accepted, code, beq_self_eq_true, Bool.and_self, if_pos rfl, acceptFrame, single,
    if_neg Bool.false_ne_true]
  simp only [hears, idle']
  rfl

/-- A broadcast frame reaches its row and goes on. -/
theorem tklRow_broadcast {op : Nat} {f : TklFrame} {s : State} (act : TklAct) (accepted : accepts s f = true)
    (code : f.op.toNat = op) (all : f.bcast = true) :
    tklRow op act f s = setTkl (fun x => { x with out := some f }) (act f s).1 := by
  rw [tklRow, accepted, code, beq_self_eq_true, Bool.and_self, if_pos rfl, acceptFrame, all, if_pos rfl]

theorem accepts_up {s : State} {f : TklFrame} (h : accepts s f = true) : tklUp s = true := by
  simp only [accepts, Bool.and_eq_true] at h
  exact h.1.1.1

theorem accepts_eq_false {s : State} {f : TklFrame} (h : crcOk f = false ∨ verOk s f = false ∨
    (toUs s f = false ∧ f.bcast = false)) : accepts s f = false := by
  unfold accepts
  rcases h with crc | ver | ⟨other, single⟩
  · rw [crc, Bool.and_false, Bool.false_and, Bool.false_and]
  · rw [ver, Bool.and_false, Bool.false_and]
  · rw [other, single, Bool.false_and, Bool.false_and, Bool.or_self, Bool.and_false]

/-- A frame that is not accepted goes on, and its counts tell why. -/
theorem exec_tklFrameForward {s : State} {f : TklFrame} (up : tklUp s = true) (passes : accepts s f = false) :
    exec (.tklFrameForward f) s = .next { s with tkl := { s.tkl with
      out := some f,
      crcErr := if crcOk f then s.tkl.crcErr else sat 16 (s.tkl.crcErr + 1),
      verRej := if crcOk f && !verOk s f then sat 16 (s.tkl.verRej + 1) else s.tkl.verRej,
      clash := s.tkl.clash || clashes s f } } := by
  have unfolded : exec (.tklFrameForward f) s = .next (when (tklUp s) (frameForward f) s) := rfl
  rw [unfolded, up, when_true, frameForward, passes, if_neg Bool.false_ne_true]
  rfl

/-- A word whose check is right reads as it stands. -/
theorem readChecked_ok (view a : Nat) (s : State) : readChecked view a .ok s = (s, 0, readReg s view a) := by
  unfold readChecked
  dsimp only
  split
  · rfl
  · split <;> rfl

theorem exec_takeoverLeaseExpire (s : State) : exec .takeoverLeaseExpire s = .next (when s.core leaseExpire s) := rfl

end Sys2Proof.Machine

namespace Sys2Proof.Claims

open Sys2Proof.Machine

theorem framesForwarded : FramesForwarded := by
  refine ⟨fun s f up crc => ?_, fun s f up crc ver => ?_, fun s f up crc ver other single => ?_,
    fun s f op haddr unknown => ?_⟩
  · have quiet : clashes s f = false := by rw [clashes, crc, Bool.false_and, Bool.false_and, Bool.false_and]
    rw [exec_tklFrameForward up (accepts_eq_false (.inl crc)), crc, quiet, Bool.or_false]
    rfl
  · have quiet : clashes s f = false := by rw [clashes, ver, Bool.and_false, Bool.false_and, Bool.false_and]
    rw [exec_tklFrameForward up (accepts_eq_false (.inr (.inl ver))), crc, ver, quiet, Bool.or_false]
    rfl
  · have quiet : clashes s f = false := by rw [clashes, other, Bool.and_false, Bool.false_and]
    rw [exec_tklFrameForward up (accepts_eq_false (.inr (.inr ⟨other, single⟩))), crc, ver, quiet, Bool.or_false]
    rfl
  · obtain ⟨accepted, code, single, idle⟩ := haddr
    have unfolded : exec (.tklFrameForward f) s = .next (when (tklUp s) (frameForward f) s) := rfl
    have undefined : tklOps.contains f.op.toNat = false := by
      rw [code]
      exact (Bool.not_eq_true _).mp fun known => unknown (List.contains_iff_mem.mp known)
    have row := tklRow_addressed (fun _ s => (s, statusUnknownOp, 0)) ⟨accepted, code, single, idle⟩
    rw [tklRow, accepted, code, beq_self_eq_true, Bool.and_self, if_pos rfl] at row
    rw [unfolded, accepts_up accepted, when_true, frameForward, accepted, undefined, if_pos rfl,
      if_neg Bool.false_ne_true, row]
    rfl

theorem tokenLineAddressing : TokenLineAddressing := by
  refine ⟨fun s f up code crc ver single bare => ?_, fun s f token up code crc ver passes => ?_, fun s f haddr => ?_,
    fun s f accepted code all => ?_, fun s f haddr => ?_⟩
  · have unfolded : exec (.tklEnum f true) s = .next (when (tklUp s) (tklEnum f true) s) := rfl
    have ours : enumForUs s f true = true := by
      rw [enumForUs, code, single, bare]
      rfl
    rw [unfolded, up, when_true, tklEnum, code, crc, ver, ours]
    rfl
  · have unfolded : exec (.tklEnum f token) s = .next (when (tklUp s) (tklEnum f token) s) := rfl
    have others : enumForUs s f token = false := by
      unfold enumForUs
      rcases passes with named | without
      · rw [named, Bool.not_true, Bool.and_false, Bool.false_and]
      · rw [without, Bool.and_false]
    rw [unfolded, up, when_true, tklEnum, code, crc, ver, others]
    rfl
  · have version : clamp 1 2 (f.arg.toNat % 8) = max 1 (min 2 (f.arg.toNat % 8)) := by
      rw [clamp]
    refine (congrArg next (tklRow_addressed (op := opSetver) setver haddr)).trans ?_
    rw [← version]
    rfl
  · have version : clamp 1 2 (f.arg.toNat % 8) = max 1 (min 2 (f.arg.toNat % 8)) := by
      rw [clamp]
    refine (congrArg next (tklRow_broadcast (op := opSetver) setver accepted code all)).trans ?_
    rw [← version]
    rfl
  · exact congrArg next (tklRow_addressed _ haddr)

theorem readAnswered {s : State} {f : TklFrame} (haddr : addressed 2 f s) :
    exec (.tklRead ⟨f, .ok⟩) s = .next (replied f 0 (readReg (heard s) (fld f.wdata 0 6) (tklAddr f))
      s.tkl.reply (heard s)) := by
  have reads : readChecked (fld f.wdata 0 6) (tklAddr f) .ok (heard s) =
      (heard s, 0, readReg (heard s) (fld f.wdata 0 6) (tklAddr f)) := readChecked_ok ..
  refine (congrArg next (tklRow_addressed (op := opRead) (fun f s => readChecked (fld f.wdata 0 6) (tklAddr f) .ok s)
    haddr)).trans ?_
  simp only [reads]
  rfl

theorem readCounter_line (s : State) (x : TokenLine) (i : Nat) : readCounter { s with tkl := x } i = readCounter s i :=
  rfl

theorem evenCounterAnswered {s : State} {f : TklFrame} {i : Nat} (haddr : addressed 4 f s) (runs : s.core = true)
    (hi : i = f.arg.toNat % 2 ^ 20) (even : i % 2 = 0) :
    exec (.tklReadCnt f ⟨.ok, .ok⟩) s = .next (replied f 0 (readCounter s i) s.tkl.reply
      { heard s with tkl := { (heard s).tkl with oddWord := readCounter s (i + 1) } }) := by
  have reads : readCnt ⟨.ok, .ok⟩ f (heard s) =
      (setTkl (fun x => { x with oddWord := readCounter s (i + 1) }) (heard s), 0, readCounter s i) := by
    have runs' : (heard s).core = true := runs
    obtain ⟨v, hv⟩ : ∃ v, v = readCounter s (i + 1) := ⟨_, rfl⟩
    have next_ : readCounter (heard s) (i + 1) = v := (readCounter_line ..).trans hv.symm
    have this_ : readCounter (setTkl (fun x => { x with oddWord := v }) (heard s)) i = readCounter s i :=
      (readCounter_line ..).trans (readCounter_line ..)
    simp only [readCnt, runs', if_true, ledgerEcc, ← hi, even, next_, this_, ← hv]
  refine (congrArg next (tklRow_addressed (op := opReadCnt) (readCnt ⟨.ok, .ok⟩) haddr)).trans ?_
  rw [reads]
  rfl

theorem oddCounterAnswered {s : State} {f : TklFrame} {i : Nat} (hi : Ecc) (haddr : addressed 4 f s)
    (runs : s.core = true) (hi' : i = f.arg.toNat % 2 ^ 20) (odd : i % 2 = 1) :
    exec (.tklReadCnt f ⟨.ok, hi⟩) s = .next (replied f 0 (readCounter s i) s.tkl.reply (heard s)) := by
  have reads : readCnt ⟨.ok, hi⟩ f (heard s) = (heard s, 0, readCounter s i) := by
    have runs' : (heard s).core = true := runs
    have skips : ¬ i % 2 = 0 := by rw [odd]; exact one_ne_zero
    simp only [readCnt, runs', if_true, ledgerEcc, ← hi', skips, if_false]
    rfl
  refine (congrArg next (tklRow_addressed (op := opReadCnt) (readCnt ⟨.ok, hi⟩) haddr)).trans ?_
  rw [reads]
  rfl

theorem tokenLineObserves : TokenLineObserves := by
  refine ⟨fun s f haddr runs => readAnswered haddr,
    fun s f i haddr runs hi even => evenCounterAnswered haddr runs hi even,
    fun s f i hi haddr runs hi' odd => oddCounterAnswered hi haddr runs hi' odd, fun s f haddr ver => ?_,
    fun s f haddr ver => ?_⟩
  · refine (congrArg next (tklRow_addressed readCntHi haddr)).trans ?_
    rw [readCntHi, if_neg ver]
    rfl
  · refine (congrArg next (tklRow_addressed readCntHi haddr)).trans ?_
    rw [readCntHi, if_pos ver]
    rfl

theorem takeOver : TakeOver := by
  refine ⟨fun s f haddr runs free => ?_, fun s f k haddr runs held first => ?_, fun s f haddr over_ own => ?_,
    fun s f haddr refuses => ?_, fun s runs over_ own limited due => ?_, fun s waits => ?_,
    fun s f b q accepted code single busy reg => ?_⟩
  · have takes : take f (heard s) = ({ heard s with dsp := { s.dsp with takeover := true } }, 0, 0) := by
      have runs' : (heard s).core = true := runs
      have goes : ¬ (!s.dsp.takeover && s.dsp.commitHeld.isSome) = true := by
        rw [free, Option.isSome_none, Bool.and_false]
        exact Bool.false_ne_true
      exact (if_pos runs').trans (if_neg goes)
    refine (congrArg next (tklRow_addressed (op := opTake) take haddr)).trans ?_
    rw [takes]
    rfl
  · have takes : take f (heard s) = (setTkl (fun x => { x with busy := some (false, f.seq.toNat) })
        { heard s with dsp := { s.dsp with takeover := true } }, 0x10, 0) := by
      have runs' : (heard s).core = true := runs
      have waits : (!s.dsp.takeover && s.dsp.commitHeld.isSome) = true := by
        rw [held, first]
        rfl
      exact (if_pos runs').trans (if_pos waits)
    refine (congrArg next (tklRow_addressed (op := opTake) take haddr)).trans ?_
    rw [takes]
    rfl
  · have gives : inTakeover give f (heard s) = (endTakeover (heard s), 0, 0) := by
      have over' : (heard s).dsp.takeover = true := over_
      have own' : (heard s).tkl.auto = false := own
      rw [inTakeover, if_pos over', give, own', if_neg Bool.false_ne_true]
    refine (congrArg next (tklRow_addressed (op := opGive) (inTakeover give) haddr)).trans ?_
    rw [gives]
    rfl
  · have refused : inTakeover give f (heard s) = (heard s, statusNotPermitted, 0) := by
      unfold inTakeover
      split
      next over_ =>
        have auto : (heard s).tkl.auto = true :=
          refuses.resolve_left fun ended => absurd (ended.symm.trans over_) Bool.false_ne_true
        rw [give, if_pos auto]
      next ended => rfl
    refine (congrArg next (tklRow_addressed (op := opGive) (inTakeover give) haddr)).trans ?_
    rw [refused]
    rfl
  · have due' : decide (s.tkl.lastAt + leaseMs s * 1000000 ≤ s.now) = true := decide_eq_true due
    have limited' : (leaseMs s != 0) = true := bne_iff_ne.mpr limited
    rw [exec_takeoverLeaseExpire, runs, when_true, leaseExpire, over_, own, limited', due']
    rfl
  · have keeps : leaseExpire s = s := by
      unfold leaseExpire
      rcases waits with ended | own | unlimited | early
      · rw [ended, Bool.false_and, Bool.false_and, Bool.false_and, if_neg Bool.false_ne_true]
      · rw [own, Bool.not_true, Bool.and_false, Bool.false_and, Bool.false_and, if_neg Bool.false_ne_true]
      · have none_ : (leaseMs s != 0) = false := bne_eq_false_iff_eq.mpr unlimited
        rw [none_, Bool.and_false, Bool.false_and, if_neg Bool.false_ne_true]
      · have soon : decide (s.tkl.lastAt + leaseMs s * 1000000 ≤ s.now) = false :=
          decide_eq_false (Nat.not_le.mpr early)
        rw [soon, Bool.and_false, if_neg Bool.false_ne_true]
    rw [exec_takeoverLeaseExpire]
    unfold when
    rw [keeps, ite_self]
  · have unfolded : exec (.tklWrite f) s = .next (match writeKind s (tklAddr f) f.wdata with
      | .reg => tklRow opWrite (inTakeover writeReg) f s
      | _ => s) := rfl
    have busy' : (heard s).tkl.busy = some (b, q) := busy
    have hears : setTkl (fun x => { x with lastAt := s.now }) s = heard s := rfl
    have noAct : ¬ (f.op.toNat = opForce ∨ f.op.toNat = opRelease) := by rw [code]; decide
    have row : tklRow opWrite (inTakeover writeReg) f s = acceptFrame (inTakeover writeReg) f s := by
      rw [tklRow, accepted, code]
      rfl
    have waits : acceptFrame (inTakeover writeReg) f s = pendingFrame (inTakeover writeReg) q f (heard s) := by
      simp only [acceptFrame, single, Bool.false_eq_true, if_false, hears, busy']
    rw [unfolded, reg]
    exact congrArg next ((row.trans waits).trans (if_neg noAct))

end Sys2Proof.Claims
end

section
open Sys2Proof Sys2Proof.Machine Sys2Proof.Claims

/-- Settles O59: an accepted frame reaches its row (`tklRow_addressed`), and each row's request is worked out. -/
theorem tokenLineFrames : Obligations.TokenLineFrames :=
  ⟨framesForwarded, tokenLineAddressing, tokenLineObserves, takeOver⟩
end

section
/-! PROOFS. O60: the forced safe state, COMMIT, CLEAR_REC and WRITE of the token line (R22-R24, R314, R356, R357). -/

namespace Sys2Proof.Machine

open Sys2Proof.Claims

/-! ### The forced safe state -/

/-- The forced record takes the lowest free slot, and SAFE_REQ is driven. -/
theorem forceSafe_forces {s : State} {k : Nat} (runs : s.core = true) (free : s.sbx.forced = false)
    (taken_ : s.sbx.taken = true) (boots : s.dsp.boot.state ≠ 2) (slots : s.sbx.recs.length = 32)
    (lowest : (List.range 32).find? (fun j => !(s.frec j).valid) = some k) :
    let t := forceSafe s
    t.sbx.forced = true ∧ t.sbx.safeReq = true ∧ (t.frec k).valid = true ∧ (t.frec k).forced = true ∧
      (t.frec k).sub = 12 ∧ (t.frec k).cause = 7 ∧ (t.frec k).detect = s.ttb.time ∧
      (∀ j, j ≠ k → t.frec j = s.frec j) ∧ t.sbx.escTimes = s.sbx.escTimes := by
  intro t
  have inside : k < 32 := List.mem_range.mp (List.mem_of_find?_eq_some lowest)
  obtain ⟨o, ho⟩ : ∃ o : Occurrence, o = { occ 12 7 0 with time := s.now, forced := true } := ⟨_, rfl⟩
  obtain ⟨u, hu⟩ : ∃ u : State, u = { s with sbx := { s.sbx with forced := true } } := ⟨_, rfl⟩
  obtain ⟨v, hv⟩ : ∃ v, v = u.markFault s.now := ⟨_, rfl⟩
  have marked : v.sbx = u.sbx := by
    rw [hv]
    exact (State.markFault_within (.refl [.stats] u)).sbx_eq
  have recs : v.sbx.recs = s.sbx.recs := by rw [marked, hu]
  have same : ∀ j, v.frec j = s.frec j := fun j => by rw [State.frec, recs]; rfl
  obtain ⟨w, r, placed, hw, valid, forced, sub, cause, detect⟩ : ∃ w r,
      (placeNew o (reactionOf u o) v).1 = w ∧ Within [.recs, .inbox] (v.setRec k r) w ∧ r.valid = true ∧
      r.forced = true ∧ r.sub = 12 ∧ r.cause = 7 ∧ r.detect = s.ttb.time := by
    have lowest' : (List.range 32).find? (fun j => !(v.frec j).valid) = some k := by
      simp only [same]
      exact lowest
    simp only [placeNew, lowest']
    refine ⟨_, _, rfl, .ite (State.emit_within (.refl _ _)) (.refl _ _), rfl, ?_, ?_, ?_, ?_⟩
    all_goals (subst ho; rfl)
  have acts : t = refresh w := by
    have forces : t = refresh (placeNew o (reactionOf u o) v).1 := by
      have goes : (!s.core || s.sbx.forced) = false := by rw [runs, free]; rfl
      simp only [t, forceSafe, goes, Bool.false_eq_true, if_false, boots, ho, hv, hu]
      rfl
    rw [forces, placed]
  have box : ∀ {α : Type} (p : SignalBox → α), (∀ x a b, p { x with inbox := a, arising := b } = p x) →
      p w.sbx = p (v.setRec k r).sbx := fun p hp => hw.sbx_field p hp
  have shownRecs : t.sbx.recs = s.sbx.recs.set k r := by
    rw [acts, refresh_recs, box (·.recs) fun _ _ _ => rfl, ← recs]
    rfl
  have found : ∀ j, t.frec j = if j = k then r else s.frec j := fun j => by
    have reads : t.frec j = (s.setRec k r).frec j := by rw [State.frec, shownRecs]; rfl
    exact reads.trans (frec_setRec r (slots.symm ▸ inside) j)
  have self : t.frec k = r := (found k).trans (if_pos rfl)
  have forced' : t.sbx.forced = true := by
    have kept : (refresh w).sbx.forced = w.sbx.forced := congrArg (·.sbx.forced) (refresh_only w)
    rw [acts, kept, box (·.forced) fun _ _ _ => rfl, show (v.setRec k r).sbx.forced = v.sbx.forced from rfl, marked, hu]
  have takenStill : t.sbx.taken = true := by
    have kept : (refresh w).sbx.taken = w.sbx.taken := congrArg (·.sbx.taken) (refresh_only w)
    rw [acts, kept, box (·.taken) fun _ _ _ => rfl, show (v.setRec k r).sbx.taken = v.sbx.taken from rfl, marked, hu]
    exact taken_
  have follows : outputsFollow t := acts ▸ outputsFollow_refresh w
  refine ⟨forced', ?_, self ▸ valid, self ▸ forced, self ▸ sub, self ▸ cause, self ▸ detect,
    fun j other => (found j).trans (if_neg other), ?_⟩
  · rw [(follows takenStill).1, forced', Bool.or_true, Bool.true_or]
  · have kept : (refresh w).sbx.escTimes = w.sbx.escTimes := congrArg (·.sbx.escTimes) (refresh_only w)
    rw [acts, kept, box (·.escTimes) fun _ _ _ => rfl,
      show (v.setRec k r).sbx.escTimes = v.sbx.escTimes from rfl, marked, hu]

/-- The end of the forced safe state: the forced records leave it, and the outputs follow what stays. -/
theorem releaseSafe_releases {s : State} (forced : s.sbx.forced = true) (taken_ : s.sbx.taken = true) :
    let t := releaseSafe s
    t.sbx.forced = false ∧
      t.sbx.safeReq = (s.sbx.state == 3 || (s.sbx.recs.map (unforceRec s.ttb.time)).any fun r =>
        r.valid && r.inForce && r.safe) ∧
      t.sbx.recs = s.sbx.recs.map (unforceRec s.ttb.time) := by
  intro t
  obtain ⟨u, hu⟩ : ∃ u : State, u = { s with
    sbx := { s.sbx with forced := false, recs := s.sbx.recs.map (unforceRec s.now) } } := ⟨_, rfl⟩
  have acts : t = refresh u := by
    rw [hu]
    exact if_pos forced
  have box : t.sbx = { u.sbx with
      safeReq := t.sbx.safeReq, degrade := t.sbx.degrade, fcTarget := t.sbx.fcTarget,
      faultClass := t.sbx.faultClass, fcMid := t.sbx.fcMid, fcAt := t.sbx.fcAt } := by
    rw [acts]
    exact congrArg State.sbx (refresh_only u)
  have recs : t.sbx.recs = s.sbx.recs.map (unforceRec s.ttb.time) := (congrArg SignalBox.recs box).trans (hu ▸ rfl)
  have ended : t.sbx.forced = false := (congrArg SignalBox.forced box).trans (hu ▸ rfl)
  have state : t.sbx.state = s.sbx.state := (congrArg SignalBox.state box).trans (hu ▸ rfl)
  have still : t.sbx.taken = true := (congrArg SignalBox.taken box).trans (hu ▸ taken_)
  have follows : outputsFollow t := acts ▸ outputsFollow_refresh u
  refine ⟨ended, ?_, recs⟩
  rw [(follows still).1, ended, recs, state, Bool.or_false, List.any_filter]

end Sys2Proof.Machine

namespace Sys2Proof.Claims

open Sys2Proof.Machine

theorem forcedSafeState : ForcedSafeState := by
  refine ⟨fun s f k haddr runs free taken_ boots slots lowest => ?_,
    fun s f k accepted code all runs free taken_ boots slots lowest => ?_, fun s f haddr forced taken_ => ?_,
    fun s f haddr free => ?_⟩
  · obtain ⟨forced, safe, valid, forcedRec, sub, cause, detect, others, times⟩ :=
      forceSafe_forces (s := heard s) runs free taken_ boots slots lowest
    exact ⟨_, congrArg next (tklRow_addressed (op := opForce) (fun _ s => (forceSafe s, 0, 0)) haddr), forced, safe,
      valid, forcedRec, sub, cause, detect, others, times, rfl⟩
  · obtain ⟨forced, safe, -, forcedRec, -⟩ := forceSafe_forces runs free taken_ boots slots lowest
    refine ⟨_, congrArg next (tklRow_broadcast (op := opForce) (fun _ s => (forceSafe s, 0, 0)) accepted code all),
      forced, safe, forcedRec, rfl, ?_⟩
    have line : (forceSafe s).tkl = s.tkl := (forceSafe_within (.refl [.stats, .recs, .sbx, .inbox] s)).tkl_eq
    exact (congrArg TokenLine.reply line :)
  · obtain ⟨ended, safe, recs⟩ := releaseSafe_releases (s := heard s) forced taken_
    exact ⟨_, congrArg next (tklRow_addressed (op := opRelease) (fun _ s => (releaseSafe s, 0, 0)) haddr), ended, safe,
      recs⟩
  · have idle : releaseSafe (heard s) = heard s := by
      have free' : (heard s).sbx.forced = false := free
      rw [releaseSafe, free', if_neg Bool.false_ne_true]
    refine (congrArg next (tklRow_addressed (op := opRelease) (fun _ s => (releaseSafe s, 0, 0)) haddr)).trans ?_
    dsimp only
    rw [idle]
    rfl

theorem inTakeover_acts {s : State} (act : TklAct) (f : TklFrame) (over_ : s.dsp.takeover = true) :
    inTakeover act f s = act f s := if_pos over_

theorem tokenLineCommits : TokenLineCommits := by
  refine ⟨fun s f haddr over_ none_ free => ?_, fun s f b haddr over_ some_ free => ?_,
    fun s f k haddr over_ one named slots valid apart => ?_⟩
  · have commits : inTakeover tklCommit f (heard s) =
        (commitWrites (heard s), 0, nat64 (commitWrites (heard s)).dsp.activeGen) := by
      have goes : ¬ ((heard s).ttb.announced.isSome || (heard s).dsp.commitHeld.isSome) = true := by
        have none' : (heard s).ttb.announced = none := none_
        have free' : (heard s).dsp.commitHeld = none := free
        rw [none', free']
        exact Bool.false_ne_true
      exact (inTakeover_acts (s := heard s) tklCommit f over_).trans (if_neg goes)
    refine (congrArg next (tklRow_addressed (op := opCommit) (inTakeover tklCommit) haddr)).trans ?_
    rw [commits]
    rfl
  · obtain ⟨u, hu⟩ : ∃ u, u = setTkl (fun x => { x with busy := some (true, f.seq.toNat) })
      { heard s with dsp := { s.dsp with commitHeld := some tklTicket } } := ⟨_, rfl⟩
    have holds : inTakeover tklCommit f (heard s) = (u, 0x10, 0) := by
      have waits : ((heard s).ttb.announced.isSome || (heard s).dsp.commitHeld.isSome) = true := by
        have some' : (heard s).ttb.announced = some b := some_
        rw [some', Option.isSome_some, Bool.true_or]
      have free' : (heard s).dsp.commitHeld.getD tklTicket = tklTicket := by
        have none_ : (heard s).dsp.commitHeld = none := free
        rw [none_]
        rfl
      refine ((inTakeover_acts (s := heard s) tklCommit f over_).trans (if_pos waits)).trans ?_
      rw [free', hu]
      rfl
    have acts := tklRow_addressed (op := opCommit) (inTakeover tklCommit) haddr
    rw [holds] at acts
    refine ⟨_, congrArg next acts, ?_, ?_, ?_, ?_, rfl⟩
    all_goals rw [hu]; rfl
  · obtain ⟨u, hu⟩ : ∃ u, u = (clearSlots [k] (heard s)).1 := ⟨_, rfl⟩
    have picked : [k].filter (clearable (heard s)) = [k] := by
      have clear : clearable (heard s) k = true := by
        have valid' : ((heard s).frec k).valid = true := valid
        rw [clearable, valid']
        rcases apart with plain | free
        · have plain' : ((heard s).frec k).forced = false := plain
          rw [plain']
          rfl
        · have free' : (heard s).sbx.forced = false := free
          rw [free', Bool.and_false]
          rfl
      rw [List.filter_cons, clear, if_pos rfl, List.filter_nil]
    have clears : inTakeover clearRec f (heard s) = (u, 0, 1) := by
      refine (inTakeover_acts (s := heard s) clearRec f over_).trans ?_
      have count : (clearSlots [k] (heard s)).2 = 1 := by rw [clearSlots_eq, picked]; rfl
      simp only [clearRec, one, Bool.false_eq_true, if_false, named, ← hu, count]
      rfl
    have acts := tklRow_addressed (op := opClearRec) (inTakeover clearRec) haddr
    rw [clears] at acts
    have slots : ∀ j, u.frec j = if j ∈ [k] then FRec.reset else s.frec j := fun j => by
      rw [hu, clearSlots_frec, picked]
      rfl
    refine ⟨_, congrArg next acts, ?_, fun j other => ?_, rfl⟩
    · exact congrArg FRec.valid ((slots k).trans (if_pos (List.mem_singleton_self k)))
    · exact (slots j).trans (if_neg fun h => other (List.mem_singleton.mp h))

/-- Outside take-over a request of take-over is refused. -/
theorem refused_outside {op : Nat} {s : State} {f : TklFrame} (act : TklAct) (haddr : addressed op f s)
    (ended : s.dsp.takeover = false) :
    tklRow op (inTakeover act) f s = replied f 3 0 s.tkl.reply (heard s) := by
  have refused : inTakeover act f (heard s) = (heard s, statusNotPermitted, 0) :=
    if_neg fun over_ => absurd (ended.symm.trans over_) Bool.false_ne_true
  rw [tklRow_addressed (inTakeover act) haddr, refused]
  rfl

/-- What a WRITE does in take-over, by the kind of the written word. -/
def writeAct (f : TklFrame) : WriteKind → TklAct
  | .reg => writeReg
  | .partCreate p => fun g s => readBack g 0 (writePartCreate p f.wdata s)
  | .partDetach p => fun g s => readBack g 0 (writePartDetach p f.wdata s)
  | .mirror p => fun g s => readBack g 0 (writeMirror p (bit f.wdata 61) s)
  | .window o k z => fun g s => readBack g 0 (writeWindow o k z f.wdata s)
  | .sdgCreate sid => fun g s => readBack g 0 (writeSdgCreate sid f.wdata s)
  | .sdgFree sid => sdgFreeAct sid
  | .view n => fun g s => readBack g 0 (setTkl (fun x => { x with view := n }) s)

/-- The row that picks the kind of the written word. -/
theorem writeRow_picks {pick : WriteKind → Option (State → State)} {s : State} {f : TklFrame} {k : WriteKind}
    {act : State → State} (kind : writeKind s (tklAddr f) f.wdata = k) (picked : pick k = some act) :
    next (writeRow pick f s) = .next (tklRow opWrite (inTakeover fun g s => readBack g 0 (act s)) f s) := by
  simp only [writeRow, kind, picked]
  rfl

theorem writeRow_passes {pick : WriteKind → Option (State → State)} {s : State} {f : TklFrame}
    (none_ : pick (writeKind s (tklAddr f) f.wdata) = none) : writeRow pick f s = s := by
  simp only [writeRow, none_]

/-- The row of a WRITE's own kind is one of take-over. -/
theorem exec_rowOfWrite {s : State} {f : TklFrame} {k : WriteKind} (kind : writeKind s (tklAddr f) f.wdata = k) :
    exec (rowOfWrite f k) s = .next (tklRow opWrite (inTakeover (writeAct f k)) f s) := by
  cases k with
  | reg =>
    have unfolded : exec (.tklWrite f) s = .next (match writeKind s (tklAddr f) f.wdata with
      | .reg => tklRow opWrite (inTakeover writeReg) f s
      | _ => s) := rfl
    rw [kind] at unfolded
    exact unfolded
  | sdgFree sid =>
    have unfolded : exec (.tklWriteSdgFree f) s = .next (match writeKind s (tklAddr f) f.wdata with
      | .sdgFree sid => tklRow opWrite (inTakeover (sdgFreeAct sid)) f s
      | _ => s) := rfl
    rw [kind] at unfolded
    exact unfolded
  | partCreate | partDetach | mirror | window | sdgCreate | view => exact writeRow_picks kind rfl

theorem writesNeedTakeOver : WritesNeedTakeOver := by
  refine ⟨fun s f haddr ended => ?_, fun s f haddr ended => ?_, fun s f haddr ended => ?_, fun s f k other => ?_⟩
  · rw [exec_rowOfWrite rfl]
    exact congrArg next (refused_outside (op := opWrite) _ haddr ended)
  · exact congrArg next (refused_outside (op := opCommit) tklCommit haddr ended)
  · exact congrArg next (refused_outside (op := opClearRec) clearRec haddr ended)
  · generalize kind : writeKind s (tklAddr f) f.wdata = own at other
    cases k with
    | reg | sdgFree =>
      refine congrArg next (?_ : _ = s)
      rw [kind]
      split
      · exact absurd rfl other
      · rfl
    | partCreate | partDetach | mirror | window | sdgCreate | view =>
      refine congrArg next (writeRow_passes ?_)
      rw [kind]
      split
      · exact absurd rfl other
      · rfl

/-- A WRITE in take-over acts by its kind, and its answer is ready. -/
theorem exec_write {s : State} {f : TklFrame} {k : WriteKind} (haddr : addressed 3 f s)
    (over_ : s.dsp.takeover = true) (kind : writeKind s (tklAddr f) f.wdata = k) :
    exec (rowOfWrite f k) s = .next (replied f (writeAct f k f (heard s)).2.1 (writeAct f k f (heard s)).2.2
      s.tkl.reply (writeAct f k f (heard s)).1) := by
  rw [exec_rowOfWrite kind, tklRow_addressed (op := opWrite) (inTakeover (writeAct f k)) haddr,
    inTakeover_acts (s := heard s) (writeAct f k) f over_]

/-- Outside the table, the sidings and the station view a word is a plain register. -/
theorem writeKind_reg {a : Nat} (s : State) (w : Word) (h : a < 0x1900 ∨ 0x300000 ≤ a) : writeKind s a w = .reg := by
  have part : partAt a = none := by
    unfold partAt
    rw [if_neg (by omega), if_neg (by omega)]
  have window : windowAt a = none := by
    unfold windowAt
    rw [if_neg (by omega), if_neg (by omega)]
  have siding : sdgCfgAt a = none := if_neg (by omega)
  simp only [writeKind, part, window, siding]
  exact if_neg (by omega)

/-- Without the core every register reads 0 (R44). -/
theorem readReg_gated {s u : State} (same : u.core = s.core) (view a : Nat) :
    readReg u view a = if s.core then readReg u view a else 0 := by
  by_cases runs : s.core = true
  · rw [if_pos runs]
  · rw [if_neg runs, readReg, same, if_neg runs]

/-- A plain word of the Root page below the Interlocking block. -/
theorem writeReg_low {f : TklFrame} {a : Nat} (s : State) (at_ : tklAddr f = a) (low : a < 0x1900) :
    writeReg f s = readBack f 0 (writeLow a f.wdata s) := by
  have outside : ¬ (0x300000 ≤ a ∧ a < 0x310000) := by omega
  have done : regStatus s a = 0 := if_neg (by omega)
  have root : writeRoot a f.wdata s = writeLow a f.wdata s := if_pos (by omega)
  rw [writeReg, at_, if_neg outside, if_pos (by omega), done, root]

theorem registerWritten : RegisterWritten := by
  refine ⟨fun s f n haddr over_ kind => ?_, fun s f haddr over_ at_ => ?_, fun s f haddr over_ at_ => ?_,
    fun s f haddr over_ low high closed => ?_⟩
  · intro u
    rw [← readReg_gated (s := s) (u := u) rfl]
    exact exec_write haddr over_ kind
  · intro lease u
    have kind : writeKind s (tklAddr f) f.wdata = .reg := writeKind_reg s f.wdata (.inl (by omega))
    have clamped : (if fld f.wdata 0 16 = 0 then 0 else clamp 10 60000 (fld f.wdata 0 16)) = lease :=
      if_congr Iff.rfl rfl rfl
    have writes : writeAct f .reg f (heard s) = (u, 0, readReg u s.tkl.view 0x300) := by
      have acts : writeLow 0x300 f.wdata (heard s) = u := by
        have leased : clampLease f.wdata = pack [(0, 16, lease)] := by rw [clampLease, clamped]
        have unfolded : writeLow 0x300 f.wdata (heard s) = setTkl (fun x => { x with cfg := clampLease f.wdata })
          (heard s) := rfl
        rw [unfolded, leased]
        rfl
      have view : u.tkl.view = s.tkl.view := rfl
      refine (writeReg_low (heard s) at_ (by decide)).trans ?_
      rw [acts, readBack, at_, view]
    rw [← readReg_gated (s := s) (u := u) rfl]
    have acts := exec_write haddr over_ kind
    rw [writes] at acts
    exact acts
  · have kind : writeKind s (tklAddr f) f.wdata = .reg := writeKind_reg s f.wdata (.inl (by omega))
    have due : clamp 2 100 (fld f.wdata 0 8) = max 2 (min 100 (fld f.wdata 0 8)) := by rw [clamp]
    have writes : writeAct f .reg f (heard s) =
        readBack f 0 ((heard s).pendE (.pltDue (clamp 2 100 (fld f.wdata 0 8)))) :=
      writeReg_low (heard s) at_ (by decide)
    have acts := exec_write haddr over_ kind
    rw [writes, due] at acts
    exact ⟨_, acts, rfl, rfl, rfl⟩
  · have kind : writeKind s (tklAddr f) f.wdata = .reg := writeKind_reg s f.wdata (.inr low)
    have refused : writeAct f .reg f (heard s) = readBack f statusSealed (refuseWrite 2 (heard s)) := by
      have closed' : meterOpen (heard s) = false := closed
      simp only [writeAct, writeReg, low, high, and_self, if_true, closed', Bool.false_eq_true, if_false]
    have acts := exec_write haddr over_ kind
    rw [refused] at acts
    obtain ⟨map, -, -⟩ := refuseWrite_leaves 2 (heard s)
    have time : (refuseWrite 2 (heard s)).ttb = s.ttb := (refuseWrite_within 2 (.refl [.inbox, .mtr] (heard s))).ttb_eq
    exact ⟨_, acts, map, congrArg Timetable.cfg time, _, rfl, rfl, rfl⟩

/-! ### WRITEs that act as commands -/

/-- What a written word's kind tells of the partition that it names. -/
theorem writeKind_part {s : State} {a p : Nat} {w : Word} :
    (writeKind s a w = .partCreate p → (s.part p).state = 0) ∧
      (writeKind s a w = .mirror p → bit w 61 ≠ (s.part p).mirror) := by
  unfold writeKind
  split
  next q _ =>
    unfold partKind
    split
    next free => exact ⟨fun h => WriteKind.partCreate.inj h ▸ free.2, nofun⟩
    split
    · exact ⟨nofun, nofun⟩
    split
    next differs => exact ⟨nofun, fun h => WriteKind.mirror.inj h ▸ bne_iff_ne.mp differs⟩
    · exact ⟨nofun, nofun⟩
  · exact ⟨nofun, nofun⟩
  · unfold sdgKind
    dsimp only
    split
    · exact ⟨nofun, nofun⟩
    · split <;> exact ⟨nofun, nofun⟩
  · split <;> exact ⟨nofun, nofun⟩

theorem partSoon_settled {s : State} (p : Nat) (h : s.ilk.changes = []) :
    partSoon s p = ((s.part p).state, (s.part p).mirror) := by
  rw [partSoon, h]
  rfl

/-- A mirror that stands, or an entry that is not live, is left alone. -/
theorem writeMirror_keeps {s : State} {p : Nat} {on : Bool} (h : s.ilk.changes = [])
    (idle : on = (s.part p).mirror ∨ (s.part p).state ≠ 1) : writeMirror p on s = s := by
  have keeps : (decide (on = (s.part p).mirror) || (s.part p).state != 1) = true := by
    rcases idle with same | other
    · rw [decide_eq_true same, Bool.true_or]
    · rw [bne_iff_ne.mpr other, Bool.or_true]
  rw [writeMirror, partSoon_settled p h]
  exact if_pos keeps

theorem writeMirror_changes {s : State} {p : Nat} {on : Bool} (point : pointFree s) (live : (s.part p).state = 1)
    (differs : on ≠ (s.part p).mirror) : writeMirror p on s = applyChange (.mirror p on) s := by
  have acts : (decide (on = (s.part p).mirror) || (s.part p).state != 1) = false := by
    rw [decide_eq_false differs, live]
    rfl
  rw [writeMirror, partSoon_settled p point.1]
  exact (if_neg (ne_true_of_eq_false acts)).trans (tableChange_free point _)

/-- Creation by the token line: no completion tells of it. -/
theorem createNow_creates {s : State} {p sid base mask : Nat} (point : pointFree s) (free : (s.part p).state = 0)
    (found : (List.range 256).find? (fun i => decide (4 ≤ i) && (s.siding i).state == 0) = some sid)
    (place : placeSiding s sid 0 = some base) :
    ∃ ctxs, createNow p 0 mask tklTicket s = created p ctxs sid 0 base s := by
  have soon : ((partSoon s p).1 != 0) = false := by
    rw [partSoon_settled p point.1]
    exact bne_eq_false_iff_eq.mpr free
  have point' : pointFree (makeCompl sid p 0 base s) := point
  refine ⟨maskOf ((bitsOf 32 mask).filter fun c => decide (16 ≤ s.ctxOwner c) && !(comingMask s).testBit c), ?_⟩
  rw [createNow, soon, if_neg Bool.false_ne_true]
  simp only [found, place]
  rw [tableChange_free point']
  rfl

theorem shaped_lengths {s : State} (h : s.shaped = true) :
    s.sdg.desc.length = 256 ∧ s.ilk.parts.length = 16 ∧ s.dsp.wins.length = 17 := by
  simp only [State.shaped, Bool.and_eq_true, beq_iff_eq] at h
  omega

theorem partCreateWritten {s : State} {f : TklFrame} {p sid base : Nat} (haddr : addressed 3 f s)
    (over_ : s.dsp.takeover = true) (shaped : s.shaped = true)
    (kind : writeKind s (tklAddr f) f.wdata = .partCreate p) (hp : p < 16) (plain : bit f.wdata 61 = false)
    (point : pointFree s)
    (found : (List.range 256).find? (fun i => decide (4 ≤ i) && (s.siding i).state == 0) = some sid)
    (place : placeSiding s sid 0 = some base) :
    Answers (.tklWritePartCreate f) s fun t =>
      (t.part p).state = 1 ∧ (t.win p).isOpen = true ∧ (t.win p).compl = sid ∧ (t.siding sid).state = 1 ∧
      (t.siding sid).owner = p := by
  obtain ⟨hsdg, hparts, hwins⟩ := shaped_lengths shaped
  have free : ((heard s).part p).state = 0 := writeKind_part.1 kind
  obtain ⟨ctxs, creates⟩ := createNow_creates (s := heard s) (mask := fld f.wdata 0 32) point free found place
  obtain ⟨self, -, opens, compl, -⟩ := created_creates (free := ctxs) (sid := sid) (code := 0) (base := base)
    (s := heard s) hp hparts hwins
  obtain ⟨-, -, sidings, -⟩ := created_point p ctxs sid 0 base (heard s)
  have settled : (created p ctxs sid 0 base (heard s)).ilk.changes = [] :=
    (applyChange_point (.create p ctxs sid) (makeCompl sid p 0 base (heard s))).2.2.trans point.1
  have sidRange : sid < 256 := List.mem_range.mp (List.mem_of_find?_eq_some found)
  obtain ⟨-, state, owner, -⟩ := siding_makeCompl (s := heard s) (hsdg.symm ▸ sidRange) p 0 base sid
  obtain ⟨u, hu⟩ : ∃ u, u = created p ctxs sid 0 base (heard s) := ⟨_, rfl⟩
  rw [← hu] at self opens compl sidings settled creates
  have writes : writeAct f (.partCreate p) f (heard s) = readBack f 0 u := by
    have mirror : writeMirror p (bit f.wdata 61) u = u :=
      writeMirror_keeps settled (.inl (by rw [plain, self]; rfl))
    simp only [writeAct, writePartCreate, creates, mirror]
  have siding : u.siding sid = (makeCompl sid p 0 base (heard s)).siding sid := by
    rw [State.siding, sidings]
    rfl
  have acts := exec_write haddr over_ kind
  rw [writes] at acts
  exact ⟨_, acts, congrArg Part.state self, opens, compl, (congrArg Siding.state siding).trans state,
    (congrArg Siding.owner siding).trans owner⟩

theorem partDetachWritten {s : State} {f : TklFrame} {p : Nat} (haddr : addressed 3 f s)
    (over_ : s.dsp.takeover = true) (shaped : s.shaped = true)
    (kind : writeKind s (tklAddr f) f.wdata = .partDetach p) (hp : p < 16) (can : detachable s p = true)
    (point : pointFree s) :
    Answers (.tklWritePartDetach f) s fun t =>
      (t.part p).state = 2 ∧ (t.win p).isOpen = false ∧ ∃ d ∈ t.ilk.detaches, d.p = p ∧ d.ticket = tklTicket := by
  obtain ⟨-, hparts, hwins⟩ := shaped_lengths shaped
  obtain ⟨d, hd⟩ : ∃ d : Detach, d = {
      p := p, ticket := tklTicket, at_ := none, tdDone := false, td := none, snapOk := none, mask := 0,
      scrub := false, scrubEnd := false, failed := false } := ⟨_, rfl⟩
  obtain ⟨noted, hn⟩ : ∃ noted : State, noted =
    { heard s with ilk := { (heard s).ilk with detaches := (heard s).ilk.detaches ++ [d] } } := ⟨_, rfl⟩
  have detaches_ : detachNow p tklTicket (heard s) = applyChange (.detach p) noted := by
    have can' : detachable (heard s) p = true := can
    have point' : pointFree noted := hn ▸ point
    rw [← tableChange_free point', hn, hd]
    exact if_pos can'
  obtain ⟨state, closed, detaches⟩ := detach_detaches (s := noted) hp (hn ▸ hparts) (hn ▸ hwins)
  have settled : (applyChange (.detach p) noted).ilk.changes = [] :=
    (applyChange_point (.detach p) noted).2.2.trans (hn ▸ point.1)
  obtain ⟨u, hu⟩ : ∃ u, u = applyChange (.detach p) noted := ⟨_, rfl⟩
  rw [← hu] at state closed detaches settled detaches_
  have writes : writeAct f (.partDetach p) f (heard s) = readBack f 0 u := by
    have mirror : writeMirror p (bit f.wdata 61) u = u :=
      writeMirror_keeps settled (.inr (by rw [state]; decide))
    simp only [writeAct, writePartDetach, detaches_, mirror]
  have acts := exec_write haddr over_ kind
  rw [writes] at acts
  have begun : d ∈ noted.ilk.detaches := by
    rw [hn]
    exact List.mem_append_right _ (List.mem_singleton_self d)
  refine ⟨_, acts, state, closed, { d with at_ := some noted.now, mask := BitVec.ofNat 32 (ctxMaskOf noted p) }, ?_, ?_,
    ?_⟩
  · have mine : (d.p == p) = true := by rw [hd]; exact beq_self_eq_true p
    have member : { d with at_ := some noted.now, mask := BitVec.ofNat 32 (ctxMaskOf noted p) } ∈ u.ilk.detaches := by
      rw [detaches]
      exact List.mem_map.mpr ⟨d, begun, if_pos mine⟩
    exact member
  · rw [hd]
  · rw [hd]

theorem mirrorWritten {s : State} {f : TklFrame} {p : Nat} (haddr : addressed 3 f s) (over_ : s.dsp.takeover = true)
    (shaped : s.shaped = true) (kind : writeKind s (tklAddr f) f.wdata = .mirror p) (hp : p < 16)
    (live : (s.part p).state = 1) (point : pointFree s) :
    Answers (.tklWriteMirror f) s fun t =>
      t.part p = { s.part p with mirror := bit f.wdata 61 } ∧ (∀ q, q ≠ p → t.part q = s.part q) := by
  obtain ⟨-, hparts, -⟩ := shaped_lengths shaped
  have changes : writeMirror p (bit f.wdata 61) (heard s) = applyChange (.mirror p (bit f.wdata 61)) (heard s) :=
    writeMirror_changes point live (writeKind_part.2 kind)
  have acts := exec_write haddr over_ kind
  simp only [writeAct, changes] at acts
  refine ⟨_, acts, ?_, fun q other => ?_⟩
  · exact State.part_modPart_self (heard s) p (fun x => { x with mirror := bit f.wdata 61 }) (hparts.symm ▸ hp)
  · exact State.part_modPart_ne (heard s) (fun x => { x with mirror := bit f.wdata 61 }) other.symm

theorem windowWritten {s : State} {f : TklFrame} {o k : Nat} (haddr : addressed 3 f s)
    (over_ : s.dsp.takeover = true) (kind : writeKind s (tklAddr f) f.wdata = .window o k true)
    (may : barredPart s o = false) (inside : k < (s.ilk.win.getD o []).length) :
    Answers (.tklWriteWindow f) s fun t =>
      ((t.ilk.win.getD o []).getD k Window.reset).size = pack [(12, 36, fld f.wdata 12 36)] ∧
      (∀ q, q ≠ o → t.ilk.win.getD q [] = s.ilk.win.getD q []) ∧
      (∀ j, j ≠ k → (t.ilk.win.getD o []).getD j Window.reset = (s.ilk.win.getD o []).getD j Window.reset) := by
  obtain ⟨x, hx⟩ : ∃ x, x = ((heard s).ilk.win.getD o []).getD k Window.reset := ⟨_, rfl⟩
  obtain ⟨new, hnew⟩ : ∃ new : Window, new = {
    base := pack [(12, 36, fld x.base 0 48 / 4096), (1, 1, b2n (bit x.base 1)), (0, 1, b2n (bit x.base 0))],
    size := pack [(12, 36, fld f.wdata 0 48 / 4096)] } := ⟨_, rfl⟩
  have listed : o < s.ilk.win.length := by
    by_contra beyond
    rw [List.getD_eq_default _ _ (Nat.le_of_not_lt beyond)] at inside
    exact Nat.not_lt_zero k inside
  have may' : barredPart (heard s) o = false := may
  obtain ⟨u, hu⟩ : ∃ u, u = writeWindow o k true f.wdata (heard s) := ⟨_, rfl⟩
  have windows : u.ilk.win = s.ilk.win.modify o fun l => l.set k new := by
    rw [hu, writeWindow]
    simp only [may', Bool.false_eq_true, if_false, if_true, setWindow, ← hx, hnew]
    rfl
  have acts := exec_write haddr over_ kind
  simp only [writeAct, ← hu] at acts
  have self : u.ilk.win.getD o [] = (s.ilk.win.getD o []).set k new := by
    rw [windows]
    exact (getD_modify ..).trans (if_pos ⟨rfl, listed⟩)
  refine ⟨_, acts, ?_, fun q other => ?_, fun j other => ?_⟩
  · have page : fld f.wdata 0 48 / 4096 = fld f.wdata 12 36 := by
      rw [fld, fld, pow_zero, Nat.div_one]
      exact Nat.mod_mul_right_div_self _ (2 ^ 12) (2 ^ 36)
    have chosen : ((s.ilk.win.getD o []).set k new).getD k Window.reset = new := by
      rw [List.getD_eq_getElem?_getD, List.getElem?_set_self inside]
      rfl
    exact (congrArg Window.size ((congrArg (·.getD k Window.reset) self).trans chosen)).trans (by rw [hnew, page])
  · refine (congrArg (·.getD q []) windows).trans ((getD_modify ..).trans (if_neg fun h => other h.1.symm))
  · refine (congrArg (·.getD j Window.reset) self).trans ?_
    exact getD_set_ne new Window.reset other.symm

theorem siding_makeSiding {s : State} {sid : Nat} (h : sid < s.sdg.desc.length)
    (owner consumer producer code base : Nat) (auto : Bool) (memBase memSize : Nat) :
    let d := (makeSiding sid owner consumer producer code base auto memBase memSize s).siding sid
    d.state = 1 ∧ d.owner = owner ∧ d.base = base := by
  simp [makeSiding, State.modSdg, h]

theorem sdgCreateWritten {s : State} {f : TklFrame} {sid base : Nat} (haddr : addressed 3 f s)
    (over_ : s.dsp.takeover = true) (shaped : s.shaped = true)
    (kind : writeKind s (tklAddr f) f.wdata = .sdgCreate sid) (inPool : sid < 256) (root : 16 ≤ fld f.wdata 48 5)
    (place : placeSiding s sid (createSize (sdgPacket sid f.wdata (ringOf s sid) false)) = some base) :
    Answers (.tklWriteSdgCreate f) s fun t =>
      (t.siding sid).state = 1 ∧ (t.siding sid).owner = 16 ∧ (t.siding sid).base = base ∧
      (∀ i, i ≠ sid → t.siding i = s.siding i) := by
  obtain ⟨hsdg, -, -⟩ := shaped_lengths shaped
  obtain ⟨pk, hpk⟩ : ∃ pk, pk = sdgPacket sid f.wdata (ringOf s sid) false := ⟨_, rfl⟩
  rw [← hpk] at place
  have laid : Laid 64 [(24, 8, sid), (20, 4, fld f.wdata 44 4), (18, 2, fld f.wdata 60 2), (17, 1, fld f.wdata 57 1),
    (5, 5, fld f.wdata 48 5), (4, 1, b2n false)] := by simp [Laid]
  have code : param pk 5 5 = fld f.wdata 48 5 := by
    rw [hpk]
    exact (fld_pack (len := 5) (v := fld f.wdata 48 5) laid (by simp)).trans (Nat.mod_eq_of_lt (fld_lt _ 48 5))
  have owner : ofOwnerCode (param pk 5 5) = 16 := by
    rw [ofOwnerCode, code, if_neg (Nat.not_lt.mpr root)]
  obtain ⟨v, hv⟩ : ∃ v, v = makeSiding sid 16 (createConsumer pk) 0 (createSize pk) base (paramBit pk 17)
    (createMemBase pk) (createMemSize pk) (heard s) := ⟨_, rfl⟩
  have creates : createSiding 16 sid pk tklTicket (heard s) = attachStream sid (createStream 16 pk) v := by
    have place' : placeSiding (heard s) sid (createSize pk) = some base := place
    have may : barredPart (heard s) 16 = false := rfl
    have roots : decide (16 < 16) = false := rfl
    simp only [createSiding, if_true, owner, may, roots, Bool.false_and, Bool.false_eq_true, if_false, place', ← hv]
    rfl
  have sidings : (attachStream sid (createStream 16 pk) v).sdg = v.sdg := by
    unfold attachStream
    generalize (if takesStream v sid then createStream 16 pk else none) = st
    cases st <;> rfl
  obtain ⟨live, own, placed⟩ : (v.siding sid).state = 1 ∧ (v.siding sid).owner = 16 ∧ (v.siding sid).base = base := by
    rw [hv]
    exact siding_makeSiding (s := heard s) (hsdg.symm ▸ inPool) ..
  have others : ∀ i, i ≠ sid → v.siding i = s.siding i := fun i hi => hv ▸ State.siding_modSdg_ne _ (Ne.symm hi)
  have same : ∀ i, (attachStream sid (createStream 16 pk) v).siding i = v.siding i := fun i => by
    rw [State.siding, sidings]
    rfl
  have acts := exec_write haddr over_ kind
  have packet : sdgPacket sid f.wdata (ringOf (heard s) sid) false = pk := hpk.symm
  simp only [writeAct, writeSdgCreate, packet, creates] at acts
  exact ⟨_, acts, (congrArg Siding.state (same sid)).trans live, (congrArg Siding.owner (same sid)).trans own,
    (congrArg Siding.base (same sid)).trans placed, fun i hi => (same i).trans (others i hi)⟩

theorem sdgFreeWritten {s : State} {f : TklFrame} {sid : Nat} (haddr : addressed 3 f s)
    (over_ : s.dsp.takeover = true) (kind : writeKind s (tklAddr f) f.wdata = .sdgFree sid)
    (idle : sidingIdle (s.siding sid) = true) (port : (s.siding sid).producer ≠ 2) :
    Answers (.tklWriteSdgFree f) s fun t => t.siding sid = Siding.reset := by
  obtain ⟨pk, hpk⟩ : ∃ pk, pk = sdgPacket sid f.wdata (ringOf (heard s) sid) true := ⟨_, rfl⟩
  obtain ⟨u, hu⟩ : ∃ u, u = dropHeld (unitSiding sid) (heard s) := ⟨_, rfl⟩
  have fed : unfed (u.siding sid) = unfed ((heard s).siding sid) := hu ▸ dropHeld_onlyFed _ (heard s) sid
  have other : (u.siding sid).producer ≠ 2 := by
    have same : (u.siding sid).producer = ((heard s).siding sid).producer :=
      (congrArg Siding.producer fed :)
    rw [same]
    exact port
  have frees : paramBit pk 4 = true := by
    have laid : Laid 64 [(24, 8, sid), (20, 4, fld f.wdata 44 4), (18, 2, fld f.wdata 60 2), (17, 1, fld f.wdata 57 1),
      (5, 5, fld f.wdata 48 5), (4, 1, b2n true)] := by simp [Laid]
    rw [hpk]
    exact (bit_pack (lo := 4) (v := b2n true) laid (by simp)).trans rfl
  have changes : changeQ sid pk (heard s) = freeSiding sid u := by
    have idle' : sidingIdle ((heard s).siding sid) = true := idle
    rw [changeQ, if_pos idle', ← hu, changeSiding]
    simp only [other, if_false, frees, if_true]
    rfl
  have acts := exec_write haddr over_ kind
  simp only [writeAct, sdgFreeAct, ← hpk, changes] at acts
  exact ⟨_, acts, siding_freeSiding u sid⟩

theorem tableWritten : TableWritten := by
  refine ⟨fun s f p sid base haddr over_ shaped kind hp plain point found place =>
      partCreateWritten haddr over_ shaped kind hp plain point found place,
    fun s f p haddr over_ shaped kind hp can point same => partDetachWritten haddr over_ shaped kind hp can point,
    fun s f p haddr over_ shaped kind hp live point => mirrorWritten haddr over_ shaped kind hp live point,
    fun s f o k haddr over_ shaped kind ho may inside => windowWritten haddr over_ kind may inside,
    fun s f sid base haddr over_ shaped kind inPool root place =>
      sdgCreateWritten haddr over_ shaped kind inPool root place,
    fun s f sid haddr over_ kind idle port => sdgFreeWritten haddr over_ kind idle port⟩

end Sys2Proof.Claims
end

section
open Sys2Proof Sys2Proof.Machine Sys2Proof.Claims

/-- Settles O60: each request reaches its row in take-over (`exec_write`, `tklRow_addressed`), and what it does there is
what the Signal Box, the epochs and the commands do. -/
theorem tokenLineActs : Obligations.TokenLineActs :=
  ⟨forcedSafeState, tokenLineCommits, writesNeedTakeOver, registerWritten, tableWritten⟩
end
